-- ==== Sys2Proof/Word.lean ====
section
/-! DEFINITION. The plain words of the model: bytes, 66-bit blocks, region and lane numbers, and sparse maps as sorted lists. -/

namespace Sys2Proof

/-- One byte. -/
abbrev Byte := BitVec 8

/-- A 66-bit block, numbered [65:0] and sent bit 0 first (R87). -/
abbrev Block := BitVec 66

/-- A region ID, 0 to 4,095 (R23). -/
abbrev Region := BitVec 12

/-- A gallery index, 0 to 7 (R13). -/
abbrev GalIx := Fin 8

/-- A data lane, by physical number or by logical position (R14, R69). -/
abbrev LaneIx := Fin 8

/-- A tread T0 to T5 (R46). -/
abbrev Tread := Fin 6

/-- A sparse map from numbers: pairs with rising keys; an absent key reads as a default its reader names. -/
abbrev SMap (α : Type) := List (Nat × α)

end Sys2Proof
end

