-- ==== Sys2Proof/Syntax.lean ====
section
/-! DEFINITION. What commands carry, as the wire formats lay it out, and `Instr`, the one inductive of the block's commands: a constructor per row of spec/opcode_table.json. -/

namespace Sys2Proof

/-- A value for each parcel class: PX, PM, NP, CP (R184). -/
structure PerClass (α : Type) where
  px : α
  pm : α
  np : α
  cp : α
  deriving DecidableEq, Repr

/-- A parcel class (R184). -/
inductive Cls where
  | px | pm | np | cp
  deriving DecidableEq, Repr

/-! ## Hop-control blocks -/

/-- CAP (R126), but for its reserved byte 6. -/
structure Cap where
  physLane : BitVec 3
  side : BitVec 1
  gallery : BitVec 2
  kind : BitVec 2
  txCeil : BitVec 3
  rxCeil : BitVec 3
  t3fec : BitVec 1
  heard : BitVec 1
  lanes : BitVec 8
  version : BitVec 4
  floor : BitVec 4
  deriving DecidableEq, Repr

/-- LANDING (R127). -/
structure Landing where
  flight : BitVec 16
  landing : BitVec 4
  numbered : BitVec 1
  deriving DecidableEq, Repr

/-- RESULT (R137). -/
structure ResultBlk where
  tread : BitVec 3
  fec : BitVec 1
  passed : BitVec 8
  eyeWidth : BitVec 8
  eyeHeight : BitVec 8
  deriving DecidableEq, Repr

/-- STEP (R139). -/
structure StepBlk where
  toTread : BitVec 3
  fec : BitVec 1
  action : BitVec 2
  boundary : BitVec 10
  lanes : BitVec 8
  deriving DecidableEq, Repr

/-- RETRAIN (R144). -/
structure RetrainBlk where
  tread : BitVec 3
  full : BitVec 1
  reason : BitVec 4
  reqId : BitVec 16
  deriving DecidableEq, Repr

/-- LOSS (R166). -/
structure LossBlk where
  failed : BitVec 8
  lastGood : BitVec 10
  reportId : BitVec 4
  lastSlot : BitVec 10
  deriving DecidableEq, Repr

/-- REPLAY (R169). -/
structure ReplayBlk where
  active : BitVec 8
  restartSeq : BitVec 10
  reportId : BitVec 4
  lossless : BitVec 1
  deriving DecidableEq, Repr

/-- REJOIN (R176). -/
structure RejoinBlk where
  pos : BitVec 3
  rejoinSeq : BitVec 10
  active : BitVec 8
  deriving DecidableEq, Repr

/-- A hop-control block by subtype (R92, R125, R165, R204). -/
inductive Hop where
  /-- 0x01 -/
  | cap (c : Cap)
  /-- 0x02 -/
  | landing (l : Landing)
  /-- 0x03, R132 -/
  | eqReq (pos : BitVec 3) (count : BitVec 5) (request : BitVec 8)
  /-- 0x04, R132 -/
  | eqAck (pos : BitVec 3) (count : BitVec 5) (cm2 cm1 cp1 cp2 : BitVec 8)
  /-- 0x05, R135 -/
  | qual (tread : BitVec 3) (fec : BitVec 1) (countdown : BitVec 16)
  /-- 0x06 -/
  | result (r : ResultBlk)
  /-- 0x07 -/
  | step (b : StepBlk)
  /-- 0x08, R140 -/
  | activate (tread : BitVec 3) (fec : BitVec 1) (active : BitVec 8) (firstSeq : BitVec 10)
  /-- 0x09 -/
  | retrain (r : RetrainBlk)
  /-- 0x20 -/
  | loss (l : LossBlk)
  /-- 0x21 -/
  | replay (r : ReplayBlk)
  /-- 0x22, R175 -/
  | laneCheck (pos : BitVec 3) (action : BitVec 3) (checkId : BitVec 16)
  /-- 0x23 -/
  | rejoin (r : RejoinBlk)
  /-- 0x30, R204 -/
  | creditA (px pm : BitVec 12) (demand : BitVec 4)
  /-- 0x31, R204 -/
  | creditB (np cp : BitVec 12) (demand : BitVec 4)
  /-- 0x32, R204 -/
  | info (quotaPx reachPx : BitVec 12)
  /-- 0x33, R204 -/
  | probe (id : BitVec 8)
  /-- 0x34, R204 -/
  | echo (id : BitVec 8)
  /-- 0x35, R204 -/
  | sentA (px pm : BitVec 20)
  /-- 0x36, R204 -/
  | sentB (np cp : BitVec 20)
  /-- 0x40, R92 -/
  | idleNotice (last : BitVec 10) (lanePos : BitVec 6)
  /-- 0x41, R92 -/
  | clockStop (seq : BitVec 10) (lanePos : BitVec 6)
  /-- 0x50, R92, R94 -/
  | marker (seq : BitVec 10) (lanePos : BitVec 6) (sideband : BitVec 16)
  deriving DecidableEq, Repr

/-! ## Stream items -/

/-- A parcel: header bytes 0 to 15 as one little-endian number, payload, trailer, and the poisoned bit of its parcel end block (R183, R184, R190). -/
structure Parcel where
  hdr : BitVec 128
  payload : List Byte
  crc : BitVec 32
  poisoned : Bool
  deriving DecidableEq, Repr

/-- A cut mark (R96). -/
structure CutMark where
  region : Region
  uncorrected : Bool
  substituted : Bool
  frame : BitVec 24
  subframe : BitVec 4
  deriving DecidableEq, Repr

/-- A gap block (R97). -/
structure Gap where
  region : Region
  reason : BitVec 4
  firstLine : BitVec 16
  lineCount : BitVec 16
  deriving DecidableEq, Repr

/-- What takes a place in a region's or a class's order. -/
inductive Item where
  | parcel (p : Parcel)
  | cut (c : CutMark)
  | gap (g : Gap)
  deriving DecidableEq, Repr

/-- A basting train: the six content bytes (1 to 6) of each of its blocks, in order (R98, R151). -/
abbrev Train := List (BitVec 48)

/-! ## Mailbox requests -/

/-- The hosts of R341. -/
inductive HostId where
  | link | second | service | debug
  deriving DecidableEq, Repr

/-- A mailbox request whose frame has passed its own checks (R344): the host and the source it came from, the gallery it arrived on, and the header fields. -/
structure Req where
  host : HostId
  src : BitVec 16
  gallery : Option GalIx
  tag : BitVec 8
  dryRun : Bool
  stage : Bool
  token : BitVec 32
  seq : BitVec 32
  payload : List Byte
  deriving DecidableEq, Repr

/-- What the qualification of one lane measured: whether its checker synchronised within 50 us, its bit errors, and its eye width and height in steps (R135, R136). -/
structure LaneQual where
  synced : Bool
  errors : Nat
  width : Nat
  height : Nat
  deriving DecidableEq, Repr

/-- The bit errors that the reads of one cell meet: those of the bobbin's words, 0 none, 1 a corrected one, 2 an uncorrectable one (R191), and the store words with a single-bit or a double-bit error (R260). -/
structure ReadErrs where
  cell : Fin 3
  single : List Nat
  double : List Nat
  deriving DecidableEq, Repr

/-- A catch-up copy that has ended: its region, and the store words in which its reads met a single-bit or a double-bit error (R260, R266). -/
structure CatchUp where
  region : Region
  single : List Nat
  double : List Nat
  deriving DecidableEq, Repr

/-- What the correlators hold at the end of an adaptation window: the sums of taps 1 to 16, and the residuals at the positions 13 to 44 (R60, R62, R63). -/
structure TapSums where
  acc : List Int
  residuals : List Int
  deriving DecidableEq, Repr

/-- What starts a placement run of itself: a change of R233, or one of its three forced triggers. -/
inductive RunTrigger where
  | change | forced
  deriving DecidableEq, Repr

/-- An upset of a memory that a check finds: a routing entry with an error its SECDED code cannot correct (R316), the check byte of an entry in one copy of the Cutting Table (R241), or the words of the bobbin that hold the parcel, with an error that its ECC corrects or, where `hard`, does not (R27, R191). -/
inductive Upset where
  | route (entry : Nat)
  | entry (copyB : Bool) (region : Nat) (flip : Byte)
  | bobbin (hard : Bool)
  deriving DecidableEq, Repr

/-- The commands of the block, one constructor per row of spec/opcode_table.json. Every command carries first the time `t` at which it comes, in ns since power-on; `max` of it and the time reached so far is the time the command runs at. -/
inductive Instr where
  /-- R374: Returns firmware level, serial, revision, lifecycle, device and power state, boot mode, active slot, debug level, node ID and IDCODE. -/
  | systemInfo (t : Nat) (q : Req)
  /-- R454: Sends OK and then resets the device with the reach of RESET_N 1 ms later. -/
  | systemReset (t : Nat) (q : Req)
  /-- R374: Returns quick-status offsets 0x08 to 0x2B. -/
  | systemStatus (t : Nat) (q : Req)
  /-- R372: Reads, and optionally clears, the mailbox and lease counters. -/
  | mbxCounters (t : Nat) (q : Req)
  /-- R457: Writes the live settings into one of four MRAM profiles: marks it invalid, writes the settings, then writes the header. -/
  | profileSave (t : Nat) (q : Req)
  /-- R457: Selects the profile that is applied at boot, or none. -/
  | profileSelect (t : Nat) (q : Req)
  /-- R374: Erases a profile; erasing the selected profile selects none. -/
  | profileErase (t : Nat) (q : Req)
  /-- R374: Returns the validity, the selection and the saving level of each profile. -/
  | profileList (t : Nat) (q : Req)
  /-- R353: Takes a set of lease domains all at once or none of them, and issues the holder's token. -/
  | leaseAcquire (t : Nat) (q : Req)
  /-- R356: Releases the named domains of the caller's token. -/
  | leaseRelease (t : Nat) (q : Req)
  /-- R355: Renews the named leases of the caller. -/
  | leaseRenew (t : Nat) (q : Req)
  /-- R357: Checks all staged changes of the token again and applies all of them in order, or none. -/
  | leaseCommit (t : Nat) (q : Req)
  /-- R357: Drops the staged changes of the caller's token. -/
  | leaseDiscard (t : Nat) (q : Req)
  /-- R375: Returns the holder and the time left for each domain. -/
  | leaseStatus (t : Nat) (q : Req)
  /-- R376: Returns the gallery state byte, the active sets, the lane status words and the side-band values. -/
  | galleryStatus (t : Nat) (q : Req)
  /-- R82: Sets a gallery on or off, effective at its next reset. -/
  | galleryProvision (t : Nat) (q : Req)
  /-- R389: Resets one gallery and retrains it; refuses the caller's own path unless force is set. -/
  | galleryReset (t : Nat) (q : Req)
  /-- R72: Sets the idle mask of a gallery's transmit direction, putting lanes into electrical idle or waking them. -/
  | galleryIdle (t : Nat) (q : Req)
  /-- R200: Sets the credit split and lending of a receive direction, effective at its next ACTIVATE. -/
  | galleryCreditSet (t : Nat) (q : Req)
  /-- R219: Returns the splits, the per-class credit state, the round trip and the capacities of a gallery. -/
  | galleryCreditGet (t : Nat) (q : Req)
  /-- R372: Reads, and optionally clears, the gallery counters. -/
  | galleryCounters (t : Nat) (q : Req)
  /-- R65: Sets the equalisation mode, VGA hold, fixed values and polarity of a receive lane. -/
  | laneEqSet (t : Nat) (q : Req)
  /-- R84: Returns the equalisation settings and live values of a lane. -/
  | laneEqGet (t : Nat) (q : Req)
  /-- R58: Sets the fixed transmit coefficients, the swing and the start presets. -/
  | laneTxSet (t : Nat) (q : Req)
  /-- R372: Reads, and optionally clears, the lane counters. -/
  | laneCounters (t : Nat) (q : Req)
  /-- R157: Sets the tread ceilings, FEC at T3, the width floor, automatic step-down and re-climb. -/
  | galleryTrainSet (t : Nat) (q : Req)
  /-- R158: Returns the training status words, the far CAP and LANDING, and the landing number and flight. -/
  | galleryTrainStatus (t : Nat) (q : Req)
  /-- R147: Orders a FULL training from DETECT, or a STEP re-step of one direction. -/
  | galleryRetrain (t : Nat) (q : Req)
  /-- R246: Sets the placement mode to OFF, AUTO or MANUAL. -/
  | cutterModeSet (t : Nat) (q : Req)
  /-- R233: Starts a placement run. -/
  | cutterRun (t : Nat) (q : Req)
  /-- R232: Sets drop action, input selection and pins of a region, effective from the next run. -/
  | cutterRegionSet (t : Nat) (q : Req)
  /-- R241: Returns the in-force and pending entries of a range of regions, with the check result of each copy. -/
  | cutterEntryGet (t : Nat) (q : Req)
  /-- R248: Returns a region's announcement records and claimant groups. -/
  | cutterInputsGet (t : Nat) (q : Req)
  /-- R248: Returns the mode, whether a run is in progress, free capacities and the fenced copies. -/
  | cutterStatus (t : Nat) (q : Req)
  /-- R372: Reads, and optionally clears, the Cutter counters. -/
  | cutterCounters (t : Nat) (q : Req)
  /-- R263: Sets a region's application mode, in place or double-buffered, effective at the next run. -/
  | correctionRegionSet (t : Nat) (q : Req)
  /-- R265: Returns a region's correction state word and its safe-image extent and state. -/
  | correctionRegionGet (t : Nat) (q : Req)
  /-- R266: Waits for earlier writes to reach the store, then makes the region's records count at its next cut mark. -/
  | correctionCommit (t : Nat) (q : Req)
  /-- R272: Allocates a best-fit safe-image extent for a region. -/
  | correctionSafeAlloc (t : Nat) (q : Req)
  /-- R272: Waits for earlier writes, then marks the safe image VALID. -/
  | correctionSafeCommit (t : Nat) (q : Req)
  /-- R272: Frees a region's safe-image extent. -/
  | correctionSafeFree (t : Nat) (q : Req)
  /-- R275: Returns the pipe states and rates, the store state and the access rates. -/
  | correctionStatus (t : Nat) (q : Req)
  /-- R372: Reads, and optionally clears, the correction counters. -/
  | correctionCounters (t : Nat) (q : Req)
  /-- R279: Moves regions into a region group, within an unlocked session. -/
  | safetyGroupSet (t : Nat) (q : Req)
  /-- R280: Sets a group's monitor classes, parameters and substitute, or the internal-fault class. -/
  | safetyMonitorSet (t : Nat) (q : Req)
  /-- R298: Checks the password and opens an unlocked session bound to the caller's token. -/
  | safetyUnlock (t : Nat) (q : Req)
  /-- R298: Ends the caller's unlocked session. -/
  | safetyLock (t : Nat) (q : Req)
  /-- R297: Sets or changes the safety password. -/
  | safetyPasswordSet (t : Nat) (q : Req)
  /-- R290: Orders a region, group or the device SAFE or LOCKOUT, or withdraws host-order reasons with LEAVE. -/
  | safetyOrder (t : Nat) (q : Req)
  /-- R295: Checks the password and arms a lock-out release that waits for LOCKOUT_CLR_N. -/
  | safetyRelease (t : Nat) (q : Req)
  /-- R293: Returns the safety bytes, the locked-out groups and the reasons of regions in safe state. -/
  | safetyStatus (t : Nat) (q : Req)
  /-- R301: Returns safety change log entries by seq. -/
  | safetyLogRead (t : Nat) (q : Req)
  /-- R302: Marks log entries up to a seq as exported and logs the acknowledgement. -/
  | safetyLogAck (t : Nat) (q : Req)
  /-- R372: Reads, and optionally clears, the safety counters. -/
  | safetyCounters (t : Nat) (q : Req)
  /-- R307: Sets the device's own node ID. -/
  | bridgeNodeSet (t : Nat) (q : Req)
  /-- R316: Writes a routing table entry, applied to parcels looked up after the OK. -/
  | routeSet (t : Nat) (q : Req)
  /-- R381: Returns routing table entries. -/
  | routeGet (t : Nat) (q : Req)
  /-- R320: Sets an address window, checked against the map and attribute rules. -/
  | bridgeWindowSet (t : Nat) (q : Req)
  /-- R381: Returns the 16 windows. -/
  | bridgeWindowGet (t : Nat) (q : Req)
  /-- R335: Registers or changes an event sink. -/
  | eventSinkSet (t : Nat) (q : Req)
  /-- R351: Sets the minimum severity of the caller's event ring. -/
  | eventRingSet (t : Nat) (q : Req)
  /-- R351: Takes up to 3 entries from the caller's event ring. -/
  | eventRead (t : Nat) (q : Req)
  /-- R325: Issues an in-band READ or WRITE to another node and waits for its completion. -/
  | bridgeRemote (t : Nat) (q : Req)
  /-- R328: Waits until the posted writes of a source have completed, then returns the failure count. -/
  | bridgeSync (t : Nat) (q : Req)
  /-- R327: Returns the late-error log. -/
  | bridgeLateErrors (t : Nat) (q : Req)
  /-- R372: Reads, and optionally clears, the bridge counters. -/
  | bridgeCounters (t : Nat) (q : Req)
  /-- R425: Sets PEC, attention mode, host address and the digital filter. -/
  | twConfig (t : Nat) (q : Req)
  /-- R416: Sets port L speed and stretch limit. -/
  | twlConfig (t : Nat) (q : Req)
  /-- R420: Runs port L bus recovery and lifts the fence if the bus is free. -/
  | twlRecover (t : Nat) (q : Req)
  /-- R372: Reads, and optionally clears, the two-wire counters. -/
  | twCounters (t : Nat) (q : Req)
  /-- R447: Enters P2 or P3: drains the device, passes the point of no return, and shuts the data path down. -/
  | powerStateSet (t : Nat) (q : Req)
  /-- R383: Returns the power state, the brown-out flag and the time spent in the state. -/
  | powerStatus (t : Nat) (q : Req)
  /-- R70: Sets the primary and backup reference of a side. -/
  | clockRefSelect (t : Nat) (q : Req)
  /-- R442: Enables a REFOUT output and sets its spread depth and rate. -/
  | clockRefoutSet (t : Nat) (q : Req)
  /-- R443: Returns the clock-enable word and the frequency meter readings. -/
  | clockStatus (t : Nat) (q : Req)
  /-- R372: Reads, and optionally clears, the clock and power counters. -/
  | powerCounters (t : Nat) (q : Req)
  /-- R390: Sets a loopback on a LOST gallery, taking an ACTIVE gallery out of service when take is set. -/
  | diagLoopSet (t : Nat) (q : Req)
  /-- R486: Starts or stops PRBS generators and checkers on a LOST gallery. -/
  | diagPrbsSet (t : Nat) (q : Req)
  /-- R487: Returns the PRBS checker state and counts. -/
  | diagPrbsGet (t : Nat) (q : Req)
  /-- R489: Returns the last completed eye scan of a lane. -/
  | diagEyeScan (t : Nat) (q : Req)
  /-- R372: Clears every counter except the violation counters. -/
  | diagCountersClear (t : Nat) (q : Req)
  /-- R490: Returns the temperature and supply readings. -/
  | sensorRead (t : Nat) (q : Req)
  /-- R494: Returns event log entries by seq. -/
  | logRead (t : Nat) (q : Req)
  /-- R494: Starts, stops or reads the log stream through ring 12. -/
  | logStream (t : Nat) (q : Req)
  /-- R476: Sets the inactive slot to WRITING for a new firmware image. -/
  | updateBegin (t : Nat) (q : Req)
  /-- R476: Writes an image chunk into the target slot through ring 15. -/
  | updateChunk (t : Nat) (q : Req)
  /-- R476: Hashes the received image and checks its authenticity and anti-rollback. -/
  | updateVerify (t : Nat) (q : Req)
  /-- R476: Reads the slot back, compares its digest and sets it TRIAL with a new generation. -/
  | updateCommit (t : Nat) (q : Req)
  /-- R476: Restarts the Mezzanine alone so that the boot ROM starts the newest valid slot. -/
  | updateActivate (t : Nat) (q : Req)
  /-- R386: Returns the update state, the slot levels and the anti-rollback count. -/
  | updateStatus (t : Nat) (q : Req)
  /-- R479: Draws a new 32-byte nonce and returns it with the serial number. -/
  | debugNonce (t : Nat) (q : Req)
  /-- R479: Checks a signed token against the held nonce and opens the debug level. -/
  | debugOpen (t : Nat) (q : Req)
  /-- R478: Returns the open level to the one that the lifecycle state opens. -/
  | debugClose (t : Nat) (q : Req)
  /-- R468: Blows the fuses of a lifecycle transition to SECURED or RETURNED. -/
  | securityLifecycleSet (t : Nat) (q : Req)
  /-- R482: Returns the five violation counters. -/
  | securityViolations (t : Nat) (q : Req)
  /-- R496: Arms or disarms the freeze trigger on an event code. -/
  | freezeArm (t : Nat) (q : Req)
  /-- R496: Sends OK and then starts a freeze within 10 us. -/
  | freezeNow (t : Nat) (q : Req)
  /-- R503: Returns a block of the public snapshot, captured live. -/
  | snapshotRead (t : Nat) (q : Req)
  /-- R297: A password check ends 200 ms after receipt of its command and the waiting command answers. -/
  | passwordCheckDone (t : Nat)
  /-- R371: A waiting command reaches its limit and answers TIMEOUT with its stated effect. -/
  | waitingCommandTimeout (t : Nat)
  /-- R266: Every write ahead of a commit has reached the store, and the commit waits for its cut mark. -/
  | commitWritesDrained (t : Nat) (region : Region) (safe : Bool)
  /-- R328: The posted writes awaited by a sync have completed or failed, and the sync answers. -/
  | bridgeSyncDone (t : Nat)
  /-- R343: An NP write into the command aperture stores frame bytes and binds the aperture to the writer's src. -/
  | mailboxApertureWrite (t : Nat) (g : GalIx) (src : BitVec 16) (off : Nat) (data : List Byte)
  /-- R343: A write of 1 to doorbell submits the frame to the host's command ring, or sets db_refused when the ring is full. -/
  | mailboxDoorbell (t : Nat) (g : GalIx) (src : BitVec 16)
  /-- R343: A write of 1 to rsp_ack drops the reading src's oldest response. -/
  | mailboxRspAck (t : Nat) (g : GalIx) (src : BitVec 16)
  /-- R342: A write of 1 to db_refused clears the bit. -/
  | mailboxDbRefusedClear (t : Nat) (g : GalIx)
  /-- R9: A write to a register field with no behaviour of its own sets or ignores the value by its access code. -/
  | registerWrite (t : Nat) (g : GalIx) (src : BitVec 16) (off : Nat) (b : Byte)
  /-- R343: A binding with no doorbell within 1 ms lapses and the aperture content is discarded. -/
  | apertureBindingLapse (t : Nat)
  /-- R343: A response not acknowledged within 1 s is dropped and counted. -/
  | responseExpiry (t : Nat)
  /-- R349: The dispatcher takes the next command, in doorbell order and priority, when its response ring has room. -/
  | dispatchCommand (t : Nat)
  /-- R355: A lease expires 10 s after its last renewal. -/
  | leaseExpiry (t : Nat)
  /-- R402: Appends a fragment to the port M assembly buffer, or rejects it. -/
  | mbxPut (t : Nat) (n : Byte) (body : List Byte) (pec : Option Byte)
  /-- R405: Returns a fragment of the oldest response on ring 3. -/
  | mbxGet (t : Nat) (n frag : Byte)
  /-- R404: Returns the assembly, ring and response status of port M. -/
  | mbxStatus (t : Nat)
  /-- R407: Submits the assembled frame to ring 2 as a doorbell. -/
  | mbxRing (t : Nat) (pec : Option Byte)
  /-- R406: Discards the open assembly and any assembled frame. -/
  | mbxAbortDiscard (t : Nat) (tag : Byte) (pec : Option Byte)
  /-- R406: Releases the oldest response when its tag matches. -/
  | mbxAbortRelease (t : Nat) (tag : Byte) (pec : Option Byte)
  /-- R406: Discards the assembly and releases the oldest response by tag. -/
  | mbxAbortBoth (t : Nat) (tag : Byte) (pec : Option Byte)
  /-- R397: A status-class write sets the pointer and writes further bytes at it. -/
  | statusPointerWrite (t : Nat) (bytes : List Byte)
  /-- R400: A status-class write of snap_block or snap_half selects the snapshot half block. -/
  | snapSelectWrite (t : Nat) (reg : Fin 3) (bytes : List Byte)
  /-- R399: A status-class read latches the window and returns bytes, advancing the pointer and the snapshot selection. -/
  | statusClassRead (t : Nat) (n : Nat)
  /-- R408: SCL held low by another party for 35 ms makes port M release SDA and discard the transaction. -/
  | portmSclTimeout (t : Nat) (inPut : Bool)
  /-- R414: A START within a byte or a STOP before a fragment ends discards the transaction in progress. -/
  | portmBusError (t : Nat) (inPut : Bool)
  /-- R409: A mailbox-class address match in P2 holds SCL and wakes the device to P0. -/
  | portmP2WakeMatch (t : Nat)
  /-- R410: An address match in P3 is left unacknowledged and starts the exit from P3. -/
  | portmP3WakeMatch (t : Nat)
  /-- R411: Every 100 ms the rsp and evt causes are latched again while their conditions hold. -/
  | attentionRelatch (t : Nat)
  /-- R412: After 50 us of bus idle, the device sends its status-class address and the cause byte. -/
  | attentionSdaLowSend (t : Nat) (idle : Nat) (won : Bool)
  /-- R413: The device sends an SMBus Host Notify with the cause byte and its state. -/
  | attentionHostNotifySend (t : Nat) (idle : Nat) (won acked : Bool)
  /-- R413: A Host Notify that was not acknowledged is sent again every 10 ms. -/
  | hostNotifyRetry (t : Nat) (won acked : Bool)
  /-- R329: Port L runs a bridge access on its bus as a START, address, pointer, data and STOP sequence. -/
  | portlTransaction (t : Nat) (acked : Nat) (data : List Byte)
  /-- R417: A target stretch beyond the limit releases the bus and answers TARGET_TIMEOUT. -/
  | portlStretchTimeout (t : Nat) (held : Nat) (hold : Nat)
  /-- R417: Port L loses arbitration and retries, giving up after 8 losses or 10 ms. -/
  | portlArbitrationLost (t : Nat)
  /-- R419: SCL high and SDA low for 1 ms with no transaction of its own starts recovery. -/
  | portlSdaStuckDetect (t : Nat) (hold : Nat)
  /-- R331: A READ with lock set starts or continues a locked sequence that keeps the port L bus. -/
  | lockedRead (t : Nat) (acked : Nat) (data : List Byte)
  /-- R331: An NP WRITE with lock set ends the locked sequence with STOP, or answers LOCK_LOST. -/
  | unlockingWrite (t : Nat) (acked : Nat)
  /-- R332: A locked sequence not ended within 1 ms is released and bridge.lock_lost is raised. -/
  | lockedSequenceTimeout (t : Nat)
  /-- R332: The lost state of a timed-out sequence ends after 100 ms. -/
  | lockLostStateExpiry (t : Nat)
  /-- R191: A parcel is received whole, checked, and forwarded by cut-through or store-and-forward. -/
  | parcelReceive (t : Nat) (g : GalIx) (p : Parcel) (begun : Bool) (upset : Option Upset)
  /-- R322: A READ delivered here is decoded against the windows and answered by completions. -/
  | bridgeRead (t : Nat) (port : Fin 10) (p : Parcel) (ahead : Nat) (single double : List Nat)
  /-- R326: A posted WRITE delivered here is accepted in a posted window and tracked until it completes. -/
  | bridgeWritePosted (t : Nat) (port : Fin 10) (p : Parcel)
  /-- R321: A non-posted WRITE delivered here is performed and answered by one completion. -/
  | bridgeWriteNonposted (t : Nat) (port : Fin 10) (p : Parcel)
  /-- R325: A completion for a bridge.remote request is delivered to the waiting command. -/
  | completionReceive (t : Nat) (port : Fin 10) (p : Parcel)
  /-- R337: An EVENT delivered here is relayed to the device's own sinks. -/
  | eventRelay (t : Nat) (port : Fin 10) (p : Parcel)
  /-- R225: Announcement records arriving on a North gallery update the region inputs of the Cutter. -/
  | announceReceive (t : Nat) (g : GalIx) (p : Parcel)
  /-- R229: Claim records arriving on a South gallery update the claimant groups. -/
  | claimReceive (t : Nat) (g : GalIx) (p : Parcel)
  /-- R285: A driver-fault report trips or clears the driver-fault monitor and is routed on. -/
  | driverFaultReceive (t : Nat) (g : GalIx) (p : Parcel)
  /-- R326: A posted write reaches its completion point in the store or on port L. -/
  | postedWriteComplete (t : Nat)
  /-- R333: A prefetch buffer is discarded after 10 us. -/
  | prefetchExpiry (t : Nat)
  /-- R193: An event that waited for earlier PX or PM parcels leaves once they have left. -/
  | eventRelease (t : Nat) (port : Fin 10)
  /-- R196: A granted cell crosses the Hall to every named output with room in its egress queue. -/
  | hallCellTransfer (t : Nat) (input : Fin 10) (cls : Cls) (met : ReadErrs)
  /-- R199: Between parcels, the transmit island chooses and sends basting, message or PX, within credits. -/
  | parcelTransmit (t : Nat) (g : GalIx) (idle : Nat)
  /-- R199: A 100 us window of message priority budget ends and a new one begins. -/
  | messageBudgetWindow (t : Nat) (g : GalIx)
  /-- R242: A cut mark of a region arrives, and pending entries, input selection and commits act at it. -/
  | cutMarkReceive (t : Nat) (g : GalIx) (c : CutMark)
  /-- R213: A received gap block is forwarded in its place among its region's PX. -/
  | gapReceive (t : Nat) (g : GalIx) (b : Gap)
  /-- R153: A basting train is stored for each gallery that receives copies, and released when valid. -/
  | bastingTrainReceive (t : Nat) (g : GalIx) (blocks : Train) (whole : Bool)
  /-- R156: A released basting train is sent whole with the device's landing record. -/
  | bastingTrainSend (t : Nat) (g : GalIx)
  /-- R204: A CREDIT_A block advances the PX and PM limits and carries demand bits. -/
  | creditAReceive (t : Nat) (g : GalIx) (px pm : BitVec 12) (demand : BitVec 4)
  /-- R204: A CREDIT_B block advances the NP and CP limits and carries demand bits. -/
  | creditBReceive (t : Nat) (g : GalIx) (np cp : BitVec 12) (demand : BitVec 4)
  /-- R204: An INFO block gives the far end's quota_px and reach_px. -/
  | infoReceive (t : Nat) (g : GalIx) (quotaPx reachPx : BitVec 12)
  /-- R211: A PROBE is answered with ECHO. -/
  | probeReceive (t : Nat) (g : GalIx) (id : BitVec 8)
  /-- R211: An ECHO measures the round trip and sets the capacity reported to the Cutter. -/
  | echoReceive (t : Nat) (g : GalIx) (id : BitVec 8)
  /-- R206: SENT_A values recover PX and PM credits of parcels that never reached the bobbin. -/
  | sentAReceive (t : Nat) (g : GalIx) (px pm : BitVec 20)
  /-- R206: SENT_B values recover NP and CP credits. -/
  | sentBReceive (t : Nat) (g : GalIx) (np cp : BitVec 20)
  /-- R205: 1 us after a limit advanced without a block being sent, the credit block is sent. -/
  | creditPendingTimeout (t : Nat) (g : GalIx)
  /-- R205: Both credit blocks are sent every 10 us. -/
  | creditRefresh (t : Nat) (g : GalIx)
  /-- R206: The transmitting end sends SENT_A and SENT_B every 100 us. -/
  | sentPeriod (t : Nat) (g : GalIx)
  /-- R211: The transmitting end sends PROBE every 100 ms. -/
  | probePeriod (t : Nat) (g : GalIx)
  /-- R203: A message class turns idle after 20 us without demand or stored bytes. -/
  | classIdleTimeout (t : Nat) (g : GalIx) (c : Cls)
  /-- R113: A received codeword is locked, decoded, checked for position and sequence, and its slots enter the walk. -/
  | receiveCodeword (t : Nat) (g : GalIx) (lane : LaneIx) (bits : BitVec 5440) (reads : List Nat)
  /-- R110: At non-FEC treads a received block is checked by the block-lock process and enters the walk. -/
  | receiveBlock (t : Nat) (g : GalIx) (lane : LaneIx) (b : Block) (reads : Nat)
  /-- R111: A deskew marker drives marker lock and the walk's period structure. -/
  | deskewMarkerReceive (t : Nat) (g : GalIx) (lane : LaneIx) (seq : BitVec 10) (lanePos : BitVec 6) (sideband : BitVec 16)
  /-- R116: A lane more than 128 slots behind the earliest lane fails deskew. -/
  | deskewTimeout (t : Nat) (g : GalIx) (lane : LaneIx)
  /-- R51: The receive clock lane declares lock after its DLL locks and its frequency check passes. -/
  | clockLaneLock (t : Nat) (g : GalIx) (ppm : Int)
  /-- R52: No clock edge within 64 periods, or DLL loss of lock, loses the clock lane. -/
  | clockLaneLost (t : Nat) (g : GalIx)
  /-- R73: An idle notice lets the receiver take the lane out of striping as planned. -/
  | idleNoticeReceive (t : Nat) (g : GalIx) (lane : LaneIx) (last : BitVec 10) (lanePos : BitVec 6)
  /-- R433: A clock-stop notice parks the receive island on XIN before the clock stops. -/
  | clockStopNoticeReceive (t : Nat) (g : GalIx) (lane : LaneIx) (seq : BitVec 10) (lanePos : BitVec 6)
  /-- R75: A fully idle transmit side with a parcel or hop-control block to send wakes every lane of the mask. -/
  | autoWake (t : Nat) (g : GalIx)
  /-- R75: After 10 us of empty queues the woken lanes return to idle. -/
  | idleReturn (t : Nat) (g : GalIx)
  /-- R95: A tack block is checked, and 32 valid blocks after settling confirm the waking lane. -/
  | tackBlockReceive (t : Nat) (g : GalIx) (lane : LaneIx) (b : Block)
  /-- R77: A burst ending without confirmation raises lane.wake_failed and darns the lane. -/
  | tackBurstEnd (t : Nat) (g : GalIx) (lane : LaneIx) (drift : Int)
  /-- R78: At the end of the 1.0 us preamble the tack bursts start, or the clock lane is declared lost. -/
  | clockPreambleEnd (t : Nat) (g : GalIx) (rx : Bool) (relocked : Bool)
  /-- R123: Every 100 us each transmit pair probes for a far termination and starts sending at T0 when found. -/
  | detectProbe (t : Nat) (g : GalIx) (clk : Bool) (found : BitVec 8)
  /-- R123: Clock-lane activity above 80 mVppd for 1 us ends DETECT once the transmitter has started. -/
  | clockActivitySeen (t : Nat) (g : GalIx)
  /-- R141: Loss of the far termination fails the attempt or stops the transmitter in DETECT. -/
  | terminationLost (t : Nat) (g : GalIx)
  /-- R121: The maximum of a training state expires. -/
  | trainTimerExpiry (t : Nat) (g : GalIx) (rx : Bool)
  /-- R141: The backoff ends and both ends return to DETECT. -/
  | backoffExpiry (t : Nat) (g : GalIx)
  /-- R128: A CAP block is counted toward agreement and heard. -/
  | capReceive (t : Nat) (g : GalIx) (lane : LaneIx) (c : Cap)
  /-- R130: A LANDING block sets the gallery's landing number and flight. -/
  | landingReceive (t : Nat) (g : GalIx) (lane : LaneIx) (l : Landing)
  /-- R132: The transmitter applies a requested preset or step once and echoes it. -/
  | eqReqReceive (t : Nat) (g : GalIx) (pos : BitVec 3) (count : BitVec 5) (request : BitVec 8)
  /-- R133: The receiver learns the applied coefficients and continues its equalisation search. -/
  | eqAckReceive (t : Nat) (g : GalIx) (lane : LaneIx) (pos : BitVec 3) (count : BitVec 5) (cm2 cm1 cp1 cp2 : BitVec 8) (areas : List Nat)
  /-- R135: QUAL starts the countdown to the PRBS qualification. -/
  | qualReceive (t : Nat) (g : GalIx) (lane : LaneIx) (tread : BitVec 3) (fec : BitVec 1) (countdown : BitVec 16)
  /-- R136: After 1 ms of PRBS each lane passes or fails qualification by errors and eye margin. -/
  | qualifyEnd (t : Nat) (g : GalIx) (results : List LaneQual)
  /-- R138: The transmitting end decides from RESULT to settle, step up, fall back or step down. -/
  | resultReceive (t : Nat) (g : GalIx) (r : ResultBlk)
  /-- R139: STEP announces a change of tread at a boundary. -/
  | stepReceive (t : Nat) (g : GalIx) (b : StepBlk)
  /-- R139: After the boundary period the transmitter retunes and the receiver enters CLOCK at the new tread. -/
  | stepBoundary (t : Nat) (g : GalIx) (rx : Bool)
  /-- R140: When both directions are SETTLED each transmitting end sends ACTIVATE. -/
  | activateSend (t : Nat) (g : GalIx)
  /-- R140: Striping starts at first_seq with the active set, rings empty and credits reset. -/
  | activateReceive (t : Nat) (g : GalIx) (tread : BitVec 3) (fec : BitVec 1) (active : BitVec 8) (firstSeq : BitVec 10)
  /-- R144: A RETRAIN request is answered with STEP, or held until both directions are ACTIVE. -/
  | retrainReceive (t : Nat) (g : GalIx) (r : RetrainBlk)
  /-- R145: GUARD ends after 8 us without a loss report, and the rings are discarded. -/
  | guardEnd (t : Nat) (g : GalIx) (rx : Bool)
  /-- R143: A 100 ms error window closes above threshold and the receiver requests a step down. -/
  | stepDownWindow (t : Nat) (g : GalIx) (bits : Nat)
  /-- R146: 10 minutes without a trigger request a re-step up by one tread. -/
  | reclimbTimer (t : Nat) (g : GalIx)
  /-- R168: A new loss report drops the failed lanes and starts a replay from the rings. -/
  | lossReceive (t : Nat) (g : GalIx) (l : LossBlk)
  /-- R166: A loss report is repeated every 64 slots until its REPLAY arrives. -/
  | lossReportRepeat (t : Nat) (g : GalIx)
  /-- R166: 4 us without REPLAY makes the receiver send a new report. -/
  | lossReportRetry (t : Nat) (g : GalIx)
  /-- R169: REPLAY ends the discard, sets the active set and resumes the walk at the restart period. -/
  | replayReceive (t : Nat) (g : GalIx) (r : ReplayBlk)
  /-- R174: A background retraining attempt of a darned lane starts after its waiting time. -/
  | rejoinAttemptStart (t : Nat) (g : GalIx)
  /-- R177: A limit of a rejoin attempt expires and the attempt counts as a failed rejoin. -/
  | rejoinAttemptLimit (t : Nat) (g : GalIx)
  /-- R174: The transmitting end answers with QUAL on the lane alone. -/
  | laneCheckQualify (t : Nat) (g : GalIx) (pos : BitVec 3) (checkId : BitVec 16)
  /-- R176: The transmitting end answers with REJOIN once the side-band shows the lane in lock. -/
  | laneCheckReady (t : Nat) (g : GalIx) (pos : BitVec 3) (checkId : BitVec 16)
  /-- R177: Both ends set the lane RETIRED and the transmitter idles it. -/
  | laneCheckRetire (t : Nat) (g : GalIx) (pos : BitVec 3) (checkId : BitVec 16)
  /-- R176: The transmitting end stops waiting for the side-band after 0.1 ms. -/
  | sidebandWaitExpiry (t : Nat) (g : GalIx)
  /-- R176: The receiver adds the lane to the active set at rejoin_seq and raises lane.rejoined. -/
  | rejoinReceive (t : Nat) (g : GalIx) (r : RejoinBlk)
  /-- R233: A trigger starts a placement run, or queues one more run after the current one. -/
  | placementRunStart (t : Nat) (trig : RunTrigger)
  /-- R242: A finished run writes its changed entries into the pending plane of both copies. -/
  | placementRunDone (t : Nat)
  /-- R242: A pending entry without a cut mark within 250 ms takes effect. -/
  | pendingEntryTimeout (t : Nat) (region : Region)
  /-- R245: The selected copy's cut mark overdue by 1.5 sub-frame periods switches the input. -/
  | cutMarkOverdue (t : Nat) (region : Region)
  /-- R224: An announcement or claim record not repeated within 3 s expires. -/
  | recordExpiry (t : Nat) (region : Region) (g : GalIx) (claimant : Option (BitVec 64))
  /-- R226: The device originates announcement parcels on South galleries once per second. -/
  | announceOriginate (t : Nat) (g : GalIx)
  /-- R228: The device sends claims on North galleries once per second. -/
  | claimOriginate (t : Nat)
  /-- R255: A correction pipe fetches records and corrects and re-forms a PX parcel of a region corrected here. -/
  | pipeProcessParcel (t : Nat) (single double : List Nat)
  /-- R270: A failed residue or parity check fences the pipe and moves its regions to substitutes. -/
  | pipeCheckFail (t : Nat) (pipe : Fin 8) (inside : Bool)
  /-- R260: The scrubber passes the whole store every 8 s, correcting single-bit errors. -/
  | storeScrub (t : Nat) (pos : BitVec 26) (single double : List Nat)
  /-- R264: Clearing of an extent ends, and the region leaves CLEARING. -/
  | extentClearingDone (t : Nat) (region : Region)
  /-- R266: The catch-up copy ends and writes to the inactive bank are accepted again. -/
  | catchUpCopyDone (t : Nat) (copied : CatchUp)
  /-- R271: A DRAM fault fences the controller, loses the store and makes regions with site here UNSERVED. -/
  | storeLost (t : Nat)
  /-- R288: The safe-image reader starts a substitute frame at a cut mark or one period after the last. -/
  | safeFrameStart (t : Nat) (region : Region) (g : GalIx)
  /-- R281: The freshness timer reaches its timeout and the monitor trips. -/
  | freshnessTimeout (t : Nat) (region : Region) (g : GalIx)
  /-- R283: The luminance monitor clears once the step count has stayed at or below its setting for 1 s. -/
  | luminanceClear (t : Nat) (region : Region) (g : GalIx)
  /-- R285: The driver-fault monitor clears 1 s after the last report. -/
  | driverFaultExpiry (t : Nat) (region : Region) (g : GalIx)
  /-- R490: Each temperature sensor measures every 1 ms, or 10 ms in P2. -/
  | sensorSample (t : Nat) (n : Fin 9) (v : Int)
  /-- R286: Every sensor below 120 C for 1 s clears the thermal trip. -/
  | thermalClear (t : Nat)
  /-- R491: The supply monitors measure every 1 ms. -/
  | supplySample (t : Nat) (n : Fin 12) (mv : Nat)
  /-- R289: Safe state ends 500 ms after the last reason clears. -/
  | safeStateEnd (t : Nat) (region : Region)
  /-- R35: SAFE entered for a REFCLK loss ends 500 ms after every affected gallery has retrained. -/
  | deviceSafeEnd (t : Nat)
  /-- R294: The safety controller writes the lock-out record to MRAM, deferred during a brown-out warning. -/
  | lockoutRecordWrite (t : Nat)
  /-- R296: 30 s without a valid press fail the armed release. -/
  | releaseArmExpiry (t : Nat)
  /-- R295: A falling edge on LOCKOUT_CLR_N with a release armed starts the 1 s hold. -/
  | lockoutClrNFall (t : Nat)
  /-- R296: LOCKOUT_CLR_N rising before 1 s fails the release. -/
  | lockoutClrNRise (t : Nat)
  /-- R295: 1 s after the edge, with no condition present, the records are cleared and the lock-out release reset runs. -/
  | releaseCheck (t : Nat)
  /-- R298: An unlocked session ends after 60 s without a safety command. -/
  | sessionTimeout (t : Nat)
  /-- R435: Loss of a running REFCLK idles the side's transmitters, parks receive islands, holds galleries in RESET and drives SAFE_N low. -/
  | refclkLost (t : Nat) (ref : Fin 2)
  /-- R434: 10 ms of good windows restore a reference and raise clock.ref_restored. -/
  | refclkRestored (t : Nat) (ref : Fin 3)
  /-- R436: The firmware selects the healthy other reference of a side within 1 ms of a loss. -/
  | referenceSwitch (t : Nat) (ref : Fin 3)
  /-- R437: Loss of XIN moves islands 16 to 20 to the ring oscillator and enters SAFE until reset. -/
  | xinLost (t : Nat)
  /-- R431: A clock multiplexer completes a glitch-free switch. -/
  | clockSwitchComplete (t : Nat) (island : Fin 22)
  /-- R432: 1,024 incoming cycles without completion force the switch with the island held in reset. -/
  | forcedSwitch (t : Nat) (island : Fin 22)
  /-- R430: A PLL locks and the islands it feeds move from park to run. -/
  | pllLock (t : Nat) (pll : Fin 4)
  /-- R430: A PLL reporting loss of lock moves its islands to their park clocks. -/
  | pllLockLoss (t : Nat) (pll : Fin 4)
  /-- R440: A unit acknowledges quiesce and its gate closes after the pending access. -/
  | gateQuiesceAck (t : Nat) (unit : Fin 24)
  /-- R440: 256 cycles without acknowledgement close the gate with a bus error. -/
  | forcedGate (t : Nat) (unit : Fin 24)
  /-- R428: The OSC_WAIT delay ends and XIN is taken as stable. -/
  | oscWaitEnd (t : Nat)
  /-- R442: A REFOUT synthesiser locks and the output starts with a whole cycle. -/
  | refoutLock (t : Nat) (out : Fin 2)
  /-- R443: A frequency meter completes its 1 s gate. -/
  | meterGate (t : Nat) (m : Fin 25) (v : BitVec 32)
  /-- R521: Every 1 s the device calibrates terminations and drivers against ZCAL. -/
  | zcalCalibration (t : Nat) (inRange : Bool)
  /-- R453: Power-on reset releases 100 us after every rail is up and the device enters BOOT. -/
  | powerOnReset (t : Nat)
  /-- R453: A rail crossing its reset threshold puts the device into power-on reset. -/
  | railBelowThreshold (t : Nat) (rail : Fin 5)
  /-- R453: VDRAM below its threshold loses the store and fences the DRAM controller. -/
  | vdramLoss (t : Nat)
  /-- R454: RESET_N low for at least 10 us resets the device, keeping the store in self-refresh. -/
  | resetNLow (t : Nat) (hold : Nat)
  /-- R450: A falling edge on WAKE_N wakes the device from P2 or P3. -/
  | wakeNFall (t : Nat) (low : Nat)
  /-- R450: 100 ms after P2 exit the Cutter may run even if not every gallery is ACTIVE again. -/
  | cutterHoldExpiry (t : Nat)
  /-- R447: The drain ends, and the entry passes the point of no return or fails with NOT_IN_STATE. -/
  | p2DrainEnd (t : Nat)
  /-- R460: VDD below 0.70 V starts a brown-out warning that defers MRAM writes. -/
  | brownoutWarning (t : Nat)
  /-- R462: VDD at or above 0.71 V for 10 us ends the warning and the deferred writes run. -/
  | brownoutEnd (t : Nat)
  /-- R462: A warning lasting 10 ms is counted as sustained. -/
  | brownoutSustained (t : Nat)
  /-- R39: No service for 250 ms resets the Mezzanine; the table in force stays and the pending plane is discarded. -/
  | mezzanineWatchdog (t : Nat)
  /-- R360: Restarted firmware re-adopts the running state within 40 ms and serves the rings again. -/
  | firmwareReadopt (t : Nat)
  /-- R456: The boot sequencer reads OTP and MRAM, applies lock-outs and enables the data path. -/
  | bootSequencerRun (t : Nat)
  /-- R474: The boot ROM checks both slots and starts the newest valid one or enters RECOVERY. -/
  | bootRomSlotCheck (t : Nat)
  /-- R456: The firmware applies the profile, enables units and raises system.booted. -/
  | firmwareBootComplete (t : Nat)
  /-- R477: After 60 s without a watchdog reset the TRIAL slot is confirmed and fuses blown. -/
  | trialConfirm (t : Nat)
  /-- R469: After entering RETURNED the device zeroizes keys, clears store and logs, and resets. -/
  | returnedErasure (t : Nat)
  /-- R496: A falling edge on FREEZE_N starts a freeze. -/
  | freezeNFall (t : Nat) (highFor : Nat)
  /-- R493: The log writer writes one queued entry to MRAM at most every 1 ms. -/
  | logWriterFlush (t : Nat)
  /-- R489: The background monitor completes a scan of one eye. -/
  | eyeScanComplete (t : Nat) (g : GalIx) (lane : LaneIx) (eye : Fin 3) (points : List (BitVec 128))
  /-- R480: A TAP reset selects IDCODE and releases an EXTEST reset hold. -/
  | tapReset (t : Nat)
  /-- R480: Selects the IDCODE register. -/
  | tapIdcode (t : Nat)
  /-- R480: Selects the boundary register for sampling and preloading. -/
  | tapSamplePreload (t : Nat) (n pins new : Nat)
  /-- R481: Loads EXTEST, resetting the device and holding it until a TAP reset. -/
  | tapExtest (t : Nat) (n pins new : Nat)
  /-- R481: Loads the IEEE 1149.6 pulse test, resetting the device. -/
  | tapExtestPulse (t : Nat) (n pins new : Nat)
  /-- R481: Loads the IEEE 1149.6 train test, resetting the device. -/
  | tapExtestTrain (t : Nat) (n pins new : Nat)
  /-- R480: Returns lifecycle, open level and token check state. -/
  | tapDbgStatus (t : Nat)
  /-- R479: Draws a new nonce at Capture-DR and shifts it out with the serial number. -/
  | tapDbgNonce (t : Nat)
  /-- R479: Submits a token that is checked at Update-DR to open a debug level. -/
  | tapDbgToken (t : Nat) (level key : Byte) (sig : List Byte)
  /-- R495: Captures the response count and length. -/
  | tapMbxNop (t : Nat)
  /-- R495: Sets both debug mailbox pointers to 0. -/
  | tapMbxResetPtr (t : Nat)
  /-- R495: Appends 4 bytes to the debug host's command frame. -/
  | tapMbxPut (t : Nat) (data : BitVec 32)
  /-- R495: Submits the debug frame to ring 4 as a doorbell. -/
  | tapMbxRing (t : Nat)
  /-- R495: Captures the next 4 bytes of the oldest response. -/
  | tapMbxGet (t : Nat)
  /-- R495: Drops the oldest response and resets the response pointer. -/
  | tapMbxAck (t : Nat)
  /-- R496: Starts a freeze at Update-IR. -/
  | tapFreeze (t : Nat)
  /-- R503: Shifts out the public snapshot chains. -/
  | tapSnapPublic (t : Nat)
  /-- R503: Shifts out every snapshot chain at D2. -/
  | tapSnapFull (t : Nat)
  /-- R480: Reads Mezzanine SRAM at a shifted address. -/
  | tapSramRead (t : Nat) (addr : BitVec 64)
  /-- R481: Halts the Mezzanine, which then counts as not running. -/
  | tapMezHalt (t : Nat)
  /-- R480: Steps the halted Mezzanine. -/
  | tapMezStep (t : Nat)
  /-- R481: Resumes the halted Mezzanine. -/
  | tapMezResume (t : Nat)
  /-- R480: Selects the 1-bit bypass register; instructions above the level count a violation. -/
  | tapBypass (t : Nat) (code : Byte)
  /-- R27: A failure of the Hall, which cannot be contained, trips the internal-fault monitor and sends the device to SAFE or LOCKOUT until reset. -/
  | hallLost (t : Nat)
  /-- R63: At the end of each DFE adaptation window the taps step by sign-sign LMS, and pending ADAPT, HOLD or VGA-hold changes take effect. -/
  | adaptationWindowEnd (t : Nat) (g : GalIx) (lane : LaneIx) (sums : TapSums) (vga : BitVec 8) (drift : Int)
  /-- R135: The QUAL countdown reaches 0, and at the next period boundary every lane in training sends PRBS for 1.05 ms outside the block format. -/
  | qualCountdownEnd (t : Nat) (g : GalIx) (rx : Bool)
  /-- R476: The SHA-384 and authenticity check of a received image finishes and update.verify answers OK, INTEGRITY or DENIED. -/
  | updateVerifyDone (t : Nat)
  /-- R476: The read-back and digest comparison of a committing slot finishes, and the slot is set TRIAL, or INVALID on a mismatch. -/
  | updateCommitDone (t : Nat) (same : Bool)
  /-- R385: A log stream holder that has not read ring 12 for 10 s loses the ring. -/
  | logStreamHolderExpiry (t : Nat)
  deriving DecidableEq, Repr

end Sys2Proof
end

