-- ==== Sys2Proof/Decode.lean ====
section
/-! DEFINITION. The commands that words spell by the bits of spec/opcode_table.json. No row of that table gives bits: its rows are commands of wires, pins and timers, which carry no common encoding. -/

namespace Sys2Proof

/-- No word spells a command, since no row of the opcode table gives bits (note 4). -/
def decodeTableWord (_nbits _w : Nat) : Option Instr := none

end Sys2Proof
end

