-- ==== Sys2Proof/Machine/Bytes.lean ====
section
/-! DEFINITION. Bits, bytes and sparse maps: the helpers every other file of the machine uses. -/

namespace Sys2Proof.Machine

/-! ## Bytes, little-endian (R8) -/

/-- The `n` bytes of a number, least significant first. -/
def leBytes : (n : Nat) → Nat → List Byte
  | 0, _ => []
  | n + 1, v => BitVec.ofNat 8 v :: leBytes n (v / 256)

/-- The number that bytes spell, least significant first. -/
def leNat : List Byte → Nat
  | [] => 0
  | b :: bs => b.toNat + 256 * leNat bs

/-- The number that bytes spell, most significant first. -/
def beNat (bs : List Byte) : Nat := leNat bs.reverse

/-- The `n` bytes of a number, most significant first. -/
def beBytes (n v : Nat) : List Byte := (leBytes n v).reverse

/-- Bytes `off` to `off + n - 1` of a frame; bytes beyond its end read 0. -/
def slice (bs : List Byte) (off n : Nat) : List Byte :=
  (List.range n).map fun k => bs.getD (off + k) 0

/-- The little-endian number in bytes `off` to `off + n - 1`. -/
def field (bs : List Byte) (off n : Nat) : Nat := leNat (slice bs off n)

/-- Byte `off`, 0 beyond the end. -/
def byteAt (bs : List Byte) (off : Nat) : Nat := (bs.getD off 0).toNat

/-- Bits `hi` down to `lo` of a number. -/
def bits (v hi lo : Nat) : Nat := v / 2 ^ lo % 2 ^ (hi + 1 - lo)

/-- Bit `k` of a number. -/
def bitOf (v k : Nat) : Bool := v.testBit k

/-- A flag as a number. -/
def b2n (b : Bool) : Nat := if b then 1 else 0

/-- A byte as a signed number. -/
def sbyte (n : Nat) : Int := if n % 256 < 128 then (n % 256 : Int) else (n % 256 : Int) - 256

/-- A signed number as a byte, two's complement. -/
def ibyte (v : Int) : Byte := BitVec.ofInt 8 v

/-- A signed 16-bit number from its word. -/
def sword (n : Nat) : Int := if n % 65536 < 32768 then (n % 65536 : Int) else (n % 65536 : Int) - 65536

/-- Bytes padded with 0 to a multiple of `k`. -/
def padTo (k : Nat) (bs : List Byte) : List Byte :=
  bs ++ List.replicate ((k - bs.length % k) % k) 0

/-- Bytes padded with 0 up to `n`, or cut there. -/
def fit (n : Nat) (bs : List Byte) : List Byte := bs.take n ++ List.replicate (n - bs.length) 0

/-- A list cut into pieces of `k`. -/
def chunks (k : Nat) (l : List α) : List (List α) :=
  (List.range ((l.length + k - 1) / k)).map fun i => (l.drop (k * i)).take k

/-- Saturating sum at `w` bits. -/
def satAdd (w a b : Nat) : Nat := min (a + b) (2 ^ w - 1)

/-- `a` to `b` upward, modulo `m`. -/
def modSub (m b a : Nat) : Nat := (b + m - a % m) % m

/-- Upward division. -/
def ceilDiv (a b : Nat) : Nat := (a + b - 1) / b

/-- The positions set in an 8-bit map, ascending. -/
def positions (m : BitVec 8) : List Nat := (List.range 8).filter fun k => m.getLsbD k

/-- How many positions an 8-bit map sets. -/
def popcount (m : BitVec 8) : Nat := (positions m).length

/-- The map that sets one position. -/
def bit8 (k : Nat) : BitVec 8 := 1#8 <<< k

/-- The map that sets the positions of a list. -/
def bitmap (l : List Nat) : BitVec 8 := l.foldl (fun m k => m ||| bit8 k) 0#8

/-! ## Sparse maps -/

/-- The value at a key, `d` where the map lists none. -/
def mget (d : α) (m : SMap α) (k : Nat) : α :=
  match m with
  | [] => d
  | (j, v) :: r => if j = k then v else mget d r k

/-- The value at a key, if listed. -/
def mget? (m : SMap α) (k : Nat) : Option α :=
  match m with
  | [] => none
  | (j, v) :: r => if j = k then some v else mget? r k

/-- Drop a key. -/
def merase (m : SMap α) (k : Nat) : SMap α :=
  m.filter fun e => e.1 != k

/-- List a value at a key, keys rising. -/
def mput (m : SMap α) (k : Nat) (v : α) : SMap α :=
  match m with
  | [] => [(k, v)]
  | (j, w) :: r => if j = k then (k, v) :: r else if k < j then (k, v) :: (j, w) :: r else (j, w) :: mput r k v

/-- Store a value at a key in canonical form: a value equal to the default is not listed. -/
def mset [DecidableEq α] (d : α) (m : SMap α) (k : Nat) (v : α) : SMap α :=
  if v = d then merase m k else mput m k v

/-- Change the value at a key. -/
def mmod [DecidableEq α] (d : α) (m : SMap α) (k : Nat) (f : α → α) : SMap α := mset d m k (f (mget d m k))

/-! ## Per-class values (R184) -/

/-- The value of one class. -/
def cget (p : PerClass α) : Cls → α
  | .px => p.px
  | .pm => p.pm
  | .np => p.np
  | .cp => p.cp

/-- Set the value of one class. -/
def cset (p : PerClass α) (c : Cls) (v : α) : PerClass α :=
  match c with
  | .px => { p with px := v }
  | .pm => { p with pm := v }
  | .np => { p with np := v }
  | .cp => { p with cp := v }

/-- The same value for each class. -/
def call (v : α) : PerClass α := ⟨v, v, v, v⟩

/-- The number of a class in header byte 0 (R184). -/
def clsNo : Cls → Nat
  | .px => 0
  | .pm => 1
  | .np => 2
  | .cp => 3

/-- The class of a number. -/
def clsOf (n : Nat) : Cls :=
  match n % 4 with
  | 0 => .px
  | 1 => .pm
  | 2 => .np
  | _ => .cp

/-- Every class, in the order of its number. -/
def classes : List Cls := [.px, .pm, .np, .cp]

end Sys2Proof.Machine
end

