-- ==== Sys2Proof/Machine/Crypto.lean ====
section
/-! DEFINITION. SHA-384 and ECDSA over P-384, which the spec names for passwords, logs, images and tokens (R297, R300, R472, R479). -/

namespace Sys2Proof.Machine

/-! ## SHA-384 -/

/-- The 80 round constants of SHA-384. -/
def shaK : List Nat :=
    [0x428a2f98d728ae22, 0x7137449123ef65cd, 0xb5c0fbcfec4d3b2f, 0xe9b5dba58189dbbc, 0x3956c25bf348b538] ++
    [0x59f111f1b605d019, 0x923f82a4af194f9b, 0xab1c5ed5da6d8118, 0xd807aa98a3030242, 0x12835b0145706fbe] ++
    [0x243185be4ee4b28c, 0x550c7dc3d5ffb4e2, 0x72be5d74f27b896f, 0x80deb1fe3b1696b1, 0x9bdc06a725c71235] ++
    [0xc19bf174cf692694, 0xe49b69c19ef14ad2, 0xefbe4786384f25e3, 0x0fc19dc68b8cd5b5, 0x240ca1cc77ac9c65] ++
    [0x2de92c6f592b0275, 0x4a7484aa6ea6e483, 0x5cb0a9dcbd41fbd4, 0x76f988da831153b5, 0x983e5152ee66dfab] ++
    [0xa831c66d2db43210, 0xb00327c898fb213f, 0xbf597fc7beef0ee4, 0xc6e00bf33da88fc2, 0xd5a79147930aa725] ++
    [0x06ca6351e003826f, 0x142929670a0e6e70, 0x27b70a8546d22ffc, 0x2e1b21385c26c926, 0x4d2c6dfc5ac42aed] ++
    [0x53380d139d95b3df, 0x650a73548baf63de, 0x766a0abb3c77b2a8, 0x81c2c92e47edaee6, 0x92722c851482353b] ++
    [0xa2bfe8a14cf10364, 0xa81a664bbc423001, 0xc24b8b70d0f89791, 0xc76c51a30654be30, 0xd192e819d6ef5218] ++
    [0xd69906245565a910, 0xf40e35855771202a, 0x106aa07032bbd1b8, 0x19a4c116b8d2d0c8, 0x1e376c085141ab53] ++
    [0x2748774cdf8eeb99, 0x34b0bcb5e19b48a8, 0x391c0cb3c5c95a63, 0x4ed8aa4ae3418acb, 0x5b9cca4f7763e373] ++
    [0x682e6ff3d6b2b8a3, 0x748f82ee5defb2fc, 0x78a5636f43172f60, 0x84c87814a1f0ab72, 0x8cc702081a6439ec] ++
    [0x90befffa23631e28, 0xa4506cebde82bde9, 0xbef9a3f7b2c67915, 0xc67178f2e372532b, 0xca273eceea26619c] ++
    [0xd186b8c721c0c207, 0xeada7dd6cde0eb1e, 0xf57d4f7fee6ed178, 0x06f067aa72176fba, 0x0a637dc5a2c898a6] ++
    [0x113f9804bef90dae, 0x1b710b35131c471b, 0x28db77f523047d84, 0x32caab7b40c72493, 0x3c9ebe0a15c9bebc] ++
    [0x431d67c49c100d4c, 0x4cc5d4becb3e42b6, 0x597f299cfc657e2a, 0x5fcb6fab3ad6faec, 0x6c44198c4a475817]

/-- The initial hash value of SHA-384. -/
def shaInit : List (BitVec 64) := ([0xcbbb9d5dc1059ed8, 0x629a292a367cd507, 0x9159015a3070dd17, 0x152fecd8f70e5939] ++
    [0x67332667ffc00b31, 0x8eb44a8768581511, 0xdb0c2e0d64f98fa7, 0x47b5481dbefa4fa4]).map (BitVec.ofNat 64)

/-- The working variables of a round. -/
structure ShaVars where
  a : BitVec 64
  b : BitVec 64
  c : BitVec 64
  d : BitVec 64
  e : BitVec 64
  f : BitVec 64
  g : BitVec 64
  h : BitVec 64
  deriving DecidableEq, Repr

/-- One round with its constant and message word. -/
def shaRound (v : ShaVars) (kw : Nat × BitVec 64) : ShaVars :=
  let big1 := v.e.rotateRight 14 ^^^ v.e.rotateRight 18 ^^^ v.e.rotateRight 41
  let ch := (v.e &&& v.f) ^^^ (~~~v.e &&& v.g)
  let t1 := v.h + big1 + ch + BitVec.ofNat 64 kw.1 + kw.2
  let big0 := v.a.rotateRight 28 ^^^ v.a.rotateRight 34 ^^^ v.a.rotateRight 39
  let maj := (v.a &&& v.b) ^^^ (v.a &&& v.c) ^^^ (v.b &&& v.c)
  { a := t1 + (big0 + maj), b := v.a, c := v.b, d := v.c, e := v.d + t1, f := v.e, g := v.f, h := v.g }

/-- The message schedule: the words so far, newest first, extended by `n`. -/
def shaExtend : Nat → List (BitVec 64) → List (BitVec 64)
  | 0, w => w
  | n + 1, w =>
    let x := w.getD 14 0
    let y := w.getD 1 0
    let s0 := x.rotateRight 1 ^^^ x.rotateRight 8 ^^^ (x >>> 7)
    let s1 := y.rotateRight 19 ^^^ y.rotateRight 61 ^^^ (y >>> 6)
    shaExtend n ((w.getD 15 0 + s0 + w.getD 6 0 + s1) :: w)

/-- One 128-byte block. -/
def shaBlock (h : List (BitVec 64)) (blk : List Byte) : List (BitVec 64) :=
  let w := (chunks 8 blk).map fun b => BitVec.ofNat 64 (beNat b)
  let v0 : ShaVars := { a := h.getD 0 0, b := h.getD 1 0, c := h.getD 2 0, d := h.getD 3 0, e := h.getD 4 0, f := h.getD 5 0,
                        g := h.getD 6 0, h := h.getD 7 0 }
  let v := (shaK.zip (shaExtend 64 w.reverse).reverse).foldl shaRound v0
  List.zipWith (· + ·) h [v.a, v.b, v.c, v.d, v.e, v.f, v.g, v.h]

/-- SHA-384 of bytes, as 48 bytes. -/
def sha384 (bs : List Byte) : List Byte :=
  let zeros := (240 - (bs.length + 1) % 128) % 128
  let padded := bs ++ [0x80#8] ++ List.replicate zeros 0#8 ++ beBytes 16 (8 * bs.length)
  (((chunks 128 padded).foldl shaBlock shaInit).take 6).flatMap fun x => beBytes 8 x.toNat

/-- SHA-384 as a number, its first byte most significant. -/
def sha384Num (bs : List Byte) : BitVec 384 := BitVec.ofNat 384 (beNat (sha384 bs))

/-! ## ECDSA over P-384 -/

/-- The field prime of P-384. -/
def ecP : Nat := 2 ^ 384 - 2 ^ 128 - 2 ^ 96 + 2 ^ 32 - 1

/-- The order of the base point. -/
def ecN : Nat := 0xffffffffffffffffffffffffffffffffffffffffffffffffc7634d81f4372ddf581a0db248b0a77aecec196accc52973

/-- The coefficient b of the curve. -/
def ecB : Nat := 0xb3312fa7e23ee7e4988e056be3f82d19181d9c6efe8141120314088f5013875ac656398d8a2ed19d2a85c8edd3ec2aef

/-- The base point. -/
def ecG : Nat × Nat :=
  (0xaa87ca22be8b05378eb1c71ef320ad746e1d3b628ba79b9859f741e082542a385502f25dbf55296c3a545e3872760ab7,
   0x3617de4a96262c6f5d9e98bf9292dc29f8f41dbd289a147ce9da3113b5f0b8c00a60b1ce1d7e819d7a431d7c90ea0e5f)

/-- The power of a number modulo `m`, by the bits of the exponent from `k` bits down. -/
def modPow (m b e : Nat) : Nat → Nat
  | 0 => 1
  | k + 1 =>
    let r := modPow m b (e / 2) k
    let q := r * r % m
    if e % 2 = 1 then q * b % m else q

/-- The inverse modulo a prime of at most 384 bits. -/
def modInv (m a : Nat) : Nat := modPow m a (m - 2) 384

/-- Points of the curve, none the point at infinity. -/
abbrev EcPoint := Option (Nat × Nat)

/-- A point by three coordinates x, y and z, which stand for (x / z², y / z³); z = 0 at infinity. -/
structure EcTriple where
  x : Nat
  y : Nat
  z : Nat
  deriving DecidableEq, Repr

/-- The point at infinity. -/
def ecZero : EcTriple := { x := 1, y := 1, z := 0 }

/-- A difference modulo the field prime. -/
def ecSub (a b : Nat) : Nat := (a + ecP - b % ecP) % ecP

/-- Twice a point. -/
def ecDouble (p : EcTriple) : EcTriple :=
  if p.z = 0 ∨ p.y = 0 then ecZero
  else
    let zz := p.z * p.z % ecP
    let yy := p.y * p.y % ecP
    let b := p.x * yy % ecP
    let a := 3 * (ecSub p.x zz * ((p.x + zz) % ecP)) % ecP
    let x := ecSub (a * a) (8 * b)
    { x, y := ecSub (a * ecSub (4 * b) x) (8 * (yy * yy)), z := 2 * p.y * p.z % ecP }

/-- The sum of two points. -/
def ecAdd (p q : EcTriple) : EcTriple :=
  if p.z = 0 then q
  else if q.z = 0 then p
  else
    let pz := p.z * p.z % ecP
    let qz := q.z * q.z % ecP
    let u := p.x * qz % ecP
    let v := p.y * (q.z * qz % ecP) % ecP
    let h := ecSub (q.x * pz) u
    let r := ecSub (q.y * (p.z * pz % ecP)) v
    if h = 0 then (if r = 0 then ecDouble p else ecZero)
    else
      let hh := h * h % ecP
      let hhh := h * hh % ecP
      let w := u * hh % ecP
      let x := ecSub (r * r) (hhh + 2 * w)
      { x, y := ecSub (r * ecSub w x) (v * hhh), z := h * (p.z * q.z % ecP) % ecP }

/-- A multiple of a point, by the bits of the factor from `k` bits down. -/
def ecMul (p : EcTriple) (e : Nat) : Nat → EcTriple
  | 0 => ecZero
  | k + 1 =>
    let d := ecDouble (ecMul p (e / 2) k)
    if e % 2 = 1 then ecAdd d p else d

/-- The coordinates of a point. -/
def ecPlain (p : EcTriple) : EcPoint :=
  if p.z = 0 then none
  else
    let i := modInv ecP p.z
    let ii := i * i % ecP
    some (p.x * ii % ecP, p.y * (i * ii % ecP) % ecP)

/-- A multiple of a point, plus a multiple of another. -/
def ecSum (p : Nat × Nat) (e : Nat) (q : Nat × Nat) (f : Nat) : EcPoint :=
  ecPlain (ecAdd (ecMul { x := p.1, y := p.2, z := 1 } e 384) (ecMul { x := q.1, y := q.2, z := 1 } f 384))

/-- Whether a signature (r, s) of a hash holds under a public key. -/
def ecdsaOk (key : Nat × Nat) (hash r s : Nat) : Bool :=
  let onCurve := key.1 < ecP && key.2 < ecP &&
    key.2 * key.2 % ecP == (key.1 * key.1 % ecP * key.1 + (ecP - 3) * key.1 + ecB) % ecP
  if !onCurve || r == 0 || s == 0 || r ≥ ecN || s ≥ ecN then false
  else
    let w := modInv ecN s
    match ecSum ecG (hash * w % ecN) key (r * w % ecN) with
    | some (x, _) => x % ecN == r
    | none => false

/-- The point with an x coordinate whose y is odd or even as asked. -/
def ecLift (x : Nat) (odd : Bool) : EcPoint :=
  let c := (x * x % ecP * x + (ecP - 3) * x + ecB) % ecP
  let y := modPow ecP c ((ecP + 1) / 4) 384
  if x ≥ ecP ∨ y * y % ecP ≠ c then none else some (x, if (y % 2 == 1) == odd then y else (ecP - y) % ecP)

/-- The public keys that a signature (r, s) of a hash can have come from (R472). -/
def ecRecover (hash r s : Nat) : List (Nat × Nat) :=
  if r = 0 ∨ s = 0 ∨ r ≥ ecN ∨ s ≥ ecN then []
  else
    let w := modInv ecN r
    [(r, false), (r, true), (r + ecN, false), (r + ecN, true)].filterMap fun q =>
      match ecLift q.1 q.2 with
      | none => none
      | some p => ecSum p (s * w % ecN) ecG ((ecN - hash % ecN) * w % ecN)

/-- A public key in uncompressed form. -/
def keyBytes (k : Nat × Nat) : List Byte := 4#8 :: (beBytes 48 k.1 ++ beBytes 48 k.2)

/-- Whether a signature of 96 bytes over a message, r then s, each most significant byte first, verifies under a key recovered from it whose SHA-384 is `keyHash` (R472, R479). -/
def signedBy (keyHash : BitVec 384) (msg sig : List Byte) : Bool :=
  let h := beNat (sha384 msg)
  let r := beNat (slice sig 0 48)
  let s := beNat (slice sig 48 48)
  (ecRecover h r s).any fun k => sha384Num (keyBytes k) == keyHash && ecdsaOk k h r s

end Sys2Proof.Machine
end

