-- ==== Sys2Proof/Machine/Coding.lean ====
section
/-! DEFINITION. Line coding: CRC-8, CRC-32C, the scrambler, hop-control blocks, stream blocks, tack blocks and RS(544,514) codewords (chapter 03, R125 to R204). -/

namespace Sys2Proof.Machine

/-! ## Checks -/

/-- CRC-8 of one byte into the register: polynomial 0x07, most significant bit first (R90). -/
def crc8Byte (c b : Byte) : Byte :=
  (List.range 8).foldl (fun r _ => if r.getLsbD 7 then (r <<< 1) ^^^ 0x07#8 else r <<< 1) (c ^^^ b)

/-- CRC-8 of bytes, initial value 0x00 (R90). -/
def crc8 (bs : List Byte) : Byte := bs.foldl crc8Byte 0#8

/-- CRC-32C of one byte into the reflected register (R188). -/
def crc32Byte (c : BitVec 32) (b : Byte) : BitVec 32 :=
  (List.range 8).foldl (fun r _ => if r.getLsbD 0 then (r >>> 1) ^^^ 0x82F63B78#32 else r >>> 1) (c ^^^ b.zeroExtend 32)

/-- CRC-32C of bytes (R188). -/
def crc32c (bs : List Byte) : BitVec 32 := (bs.foldl crc32Byte 0xFFFFFFFF#32) ^^^ 0xFFFFFFFF#32

/-! ## Blocks (R87) -/

/-- Sync header of a block. -/
def blkHdr (b : Block) : BitVec 2 := b.extractLsb' 0 2

/-- Payload byte `k` of a block. -/
def blkByte (b : Block) (k : Nat) : Byte := b.extractLsb' (8 * k + 2) 8

/-- The eight payload bytes of a block. -/
def blkBytes (b : Block) : List Byte := (List.range 8).map (blkByte b)

/-- A block from its sync header and payload bytes. -/
def mkBlk (h : BitVec 2) (bs : List Byte) : Block := (BitVec.ofNat 64 (leNat (bs.take 8))) ++ h

/-- The control header. -/
def ctlHdr : BitVec 2 := 0b10#2

/-- The data header. -/
def dataHdr : BitVec 2 := 0b01#2

/-- A control block with a CRC-8 over bytes 0 to 6 in byte 7 (R90). -/
def mkChecked (bs : List Byte) : Block := mkBlk ctlHdr (bs.take 7 ++ [crc8 (bs.take 7)])

/-- Whether byte 7 holds the CRC-8 of bytes 0 to 6 (R90). -/
def crc8Ok (b : Block) : Bool := blkByte b 7 == crc8 ((blkBytes b).take 7)

/-- The idle block (R91). -/
def idleBlk : Block := mkBlk ctlHdr [0x1E#8, 0#8, 0#8, 0#8, 0#8, 0#8, 0#8, 0#8]

/-! ## Hop-control blocks (R92) -/

/-- The subtype, byte 1. -/
def hopSub : Hop → BitVec 8
  | .cap _ => 0x01#8
  | .landing _ => 0x02#8
  | .eqReq .. => 0x03#8
  | .eqAck .. => 0x04#8
  | .qual .. => 0x05#8
  | .result _ => 0x06#8
  | .step _ => 0x07#8
  | .activate .. => 0x08#8
  | .retrain _ => 0x09#8
  | .loss _ => 0x20#8
  | .replay _ => 0x21#8
  | .laneCheck .. => 0x22#8
  | .rejoin _ => 0x23#8
  | .creditA .. => 0x30#8
  | .creditB .. => 0x31#8
  | .info .. => 0x32#8
  | .probe _ => 0x33#8
  | .echo _ => 0x34#8
  | .sentA .. => 0x35#8
  | .sentB .. => 0x36#8
  | .idleNotice .. => 0x40#8
  | .clockStop .. => 0x41#8
  | .marker .. => 0x50#8

/-- The body, bytes 2 to 6 as one little-endian number: bits 7 to 0 are byte 2. -/
def hopBody : Hop → BitVec 40
  | .cap c =>
    0#8 ++ c.floor ++ c.version ++ c.lanes ++ c.heard ++ c.t3fec ++ c.rxCeil ++ c.txCeil ++ c.kind ++ c.gallery ++
      c.side ++ c.physLane
  | .landing l => 0#16 ++ 0#3 ++ l.numbered ++ l.landing ++ l.flight
  | .eqReq pos count request => 0#24 ++ request ++ count ++ pos
  | .eqAck pos count cm2 cm1 cp1 cp2 => cp2 ++ cp1 ++ cm1 ++ cm2 ++ count ++ pos
  | .qual tread fec countdown => 0#16 ++ countdown ++ 0#4 ++ fec ++ tread
  | .result r => 0#8 ++ r.eyeHeight ++ r.eyeWidth ++ r.passed ++ 0#4 ++ r.fec ++ r.tread
  | .step b => 0#8 ++ b.lanes ++ 0#6 ++ b.boundary ++ 0#2 ++ b.action ++ b.fec ++ b.toTread
  | .activate tread fec active firstSeq => 0#8 ++ 0#6 ++ firstSeq ++ active ++ 0#4 ++ fec ++ tread
  | .retrain r => 0#16 ++ r.reqId ++ r.reason ++ r.full ++ r.tread
  | .loss l => 0#6 ++ l.lastSlot ++ 0#2 ++ l.reportId ++ l.lastGood ++ l.failed
  | .replay r => 0#16 ++ 0#1 ++ r.lossless ++ r.reportId ++ r.restartSeq ++ r.active
  | .laneCheck pos action checkId => 0#16 ++ checkId ++ 0#2 ++ action ++ pos
  | .rejoin r => 0#8 ++ r.active ++ 0#6 ++ r.rejoinSeq ++ 0#5 ++ r.pos
  | .creditA px pm demand => 0#12 ++ demand ++ pm ++ px
  | .creditB np cp demand => 0#12 ++ demand ++ cp ++ np
  | .info quotaPx reachPx => 0#16 ++ reachPx ++ quotaPx
  | .probe id => 0#32 ++ id
  | .echo id => 0#32 ++ id
  | .sentA px pm => pm ++ px
  | .sentB np cp => cp ++ np
  | .idleNotice last lanePos => 0#24 ++ lanePos ++ last
  | .clockStop seq lanePos => 0#24 ++ lanePos ++ seq
  | .marker seq lanePos sideband => 0#8 ++ sideband ++ lanePos ++ seq

/-- The command a subtype and a body spell; none for a reserved subtype (R92). Reserved bits are ignored (R10). -/
def hopOf (sub : BitVec 8) (v : BitVec 40) : Option Hop :=
  match sub.toNat with
  | 0x01 => some (.cap ⟨v.extractLsb' 0 3, v.extractLsb' 3 1, v.extractLsb' 4 2,
      v.extractLsb' 6 2, v.extractLsb' 8 3, v.extractLsb' 11 3,
      v.extractLsb' 14 1, v.extractLsb' 15 1, v.extractLsb' 16 8,
      v.extractLsb' 24 4, v.extractLsb' 28 4⟩)
  | 0x02 => some (.landing ⟨v.extractLsb' 0 16, v.extractLsb' 16 4, v.extractLsb' 20 1⟩)
  | 0x03 => some (.eqReq (v.extractLsb' 0 3) (v.extractLsb' 3 5) (v.extractLsb' 8 8))
  | 0x04 => some (.eqAck (v.extractLsb' 0 3) (v.extractLsb' 3 5) (v.extractLsb' 8 8) (v.extractLsb' 16 8)
      (v.extractLsb' 24 8) (v.extractLsb' 32 8))
  | 0x05 => some (.qual (v.extractLsb' 0 3) (v.extractLsb' 3 1) (v.extractLsb' 8 16))
  | 0x06 => some (.result ⟨v.extractLsb' 0 3, v.extractLsb' 3 1, v.extractLsb' 8 8,
      v.extractLsb' 16 8, v.extractLsb' 24 8⟩)
  | 0x07 => some (.step ⟨v.extractLsb' 0 3, v.extractLsb' 3 1, v.extractLsb' 4 2,
      v.extractLsb' 8 10, v.extractLsb' 24 8⟩)
  | 0x08 => some (.activate (v.extractLsb' 0 3) (v.extractLsb' 3 1) (v.extractLsb' 8 8) (v.extractLsb' 16 10))
  | 0x09 => some (.retrain ⟨v.extractLsb' 0 3, v.extractLsb' 3 1, v.extractLsb' 4 4,
      v.extractLsb' 8 16⟩)
  | 0x20 => some (.loss ⟨v.extractLsb' 0 8, v.extractLsb' 8 10, v.extractLsb' 18 4,
      v.extractLsb' 24 10⟩)
  | 0x21 => some (.replay ⟨v.extractLsb' 0 8, v.extractLsb' 8 10,
      v.extractLsb' 18 4, v.extractLsb' 22 1⟩)
  | 0x22 => some (.laneCheck (v.extractLsb' 0 3) (v.extractLsb' 3 3) (v.extractLsb' 8 16))
  | 0x23 => some (.rejoin ⟨v.extractLsb' 0 3, v.extractLsb' 8 10, v.extractLsb' 24 8⟩)
  | 0x30 => some (.creditA (v.extractLsb' 0 12) (v.extractLsb' 12 12) (v.extractLsb' 24 4))
  | 0x31 => some (.creditB (v.extractLsb' 0 12) (v.extractLsb' 12 12) (v.extractLsb' 24 4))
  | 0x32 => some (.info (v.extractLsb' 0 12) (v.extractLsb' 12 12))
  | 0x33 => some (.probe (v.extractLsb' 0 8))
  | 0x34 => some (.echo (v.extractLsb' 0 8))
  | 0x35 => some (.sentA (v.extractLsb' 0 20) (v.extractLsb' 20 20))
  | 0x36 => some (.sentB (v.extractLsb' 0 20) (v.extractLsb' 20 20))
  | 0x40 => some (.idleNotice (v.extractLsb' 0 10) (v.extractLsb' 10 6))
  | 0x41 => some (.clockStop (v.extractLsb' 0 10) (v.extractLsb' 10 6))
  | 0x50 => some (.marker (v.extractLsb' 0 10) (v.extractLsb' 10 6) (v.extractLsb' 16 16))
  | _ => none

/-- The 66-bit block of a hop-control block (R90, R92). -/
def encodeHop (h : Hop) : Block :=
  let body : BitVec 56 := hopBody h ++ hopSub h ++ 0x2D#8
  let check := crc8 ((List.range 7).map fun k => body.extractLsb' (8 * k) 8)
  check ++ body ++ ctlHdr

/-- The body of a control block, bytes 2 to 6. -/
def blkBody (b : Block) : BitVec 40 := b.extractLsb' 18 40

/-- Decode a hop-control block: none where the header, the type, the CRC-8 or the subtype is not that of one (R90, R92). -/
def decodeHop (b : Block) : Option Hop :=
  if blkHdr b = ctlHdr ∧ blkByte b 0 = 0x2D#8 ∧ crc8Ok b then hopOf (blkByte b 1) (blkBody b) else none

/-! ## What a received block is (R89) -/

/-- A received block, sorted by header and type byte (R89, R90, R101). -/
inductive BlkKind where
  | idle
  /-- a hop-control block; none for a reserved subtype -/
  | hop (h : Option Hop)
  /-- a lane-local block that fails its CRC-8 -/
  | badLocal
  | data (bs : List Byte)
  /-- parcel start with parcel bytes 0 to 6 -/
  | start (bs : List Byte)
  /-- parcel end: the count byte and bytes 2 to 7 -/
  | fin (n : Nat) (poisoned : Bool) (bs : List Byte)
  | basting (c : BitVec 48)
  | cut (c : CutMark)
  | gap (g : Gap)
  /-- a stream control block that fails its CRC-8 -/
  | badStream
  | tack
  /-- invalid sync header -/
  | badHeader
  /-- unknown type byte -/
  | badType
  deriving DecidableEq, Repr

/-- The cut mark in bytes 1 to 6 (R96). -/
def cutOf (v : BitVec 48) : CutMark :=
  { region := v.extractLsb' 0 12, uncorrected := v.getLsbD 12, substituted := v.getLsbD 13,
    frame := v.extractLsb' 16 24, subframe := v.extractLsb' 40 4 }

/-- Bytes 1 to 6 of a cut mark (R96). -/
def cutBody (c : CutMark) : BitVec 48 :=
  0#4 ++ c.subframe ++ c.frame ++ 0#2 ++ BitVec.ofBool c.substituted ++ BitVec.ofBool c.uncorrected ++ c.region

/-- The gap in bytes 1 to 6 (R97). -/
def gapOf (v : BitVec 48) : Gap :=
  { region := v.extractLsb' 0 12, reason := v.extractLsb' 12 4, firstLine := v.extractLsb' 16 16,
    lineCount := v.extractLsb' 32 16 }

/-- Bytes 1 to 6 of a gap (R97). -/
def gapBody (g : Gap) : BitVec 48 := g.lineCount ++ g.firstLine ++ g.reason ++ g.region

/-- A checked stream block from its type byte and bytes 1 to 6 (R90, R96 to R98). -/
def checkedBlk (ty : Byte) (v : BitVec 48) : Block :=
  let body : BitVec 56 := v ++ ty
  let check := crc8 ((List.range 7).map fun k => body.extractLsb' (8 * k) 8)
  check ++ body ++ ctlHdr

/-- The block of a cut mark. -/
def cutBlk (c : CutMark) : Block := checkedBlk 0x66#8 (cutBody c)

/-- The block of a gap. -/
def gapBlk (g : Gap) : Block := checkedBlk 0x78#8 (gapBody g)

/-- A basting block from its content bytes (R98). -/
def bastingBlk (c : BitVec 48) : Block := checkedBlk 0x55#8 c

/-- Sort a received block (R89, R90, R101). -/
def blkKind (b : Block) : BlkKind :=
  if blkHdr b = dataHdr then .data (blkBytes b)
  else if blkHdr b ≠ ctlHdr then .badHeader
  else
    let v : BitVec 48 := b.extractLsb' 10 48
    match (blkByte b 0).toNat with
    | 0x1E => .idle
    | 0x2D => if crc8Ok b then .hop (hopOf (blkByte b 1) (blkBody b)) else .badLocal
    | 0x33 => .start ((blkBytes b).drop 1)
    | 0x4B => .fin (bits (blkByte b 1).toNat 2 0) ((blkByte b 1).getLsbD 3) ((blkBytes b).drop 2)
    | 0x55 => if crc8Ok b then .basting v else .badStream
    | 0x66 => if crc8Ok b then .cut (cutOf v) else .badStream
    | 0x78 => if crc8Ok b then .gap (gapOf v) else .badStream
    | 0x87 => if crc8Ok b then .tack else .badLocal
    | _ => .badType

/-! ## Tack blocks (R95) -/

/-- The tack block of a waking lane. -/
def tackBlk (pos : BitVec 3) (rejoinSeq : BitVec 10) (remaining : BitVec 8) : Block :=
  checkedBlk 0x87#8 (0#16 ++ remaining ++ (0#6 ++ rejoinSeq) ++ (0#5 ++ pos))

/-- Rejoin sequence and remaining count of a tack block whose header, type and CRC-8 hold. -/
def tackOf (b : Block) : Option (Nat × Nat) :=
  if blkKind b = .tack then some ((b.extractLsb' 18 10).toNat, (blkByte b 4).toNat) else none

/-! ## Parcels as bytes and blocks (R99, R183, R188) -/

/-- Header and payload in sending order. -/
def parcelBody (p : Parcel) : List Byte := leBytes 16 p.hdr.toNat ++ p.payload

/-- All bytes of a parcel, trailer included. -/
def parcelBytes (p : Parcel) : List Byte := parcelBody p ++ leBytes 4 p.crc.toNat

/-- Length in bytes, header and trailer included. -/
def parcelLen (p : Parcel) : Nat := p.payload.length + 20

/-- The trailer a parcel should carry (R188). -/
def parcelCrc (p : Parcel) : BitVec 32 := crc32c (parcelBody p)

/-- Whether the trailer holds. -/
def crcOk (p : Parcel) : Bool := p.crc == parcelCrc p

/-- A parcel with the trailer its header and payload call for. -/
def mkParcel (hdr : BitVec 128) (payload : List Byte) : Parcel :=
  { hdr, payload, crc := crc32c (leBytes 16 hdr.toNat ++ payload), poisoned := false }

/-- The parcel that reassembled bytes spell; none where they are too few for header and trailer. -/
def parcelOf (bs : List Byte) (poisoned : Bool) : Option Parcel :=
  if bs.length < 20 then none
  else some { hdr := BitVec.ofNat 128 (leNat (bs.take 16)), payload := (bs.drop 16).take (bs.length - 20),
              crc := BitVec.ofNat 32 (leNat (bs.drop (bs.length - 4))), poisoned }

/-- The blocks of a parcel: start, data, end (R99, R190). -/
def parcelBlks (p : Parcel) : List Block :=
  let bs := parcelBytes p
  let rest := bs.drop 7
  let n := rest.length % 8
  let full := rest.length / 8
  [mkBlk ctlHdr (0x33#8 :: bs.take 7)] ++
    ((chunks 8 (rest.take (8 * full))).map (mkBlk dataHdr)) ++
    [mkBlk ctlHdr ([0x4B#8, BitVec.ofNat 8 (n + if p.poisoned then 8 else 0)] ++ fit 6 (rest.drop (8 * full)))]

/-- The blocks of a stream item. -/
def itemBlks : Item → List Block
  | .parcel p => parcelBlks p
  | .cut c => [cutBlk c]
  | .gap g => [gapBlk g]

/-- The PX bytes an item takes of its class's credit: a cut mark or a gap counts as 8 (R201). -/
def itemLen : Item → Nat
  | .parcel p => parcelLen p
  | _ => 8

/-! ## Scrambler (R88) -/

/-- Scramble 64 payload bits, bit 0 first: the history keeps the last 58 bits sent, the newest in bit 0. -/
def scramble (h : BitVec 58) (d : BitVec 64) : BitVec 58 × BitVec 64 :=
  (List.range 64).foldl (fun (acc : BitVec 58 × BitVec 64) k =>
    let s := (d.getLsbD k ^^ acc.1.getLsbD 38) ^^ acc.1.getLsbD 57
    ((acc.1 <<< 1) ||| BitVec.ofNat 58 (b2n s), acc.2 ||| ((BitVec.ofNat 64 (b2n s)) <<< k))) (h, 0#64)

/-- Descramble 64 payload bits. -/
def descramble (h : BitVec 58) (d : BitVec 64) : BitVec 58 × BitVec 64 :=
  (List.range 64).foldl (fun (acc : BitVec 58 × BitVec 64) k =>
    let r := d.getLsbD k
    let o := (r ^^ acc.1.getLsbD 38) ^^ acc.1.getLsbD 57
    ((acc.1 <<< 1) ||| BitVec.ofNat 58 (b2n r), acc.2 ||| ((BitVec.ofNat 64 (b2n o)) <<< k))) (h, 0#64)

/-- Scramble the payload of a block; the header bypasses. -/
def scrambleBlk (h : BitVec 58) (b : Block) : BitVec 58 × Block :=
  let r := scramble h (b.extractLsb' 2 64)
  (r.1, r.2 ++ blkHdr b)

/-- Descramble the payload of a block. -/
def descrambleBlk (h : BitVec 58) (b : Block) : BitVec 58 × Block :=
  let r := descramble h (b.extractLsb' 2 64)
  (r.1, r.2 ++ blkHdr b)

/-- Normalised amplitude of a PAM4 symbol from its first and second bit, Gray coded (R48). -/
def pam4 (first second : Bool) : Int :=
  match first, second with
  | false, false => -3
  | false, true => -1
  | true, true => 1
  | true, false => 3

/-- Normalised amplitude of an NRZ symbol (R48). -/
def nrz (b : Bool) : Int := if b then 3 else -3

/-- Polarity correction of received bits: every bit at NRZ treads, the first of each pair at PAM4 treads (R48, R67). -/
def invertBits (pam : Bool) (w : Nat) (b : BitVec w) : BitVec w :=
  if pam then b ^^^ BitVec.ofNat w (leNat (List.replicate (w / 8 + 1) 0x55#8)) else ~~~b

/-! ## RS(544,514) over GF(2^10) (R102) -/

/-- Product in GF(2^10), field polynomial x^10 + x^3 + 1. -/
def gfMul (a b : Nat) : Nat :=
  ((List.range 10).foldl (fun (acc : Nat × Nat) k =>
    let r := if b.testBit k then acc.2 ^^^ acc.1 else acc.2
    let d := acc.1 * 2
    (if d ≥ 1024 then d ^^^ 0x409 else d, r)) (a, 0)).2

/-- Power in GF(2^10), by squaring over ten bits of the exponent. -/
def gfPow (a n : Nat) : Nat :=
  ((List.range 10).foldl (fun (acc : Nat × Nat) k =>
    (gfMul acc.1 acc.1, if (n % 1023).testBit k then gfMul acc.2 acc.1 else acc.2)) (a, 1)).2

/-- Inverse in GF(2^10). -/
def gfInv (a : Nat) : Nat := gfPow a 1022

/-- The element alpha^n. -/
def alpha (n : Nat) : Nat := gfPow 2 n

/-- Value of a polynomial, coefficients lowest first. -/
def polyEval (p : List Nat) (x : Nat) : Nat := p.foldr (fun c acc => c ^^^ gfMul acc x) 0

/-- Product of polynomials, lowest first. -/
def polyMul (p q : List Nat) : List Nat :=
  (List.range (p.length + q.length - 1)).map fun k =>
    (List.range (k + 1)).foldl (fun a i => a ^^^ gfMul (p.getD i 0) (q.getD (k - i) 0)) 0

/-- The generator polynomial: the product of (x - alpha^i) for i from 0 to 29, lowest first. -/
def rsGen : List Nat := (List.range 30).foldl (fun g i => polyMul g [alpha i, 1]) [1]

/-- The 30 parity symbols of message symbols, both highest order first. -/
def rsParity (msg : List Nat) : List Nat :=
  let g := (rsGen.take 30).reverse
  msg.foldl (fun r m =>
    let f := m ^^^ r.getD 0 0
    (List.range 30).map fun k => r.getD (k + 1) 0 ^^^ gfMul f (g.getD k 0)) (List.replicate 30 0)

/-- The syndromes of received symbols, highest order first. -/
def rsSyndromes (r : List Nat) : List Nat :=
  (List.range 30).map fun j => r.foldl (fun a c => gfMul a (alpha j) ^^^ c) 0

/-- Error locator by Berlekamp and Massey: the locator and its length. -/
def rsLocator (syn : List Nat) : List Nat × Nat :=
  let r := (List.range 30).foldl (fun (st : List Nat × List Nat × Nat × Nat × Nat) n =>
    let (c, b, l, m, bb) := st
    let d := (List.range (l + 1)).foldl (fun a i => a ^^^ gfMul (c.getD i 0) (if i ≤ n then syn.getD (n - i) 0 else 0)) 0
    if d = 0 then (c, b, l, m + 1, bb)
    else
      let k := gfMul d (gfInv bb)
      let shifted := List.replicate m 0 ++ b.map (gfMul k)
      let c' := (List.range (max c.length shifted.length)).map fun i => c.getD i 0 ^^^ shifted.getD i 0
      if 2 * l ≤ n then (c', c, n + 1 - l, 1, d) else (c', b, l, m + 1, bb)) ([1], [1], 0, 1, 1)
  (r.1, r.2.2.1)

/-- Correct up to 15 symbols: the corrected symbols and how many were corrected; none when uncorrectable. -/
def rsDecode (r : List Nat) : Option (List Nat × Nat) :=
  let syn := rsSyndromes r
  if syn.all (· = 0) then some (r, 0)
  else
    let (loc, l) := rsLocator syn
    let roots := (List.range 544).filter fun p => polyEval loc (alpha (1023 - p)) = 0
    if l > 15 ∨ roots.length ≠ l then none
    else
      let omega := (polyMul syn loc).take 30
      let deriv := (List.range loc.length).map fun i => if i % 2 = 0 then loc.getD (i + 1) 0 else 0
      let fixed := roots.foldl (fun w p =>
        let xi := alpha (1023 - p)
        let e := gfMul (alpha p) (gfMul (polyEval omega xi) (gfInv (polyEval deriv xi)))
        w.set (543 - p) (w.getD (543 - p) 0 ^^^ e)) r
      if (rsSyndromes fixed).all (· = 0) then some (fixed, l) else none

/-! ## Codewords (R103, R104) -/

/-- The symbols of the low `10 n` bits of a number, first sent first. -/
def symbols (n v : Nat) : List Nat :=
  (List.range n).map fun i => v >>> (10 * i) % 1024

/-- The number that symbols spell, first sent in the low bits. -/
def symNat (l : List Nat) : Nat := l.foldr (fun s acc => s + 1024 * acc) 0

/-- The fixed codeword marker (R104). -/
def cwMarker : Nat := 0x2D4B1C7

/-- The codeword trailer (R104). -/
structure Trailer where
  marker : Nat
  lanePos : Nat
  src : BitVec 3
  seq : Nat
  sideband : BitVec 16
  deriving DecidableEq, Repr

/-- The trailer bits of a codeword, bits 5,082 to 5,139. -/
def trailerOf (cw : BitVec 5440) : Trailer :=
  { marker := (cw.extractLsb' 5082 26).toNat, lanePos := (cw.extractLsb' 5108 3).toNat, src := cw.extractLsb' 5111 3,
    seq := (cw.extractLsb' 5114 10).toNat, sideband := cw.extractLsb' 5124 16 }

/-- Bits that differ from the marker. -/
def markerMiss (cw : BitVec 5440) : Nat :=
  let d := (trailerOf cw).marker ^^^ cwMarker
  ((List.range 26).filter fun k => d.testBit k).length

/-- Whether the marker matches: at most 2 of its 26 bits differ (R112). -/
def markerOk (cw : BitVec 5440) : Bool := markerMiss cw ≤ 2

/-- Slot `j` of a codeword, still scrambled (R103). -/
def cwSlot (cw : BitVec 5440) (j : Nat) : Block := cw.extractLsb' (66 * j) 66

/-- A codeword with its errors corrected, and how many symbols that took; none when uncorrectable. -/
def cwDecode (cw : BitVec 5440) : Option (BitVec 5440 × Nat) :=
  (rsDecode (symbols 544 cw.toNat)).map fun r => (BitVec.ofNat 5440 (symNat r.1), r.2)

/-- The codeword of 77 scrambled blocks and a trailer (R102 to R104). -/
def cwEncode (blks : List Block) (t : Trailer) : BitVec 5440 :=
  let payload := blks.foldr (fun b acc => b.toNat + 2 ^ 66 * acc) 0
  let tr := t.marker + t.lanePos * 2 ^ 26 + t.src.toNat * 2 ^ 29 + t.seq * 2 ^ 32 + t.sideband.toNat * 2 ^ 42
  let msg := symbols 514 (payload + tr * 2 ^ 5082)
  BitVec.ofNat 5440 (symNat (msg ++ rsParity msg))

end Sys2Proof.Machine
end

