-- ==== Sys2Proof/Config.lean ====
section
/-! DEFINITION. What the spec leaves open: opaque constants, which nothing in Lean can evaluate. Each is applied to a counter of the state or to the operands it depends on. -/

namespace Sys2Proof.Config

/-- The device's random source, draw by draw (R353, R479): its values are the device's own (note 10). -/
opaque random : Nat → BitVec 256

/-- The ns from a freeze token to the last island stopped, freeze by freeze; the spec bounds it by 2 us (R497, R499; note 10). -/
opaque stopTime : Nat → Nat

/-- The ns from the answer of `freeze.now` to the freeze; the spec bounds it by 10 us (R388; note 14). -/
opaque freezeDelay : Nat → Nat

/-- The ns from the answer of `update.activate` to the restart; the spec bounds it by 1 ms (R386; note 14). -/
opaque restartDelay : Nat → Nat

/-- Whether the midpoint of an eye's open run, given twice over, is rounded up (R489; note 15). -/
opaque midUp : Nat → Bool

/-- The centre that `diag.eye_scan` names where the eye has no open run (R489; note 15). -/
opaque noCentre : Nat → BitVec 8

/-- Bytes of the log entry on a slot that fails its check, by slot: code, severity and body (R474; note 134). -/
opaque slotLog : Nat → Nat → BitVec 8

/-- Bytes of memories whose contents the spec does not lay out, by read-out, block and place (R480, R502; note 16). -/
opaque memory : Nat → Nat → Nat → BitVec 8

end Sys2Proof.Config
end

