-- ==== Sys2Proof/Machine/State.lean ====
section
/-! DEFINITION. The state of the block as plain data: every register, queue, counter, mode and pin the spec names, each field with the chapter and rule that name it; the reasons to stop; and the state right after reset. -/

namespace Sys2Proof.Machine

/-- Reasons the machine could stop with a fault. No command of the block raises one: every failure the spec names is an effect on the state (R27). -/
inductive Fault where
  /-- Raised by nothing. Safe: a stop allows no claim about a next state. -/
  | unreachable
  deriving DecidableEq, Repr

/-- Reasons to refuse a command. -/
inductive Refusal where
  /-- Raised by an arm of `exec` whose command has no meaning yet. Safe: no claim about a next state can be proved of it. -/
  | notModelled (mnemonic : String)
  deriving DecidableEq, Repr

/-! ## Small types -/

/-- What holds the device in reset (R453, R454, R481). -/
inductive ResetHold where
  | por | pin | extest
  deriving DecidableEq, Repr

/-- Power states kept apart by the sequencer; P1 is P0 with an idle mask set (R446). -/
inductive PState where
  | p0 | p2 | p3
  deriving DecidableEq, Repr

/-- A clock source, in the code order of event 0x0901 (R393). -/
inductive RefSrc where
  | a | b | xin | ring | fwd
  deriving DecidableEq, Repr

/-- Equalisation modes (R64). -/
inductive EqMode where
  | adapt | hold | fixed
  deriving DecidableEq, Repr

/-- Transmit coefficients but for the derived c(0) (R55). -/
structure Coef where
  cm2 : Int := 0
  cm1 : Int := 0
  cp1 : Int := 0
  cp2 : Int := 0
  deriving DecidableEq, Repr

/-- Training states, with the codes of R121. -/
inductive TrainState where
  | reset | off | detect | clock | align | exchange | equalise | qualify | report | switching | settled | active
  | guarding | backoff | lost
  deriving DecidableEq, Repr

/-- What R138 calls stepping up, falling back and stepping down. -/
inductive StepMode where
  | up | back | down
  deriving DecidableEq, Repr

/-- Receive values saved at a tread (R134). -/
structure Saved where
  ctle : Nat
  vga : BitVec 8
  taps : List Int
  fpos : List Nat
  area : Nat
  deriving DecidableEq, Repr

/-- Where the search of R133 stands: what it waits for. -/
inductive EqSearch where
  /-- no search -/
  | idle
  /-- code 0x0C requested -/
  | saved
  /-- a preset requested: presets still to try after it, and the best (preset, peak, area) so far -/
  | preset (cur : Nat) (left : List Nat) (best : Option (Nat × Nat × Nat))
  /-- the best preset requested again -/
  | back (preset peak area : Nat)
  /-- a coefficient step requested: tap c(+1) or c(-1), upward or downward, with the area before it -/
  | step (plus up : Bool) (peak area : Nat)
  /-- a step that did not enlarge the area is being taken back, and the next direction follows -/
  | undo (plus up : Bool) (peak area : Nat)
  /-- training windows of adaptation at the settings found, still to come -/
  | adapt (left peak area : Nat)
  /-- the timer expired: the best preset requested again, for the last time -/
  | last (peak area : Nat)
  /-- done sent -/
  | done
  deriving DecidableEq, Repr

/-- Block lock (R110). -/
inductive BlockLock where
  | hunt | locked
  deriving DecidableEq, Repr

/-- Codeword lock, with the count of a candidate (R112). -/
inductive CwLock where
  | hunt | candidate (n : Nat) | locked
  deriving DecidableEq, Repr

/-- What a received slot holds for the walk of R108. -/
inductive SlotC where
  | loc | stream (b : Block) | errored
  deriving DecidableEq, Repr

/-- A tack burst being received (R76, R95): the rejoin sequence and the last `remaining` of its valid blocks, how many blocks came, how many valid ones follow each other after the first 32. -/
structure TackState where
  running : Bool := false
  rejoinSeq : Option Nat := none
  remaining : Nat := 128
  seen : Nat := 0
  good : Nat := 0
  confirmed : Bool := false
  deriving DecidableEq, Repr

/-- Pattern generator and checker of a lane (R486, R487): the checker's register, newest bit in bit 0, with how many bits have filled it; the bits without error while it seeks synchronisation, or those checked since it gained it; and where errors fell among the last 1,024. -/
structure Prbs where
  gen : Bool := false
  chk : Bool := false
  pattern : Nat := 0
  locked : Bool := false
  reg : Nat := 0
  filled : Nat := 0
  run : Nat := 0
  errAt : List Nat := []
  bits : Nat := 0
  errors : Nat := 0
  deriving DecidableEq, Repr

/-- The last completed scan of one eye: when it ended, and per phase which voltages are open (R488, R489). -/
structure EyeScan where
  at_ : Nat
  points : List (BitVec 128)
  deriving DecidableEq, Repr

/-- A parcel being reassembled: its bytes so far (R99). -/
structure OpenParcel where
  bytes : List Byte
  deriving DecidableEq, Repr

/-- What the walk has delivered: an item, a PX parcel cut off after its header, whose forwarding may have begun (R100, R191), or the blocks of a basting train with whether no errored slot and no other block fell into it (R108, R152). -/
inductive RxItem where
  | item (i : Item)
  | broken (p : Parcel)
  | train (blocks : Train) (whole : Bool)
  deriving DecidableEq, Repr

/-- One slot of the replay ring: its key, the active set it was sent with, and each position's block and whether it was a stream block (R167). -/
structure RingRow where
  seq : Nat
  slot : Nat
  active : BitVec 8
  cells : List (Nat × Block × Bool)
  deriving DecidableEq, Repr

/-- Periods `first` up to before `restart` were superseded by the replay that began at `restart` (R170). -/
structure Superseded where
  first : Nat
  restart : Nat
  deriving DecidableEq, Repr

/-- A hole of the walk that a REPLAY has closed (R169, R170): the held key, the restart period, and whether the replay is lossless. -/
structure Jump where
  seq : Nat
  slot : Nat
  restart : Nat
  lossless : Bool
  deriving DecidableEq, Repr

/-- Where a repeated hop-control block goes: on every lane, on any one, or on a given one. -/
inductive RepTo where
  | all | any | lane (p : Nat)
  deriving DecidableEq, Repr

/-- A hop-control block that its owner repeats (R93, R125): where, the block, the slots between its copies, the slot count at which the next goes out, and how many are left where the rule names a number. -/
structure Repeat where
  dest : RepTo
  hop : Hop
  every : Nat
  due : Nat
  left : Option Nat := none
  deriving DecidableEq, Repr

/-- A background retraining attempt (R174): the logical position, its step (0: none runs), and when the step began. -/
structure Attempt where
  pos : Nat := 0
  step : Nat := 0
  at_ : Nat := 0
  deriving DecidableEq, Repr

/-- An item in a stream queue: what it is, the Hall port it came in by, its place in the order of arrival, the Hall outputs its copies have still to reach (galleries by index, 8 correction, 9 management), the galleries that follow port 8, the bobbin bytes it frees on leaving, whether it travels over the straight link, whether it is an event that waits (R193), whether it belongs to a substitute frame (R288), the reason counted when a gap originated here is sent (R212) or, for a completion, 1 where it refuses a 17th source (R324), and what the read of its bobbin words will meet: 0 nothing, 1 a corrected error, 2 an uncorrectable one (R27). -/
structure QItem where
  item : Item
  port : Nat
  arrival : Nat
  targets : List Nat
  next : List Nat := []
  bytes : Nat := 0
  straight : Bool := false
  waits : Bool := false
  sub : Bool := false
  origin : Nat := 0
  ecc : Nat := 0
  deriving DecidableEq, Repr

/-- A parcel crossing the Hall: the item, the class queue it left, its cells not yet wholly across, its outputs, and those its current cell has still to reach (R195). -/
structure HallXfer where
  item : QItem
  cls : Cls
  cells : Nat
  outs : List Nat
  todo : List Nat
  deriving DecidableEq, Repr

/-- The expected position of R212, `eof` at the end of the frame, and the first line that no gap of the frame names. -/
structure ExpPos where
  line : Nat
  pixel : Nat
  eof : Bool
  named : Nat
  deriving DecidableEq, Repr

/-- Wholeness of the frames of a region on one ingress (R244): whether the open frame is whole so far, its key, and whether the last closed frame was whole. -/
structure Whole where
  ok : Bool
  key : Nat
  lastOk : Bool
  deriving DecidableEq, Repr

/-! ### Placement -/

/-- A site pin (R232). -/
inductive SitePin where
  | none | nothing | here | landing (n : BitVec 4) | driver
  deriving DecidableEq, Repr

/-- Placement modes (R233). -/
inductive CutMode where
  | off | automatic | manual
  deriving DecidableEq, Repr

/-- States of a Cutting Table entry (R240). -/
inductive EntryState where
  | empty | straight | placed | dropped
  deriving DecidableEq, Repr

/-- Where a region is corrected (R240). -/
inductive Site where
  | none | here | landing (n : BitVec 4) | driver
  deriving DecidableEq, Repr

/-- A Cutting Table entry as stored, its check byte included (R240). -/
structure Entry where
  state : EntryState := .empty
  priority : BitVec 2 := 0#2
  format : BitVec 2 := 0#2
  ingressA : BitVec 2 := 0#2
  ingressB : BitVec 2 := 0#2
  dual : Bool := false
  selMode : BitVec 2 := 0#2
  selNow : Bool := false
  egress : BitVec 4 := 0#4
  dropEgress : BitVec 4 := 0#4
  share : BitVec 16 := 0#16
  site : Site := .none
  pipes : BitVec 8 := 0#8
  storeBase : BitVec 10 := 0#10
  storeUnits : BitVec 11 := 0#11
  dbuf : Bool := false
  bank : Bool := false
  group : BitVec 4 := 0#4
  dropTo : Bool := false
  dropCause : Bool := false
  pinned : Bool := false
  epoch : BitVec 8 := 0#8
  check : BitVec 8 := 0#8
  deriving DecidableEq, Repr

/-- A pending entry and the time of its write; `run` tells whether a run wrote it rather than a change of mode (R242, R246). -/
structure PendEntry where
  e : Entry
  at_ : Nat
  deriving DecidableEq, Repr

/-- An announcement record as held for one North gallery (R223, R224): its fields, the flight it came from, and when it was last repeated. -/
structure AnnRec where
  format : BitVec 2
  priority : BitVec 2
  correct : Bool
  subframes : BitVec 4
  frameRate : Nat
  width : Nat
  height : Nat
  flight : BitVec 16
  at_ : Nat
  deriving DecidableEq, Repr

/-- A claim record as held for one South gallery (R227, R228). -/
structure ClaimRec where
  claimant : BitVec 64
  gallery : Nat
  kind : BitVec 2
  site : BitVec 2
  siteLanding : BitVec 4
  at_ : Nat
  deriving DecidableEq, Repr

/-! ### Correction -/

/-- Correction states (R265). -/
inductive CorrState where
  | none | clearing | empty | loaded | unserved
  deriving DecidableEq, Repr

/-- Safe-image states (R272). -/
inductive SafeImg where
  | none | allocated | valid
  deriving DecidableEq, Repr

/-- What a unit of the store reads as where no byte is listed: zero, or the bypass record in every 16 bytes (R264). -/
inductive Fill where
  | zero | bypass
  deriving DecidableEq, Repr

/-- An extent that a run assigned (R264): its first unit, its units, whether double-buffered, and whether its clearing has ended. -/
structure NewExt where
  base : Nat
  units : Nat
  dbuf : Bool
  cleared : Bool
  deriving DecidableEq, Repr

/-- Bytes of store access by the priorities of R261: in the second that runs, by its number, and in the one before it. -/
structure StoreUse where
  second : Nat := 0
  bytes : List Nat := [0, 0, 0, 0]
  last : List Nat := [0, 0, 0, 0]
  deriving DecidableEq, Repr

/-- The last pixel a pipe produced: region, line, pixel and its output (R255). -/
structure PipeHold where
  region : Nat
  line : Nat
  pixel : Nat
  rgb : Nat × Nat × Nat
  deriving DecidableEq, Repr

/-- Who waits for the completion of a request (R324): source, tag, end-to-end number and the gallery it came in by. -/
structure Asker where
  src : BitVec 16
  tag : BitVec 8
  e2e : BitVec 32
  gallery : Nat
  deriving DecidableEq, Repr

/-- An entry of the store request queue (R261, R266): a write of bytes with the posted write it belongs to or who waits for its completion, or the mark of a commit of a region's records or safe image; each with its place in the order in which things entered the device. -/
inductive StoreWrite where
  | write (addr : Nat) (data : List Byte) (posted : Option Nat) (np : Option Asker) (arrival : Nat)
  | commit (region arrival : Nat)
  | safeCommit (region arrival : Nat)
  deriving DecidableEq, Repr

/-- The safe-image reader for one region on one gallery (R238, R269, R288): since when it is asked for, the incoming cut mark that waits to start a frame, when the last frame started, the pixel position of the frame being sent if one is, its size, bits sent and key, whether it comes from the image, the image's base as the frame began and the line from which a freed image leaves it black, and whether the drop action asks rather than safe state. -/
structure SubstState where
  since : Nat
  cutKey : Option Nat := none
  started : Option Nat := none
  pos : Option (Nat × Nat) := none
  width : Nat := 0
  height : Nat := 0
  sentBits : Nat := 0
  key : Nat := 0
  image : Bool := false
  base : Nat := 0
  blackFrom : Option Nat := none
  drop : Bool := false
  dropDone : Bool := false
  deriving DecidableEq, Repr

/-- What the Mezzanine runs (R360, R456, R475). -/
inductive MezRun where
  | off | rom | starting | running | recovery
  deriving DecidableEq, Repr

/-! ### Safety -/

/-- Monitor classes (R287). -/
inductive MonClass where
  | off | safe | lockout
  deriving DecidableEq, Repr

/-- A lock-out record (R294): monitor code or 7 for a host order, region and gallery of the trip, when, and who asked from which node. -/
structure LockRec where
  cause : Nat
  region : Nat
  gallery : Nat
  at_ : Nat
  requester : Nat
  node : BitVec 16
  deriving DecidableEq, Repr

/-- A reason of a region's safe state (R287, R290): a monitor on a gallery, a host order for the region with its time, or one for its group. -/
inductive SafeReason where
  | monitor (code : Nat) (gallery : Nat)
  | host (at_ : Nat)
  | group (at_ : Nat)
  deriving DecidableEq, Repr

/-- An armed release (R295): scope 0 group, 1 every group, 2 device; when it was armed; when LOCKOUT_CLR_N fell; and who asked. -/
structure ReleaseArm where
  scope : Nat
  group : Nat
  at_ : Nat
  fell : Option Nat
  requester : Nat
  node : BitVec 16
  deriving DecidableEq, Repr

/-- An entry of the safety change log: number, action and its 128 bytes (R300). -/
structure SafetyEntry where
  seq : Nat
  action : Nat
  bytes : List Byte
  deriving DecidableEq, Repr

/-- A safety change whose entry waits for the end of a brown-out warning: its action, and bytes 4 to 79 of the entry (R300, R461). -/
structure SafetyWait where
  action : Nat
  head : List Byte
  deriving DecidableEq, Repr

/-- An entry of the event log (R492), with its whole body; the first 16 bytes of the body are what MRAM keeps. -/
structure LogEntry where
  seq : Nat
  code : Nat
  severity : Nat
  deferred : Bool
  gap : Bool
  uptimeUs : Nat
  boot : Nat
  body : List Byte
  deriving DecidableEq, Repr

/-- What a command made the block send, drive or answer. -/
inductive Output where
  /-- a hop-control block handed to the lanes of a map, or where the rule lets any lane carry it, to the first of them that can -/
  | hop (g : GalIx) (lanes : BitVec 8) (h : Hop)
  /-- the driver of a lane is enabled and its tack burst starts, naming its rejoin sequence; the 128 blocks follow as blocks (R76) -/
  | tack (g : GalIx) (lane : LaneIx) (rejoinSeq : Nat)
  /-- a codeword leaving on a lane (R103) -/
  | codeword (g : GalIx) (lane : Nat) (bits : BitVec 5440)
  /-- a scrambled block leaving on a lane at a tread without FEC, or outside codewords: a tack block, or an idle block before the drive goes off (R73, R76) -/
  | block (g : GalIx) (lane : Nat) (b : Block)
  /-- an item leaving on a gallery -/
  | item (g : GalIx) (i : Item)
  /-- a basting train leaving on a gallery (R154) -/
  | train (g : GalIx) (blocks : Train)
  /-- the pattern of a qualification or of the generator on the lanes of a map (R135, R486) -/
  | prbs (g : GalIx) (lanes : BitVec 8)
  /-- the transmitter starts sending at a tread: idle and training blocks in the period structure (R123, R139) -/
  | sendAt (g : GalIx) (tread : Tread)
  /-- lanes of a map go to electrical idle, and the clock lane where `clk` (R73, R141, R180) -/
  | idle (g : GalIx) (lanes : BitVec 8) (clk : Bool)
  /-- the clock-lane preamble starts (R78) -/
  | preamble (g : GalIx)
  /-- the transmitter retunes to a tread (R139) -/
  | retune (g : GalIx) (tread : Tread)
  /-- a condition or byte sequence on port L (R329) -/
  | portL (bs : List (BitVec 9))
  /-- bytes a port M master reads (R399, R404, R405) -/
  | portM (bs : List Byte)
  /-- an SMBus write the device sends as master on port M: address and bytes (R412, R413) -/
  | portMSend (addr : Nat) (bs : List Byte)
  /-- acknowledge or refuse on port M -/
  | portMAck (ok : Bool)
  /-- bits shifted out of TDO, first in bit 0, with their number (R480) -/
  | tdo (n v : Nat)
  /-- a port L recovery clocks this many pulses (R418) -/
  | portLPulses (n : Nat)
  deriving DecidableEq, Repr

/-- Who holds ring 12 and since when it has not been read (R385, R494). -/
structure StreamHold where
  host : HostId
  src : BitVec 16
  minSev : Nat
  lastRead : Nat
  deriving DecidableEq, Repr


/-! ### Clocks -/

/-- A clock switch asked for and not complete (R431, R432): the island, whether to its run clock, the incoming clock, and since when. -/
structure SwitchReq where
  island : Nat
  toRun : Bool
  incoming : RefSrc
  at_ : Nat
  deriving DecidableEq, Repr

/-- A gate asked to close (R440): the island, or 22 for the bridge and 23 for port L, and since when. -/
structure GateReq where
  unit : Nat
  at_ : Nat
  deriving DecidableEq, Repr

/-! ### Bridge and port L -/

/-- A posted write accepted and not complete (R326), named by a number of its own, with its place in the order of arrival. -/
structure PostedWrite where
  id : Nat
  asker : Asker
  address : Nat
  count : Nat
  store : Bool
  arrival : Nat
  deriving DecidableEq, Repr

/-- An entry of the late-error log (R327). -/
structure LateErr where
  src : BitVec 16
  e2e : BitVec 32
  address : Nat
  reason : Nat
  gallery : Nat
  count : Nat
  uptimeUs : Nat
  deriving DecidableEq, Repr

/-- Failed posted writes of a source since its previous sync, and whether the count is incomplete (R328). -/
structure SyncRec where
  src : BitVec 16
  failures : Nat
  evicted : Bool
  deriving DecidableEq, Repr

/-- A prefetch buffer: source, address of its first byte, bytes, and when it was filled (R333). -/
structure Prefetch where
  src : BitVec 16
  addr : Nat
  bytes : List Byte
  at_ : Nat
  deriving DecidableEq, Repr

/-- The outstanding request of `bridge.remote` (R325): its tag, the ring whose command waits, whether it reads, how many bytes, and the data come so far. -/
structure RemoteReq where
  tag : Nat
  ring : Nat
  read : Bool
  count : Nat
  got : List Byte
  deriving DecidableEq, Repr

/-- A locked sequence (R331): holder, address of its last read, gallery, and when its first read completed, none before. -/
structure LockSeq where
  src : BitVec 16
  address : Nat
  since : Option Nat
  deriving DecidableEq, Repr

/-- A port L request that waits for the bus (R329, R331): who asked, the posted write it is, the access with its window's settings, its data in address order, the arbitrations lost, and since when. -/
structure PlReq where
  asker : Asker
  posted : Option Nat
  read : Bool
  lock : Bool
  address : Nat
  count : Nat
  elem : Nat
  swap : Nat
  unit : Nat
  ptrWidth : Nat
  data : List Byte
  losses : Nat
  at_ : Nat
  deriving DecidableEq, Repr

/-! ### Mailboxes -/

/-- A lease holder (R353): a host, with its source for an in-band host. -/
structure Holder where
  host : HostId
  src : BitVec 16
  deriving DecidableEq, Repr

/-- A submitted command frame: its bytes, the time of its doorbell, its source and gallery, and its place in the order in which things entered the device (R266, R343). -/
structure Submitted where
  bytes : List Byte
  at_ : Nat
  src : BitVec 16
  gallery : Option GalIx
  arrival : Nat
  deriving DecidableEq, Repr

/-- A response frame, for whom it is kept, and when it was written (R343). -/
structure Response where
  bytes : List Byte
  src : BitVec 16
  at_ : Nat
  deriving DecidableEq, Repr

/-- A waiting command: opcode, request, when it was dispatched, its limit, and the place of its frame in the order of arrival (R328, R350, R371). -/
structure Waiting where
  op : Nat
  req : Req
  at_ : Nat
  due : Nat
  mark : Nat := 0
  deriving DecidableEq, Repr

/-- A staged change (R357). -/
structure Staged where
  token : BitVec 32
  op : Nat
  req : Req
  deriving DecidableEq, Repr

/-! ### Firmware slots and update -/

/-- States of a slot record (R473). -/
inductive SlotState where
  | erased | writing | committing | trial | confirmed | invalid
  deriving DecidableEq, Repr

/-- States of `update.status` (R476). -/
inductive UpdState where
  | idle | receiving | verified | committed
  deriving DecidableEq, Repr

/-- Levels of the strap balls (R509), as sampled at the release of power-on reset or RESET_N. -/
structure Straps where
  /-- BOOT_MODE[1:0]. Chapter 01 R41; reset value: note 5. -/
  bootMode : BitVec 2 := 0#2
  /-- ADDR[2:0]. Chapter 13 R396; reset value: note 5. -/
  addr : BitVec 3 := 0#3
  /-- REF_MODE: false crystal, true external. Chapter 14 R427, 18 R509; reset value: note 5. -/
  refMode : Bool := false
  /-- OSC_WAIT[1:0]. Chapter 14 R428; reset value: note 5. -/
  oscWait : BitVec 2 := 0#2
  deriving DecidableEq, Repr

/-- Input pins. -/
structure Pins where
  /-- RESET_N is low, until this time; high at reset. Chapter 15 R454; reset value: note 6. -/
  resetNLow : Option Nat := none
  /-- WAKE_N is low until this time; high at reset. Chapter 15 R447, R450; reset value: note 6. -/
  wakeLow : Nat := 0
  /-- level of LOCKOUT_CLR_N. Chapter 09 R295; reset value: note 6. -/
  clrN : Bool := true
  /-- TEST_MODE: tied to VSS. Chapter 18 R509; reset value: note 6. -/
  testMode : Bool := false
  /-- the strap levels on the board, sampled at the next release of reset. Chapter 18 R509; reset value: note 5. -/
  straps : Straps := {}
  /-- the board supplies VIO at 3.3 V rather than 1.8 V. Chapter 18 R513; reset value: note 5. -/
  vio33 : Bool := false
  deriving DecidableEq, Repr

/-- An entry to P2 or P3 in progress (R447), between dispatch and its point of no return. -/
structure PowerEntry where
  /-- 2 for P2, 3 for P3. Chapter 15 R447. -/
  target : Nat := 2
  /-- dispatch time; the drain lasts up to 2 ms. Chapter 15 R447. -/
  startedAt : Nat := 0
  /-- a monitor trip in class safe or lock-out, or an order toward safe, since dispatch. Chapter 15 R447, 01 R40. -/
  safetyArose : Bool := false
  deriving DecidableEq, Repr

/-- Power state, resets, boot phase, brown-out. -/
structure PowerUnit where
  /-- rail up: VDD, VDDA, VDDT, VDDM, VIO, VDRAM (bit 0 to 5); power-on reset releases after every rail is up. Chapter 15 R453. -/
  rails : BitVec 6 := 0b111111#6
  /-- what holds the device in reset: power-on reset, RESET_N or an EXTEST hold. Chapter 15 R454, 16 R481. -/
  inReset : Option ResetHold := none
  /-- the boot follows a power-on reset, and has not yet counted it. Chapter 15 R456. -/
  cold : Bool := true
  /-- P0, P2 or P3 (P1 is P0 with a non-empty idle mask). Chapter 15 R446. -/
  pstate : PState := .p0
  /-- when the power state was entered. Chapter 12 R383. -/
  since : Nat := 0
  /-- entry to P2 or P3 in progress. Chapter 15 R447. -/
  entry : Option PowerEntry := none
  /-- straps sampled at the last release of reset. Chapter 15 R454; reset value: note 5. -/
  sampled : Straps := {}
  /-- the VIO pad banks drive for 3.3 V, as sensed when power-on reset released. Chapter 18 R513; reset value: note 5. -/
  vioRange : Bool := false
  /-- the OSC_WAIT delay runs (after power-on reset or a wake from P3). Chapter 14 R428, 15 R456. -/
  oscWaiting : Bool := true
  /-- when the boot began (release of reset). Chapter 15 R456. -/
  bootAt : Nat := 0
  /-- the boot sequencer is done: the device has left BOOT. Chapter 01 R34, 15 R456. -/
  seqDone : Bool := false
  /-- time of the last power-on reset: uptime counts from it. Chapter 09 R300. -/
  porAt : Nat := 0
  /-- after P2 exit the Cutter waits until this time or until heldGalleries are ACTIVE. Chapter 15 R450. -/
  cutterHold : Option Nat := none
  /-- galleries that were ACTIVE at entry to P2. Chapter 15 R450. -/
  heldGalleries : BitVec 8 := 0#8
  /-- galleries held in RESET by P2, to enter DETECT at exit. Chapter 15 R447, R450. -/
  p2Held : BitVec 8 := 0#8
  /-- a brown-out warning in force, since when. Chapter 15 R460. -/
  brownout : Option Nat := none
  /-- the warning has lasted 10 ms. Chapter 15 R462. -/
  brownSustained : Bool := false
  /-- the clock enables that were set at entry to P2. Chapter 15 R448, R450. -/
  p2Gates : BitVec 24 := 0#24
  /-- a system.reset answered OK: the reset follows 1 ms later. Chapter 12 R374. -/
  resetDue : Option Nat := none
  /-- the correction store was retained across the last reset. Chapter 01 R19, 15 R459. -/
  storeRetained : Bool := false
  deriving DecidableEq, Repr

/-- One REFOUT output (R441, R442), live. -/
structure RefOut where
  /-- the output has been enabled. Chapter 14 R442. -/
  enabled : Bool := false
  /-- its synthesiser has locked and the output runs. Chapter 14 R442. -/
  locked : Bool := false
  /-- depth code in use. Chapter 14 R441. -/
  depth : BitVec 4 := 0#4
  /-- modulation rate in use, kHz. Chapter 14 R441. -/
  rate : BitVec 8 := 32#8
  deriving DecidableEq, Repr

/-- Reference of one side. -/
structure SideRef where
  /-- running reference; primary after reset (R70), crystal under REF_MODE crystal. Chapter 14 R435, R436. -/
  running : RefSrc := .xin
  /-- the side has no reference and waits for one. Chapter 14 R436. -/
  waiting : Bool := false
  /-- galleries affected by the loss that SAFE still waits for. Chapter 01 R35. -/
  affected : BitVec 8 := 0#8
  /-- clock.ref_lost has been raised for this loss. Chapter 14 R436. -/
  reported : Bool := false
  /-- when the transmit PLL of the side last locked. Chapter 01 R35, 14 R436. -/
  backAt : Nat := 0
  deriving DecidableEq, Repr

/-- Clock supervisor (R427 to R445). -/
structure ClockUnit where
  /-- clock enables of islands 0 to 21, bridge (22) and port L (23); only the always-on island after reset. Chapter 14 R438. -/
  gateOn : BitVec 24 := 0x200000#24
  /-- the island's multiplexer selects its run clock (else its park clock). Chapter 14 R429, R438. -/
  onRun : BitVec 22 := 0x200000#22
  /-- when each island last came onto its run clock. Chapter 14 R443. -/
  runAt : Vector Nat 22 := Vector.replicate 22 0
  /-- islands held in local reset. Chapter 14 R432, R435. -/
  localReset : BitVec 22 := 0#22
  /-- requested clock switches not yet complete. Chapter 14 R431, R432. -/
  switching : List SwitchReq := []
  /-- gates asked to close, waiting for the unit to quiesce. Chapter 14 R440. -/
  closing : List GateReq := []
  /-- lock of the core, DRAM, North and South transmit PLL. Chapter 14 R430. -/
  pll : BitVec 4 := 0#4
  /-- REFCLK_A, REFCLK_B, XIN healthy. Chapter 14 R434. -/
  refHealthy : BitVec 3 := 0#3
  /-- reference declared lost. Chapter 14 R434. -/
  refLost : BitVec 3 := 0#3
  /-- North and South reference. Chapter 02 R70, 14 R436. -/
  sides : Vector SideRef 2 := Vector.replicate 2 {}
  /-- REFOUT0 and REFOUT1. Chapter 14 R441. -/
  refout : Vector RefOut 2 := Vector.replicate 2 {}
  /-- last completed gate of the meters of islands 0 to 21, REFCLK_A, REFCLK_B, XIN. Chapter 14 R443; reset value: note 7. -/
  meters : Vector (BitVec 32) 25 := Vector.replicate 25 0x80000000#32
  /-- factory trim in use because ZCAL reads out of range. Chapter 18 R521. -/
  zcalTrim : Bool := false
  /-- a REFCLK failure is being handled (SAFE_N low). Chapter 09 R291, 14 R435. -/
  refFailure : Bool := false
  deriving DecidableEq, Repr

/-- Settings of one lane (R84, R376). -/
structure LaneSet where
  /-- equalisation mode. Chapter 02 R64, R84. -/
  mode : EqMode := .adapt
  /-- VGA hold. Chapter 02 R84. -/
  vgaHold : Bool := false
  /-- polarity auto. Chapter 02 R84. -/
  polAuto : Bool := true
  /-- polarity invert, used when auto is off. Chapter 02 R84. -/
  polInvert : Bool := false
  /-- fixed CTLE peaking, dB. Chapter 02 R84. -/
  ctle : BitVec 8 := 0#8
  /-- fixed DFE taps 1 to 12, signed. Chapter 02 R84. -/
  taps : List Byte := List.replicate 12 0#8
  /-- fixed floating positions, 0 disabled. Chapter 02 R84. -/
  fpos : List Byte := List.replicate 4 0#8
  /-- fixed floating tap values, signed. Chapter 02 R84. -/
  fval : List Byte := List.replicate 4 0#8
  /-- fixed transmit coefficients, none means negotiated. Chapter 02 R58, R84. -/
  coef : Option Coef := none
  /-- swing code 0 to 4, 500 to 900 mVppd. Chapter 02 R57. -/
  swing : BitVec 8 := 4#8
  deriving DecidableEq, Repr

/-- Live settings of one gallery. -/
structure GalSet where
  /-- provisioning. Chapter 02 R82, R84. -/
  prov : Bool := true
  /-- transmit tread ceiling. Chapter 04 R157. -/
  txCeil : Tread := 5
  /-- receive tread ceiling. Chapter 04 R157. -/
  rxCeil : Tread := 5
  /-- FEC at T3. Chapter 04 R157. -/
  t3fec : Bool := true
  /-- automatic step-down. Chapter 04 R157. -/
  stepDown : Bool := true
  /-- re-climb. Chapter 04 R157. -/
  reclimb : Bool := true
  /-- width floor. Chapter 04 R157. -/
  floor : Nat := 2
  /-- start presets of T0 to T5. Chapter 02 R56, R84. -/
  presets : List Nat := [0, 0, 0, 3, 4, 7]
  /-- credit lending, for the next ACTIVATE. Chapter 06 R203, R219. -/
  lending : Bool := true
  /-- credit split, for the next ACTIVATE. Chapter 06 R200. -/
  quotas : PerClass Nat := ⟨1024, 256, 128, 128⟩
  /-- idle mask of the transmit direction, by physical lane. Chapter 02 R72. -/
  idleMask : BitVec 8 := 0#8
  /-- the idle mask also stops the clock lane. Chapter 02 R72. -/
  stopClock : Bool := false
  /-- lane settings. Chapter 02 R84. -/
  lanes : Vector LaneSet 8 := Vector.replicate 8 {}
  deriving DecidableEq, Repr

/-- Cutter settings of one region (R232). -/
structure RegionSet where
  /-- false gap, true safe image. Chapter 07 R232. -/
  dropTo : Bool := false
  /-- automatic, A only, B only. Chapter 07 R232. -/
  selMode : BitVec 2 := 0#2
  /-- pinned South galleries. Chapter 07 R232. -/
  egressPin : Option (BitVec 4) := none
  /-- site pin. Chapter 07 R232. -/
  sitePin : SitePin := .none
  /-- no-mirror pin. Chapter 07 R232. -/
  noMirror : Bool := false
  deriving DecidableEq, Repr

/-- One event sink (R335). -/
structure Sink where
  /-- enable. Chapter 10 R335. -/
  enable : Bool := false
  /-- minimum severity. Chapter 10 R335. -/
  minSev : Nat := 0
  /-- node ID. Chapter 10 R335. -/
  node : BitVec 16 := 0#16
  deriving DecidableEq, Repr

/-- Every live setting (R457), what a profile carries. -/
structure Live where
  /-- gallery and lane settings. Chapter 15 R457. -/
  gal : Vector GalSet 8 := Vector.replicate 8 {}
  /-- placement mode. Chapter 07 R233. -/
  cutMode : CutMode := .off
  /-- region settings and pins; an unlisted region has the defaults. Chapter 07 R232. -/
  regions : SMap RegionSet := []
  /-- application mode of a region: true double-buffered, unlisted in place. Chapter 08 R263. -/
  appMode : SMap Bool := []
  /-- own node ID. Chapter 10 R307. -/
  node : BitVec 16 := 0#16
  /-- routing table; an unlisted entry is 0 (invalid). Chapter 10 R312. -/
  routes : SMap (BitVec 64) := []
  /-- address windows. Chapter 10 R319. -/
  windows : Vector (BitVec 128) 16 := #v[0x402C000000000000#128, 0x4968000000010000#128, 0x43BA000040000000#128, 0x144F7000080000000#128, 0x4008000000000000#128, 0x4008000000000000#128, 0x4008000000000000#128, 0x4008000000000000#128, 0x4008000000000000#128, 0x4008000000000000#128, 0x4008000000000000#128, 0x4008000000000000#128, 0x4008000000000000#128, 0x4008000000000000#128, 0x4008000000000000#128, 0x4008000000000000#128]
  /-- event sinks; none registered. Chapter 10 R335. -/
  sinks : Vector Sink 4 := Vector.replicate 4 {}
  /-- completion timeout of bridge.remote in 0.1 ms. Chapter 10 R325. -/
  remoteTimeout : Nat := 20
  /-- PEC required on port M. Chapter 13 R403, R425. -/
  twPec : Bool := true
  /-- attention: off, SDA-low, Host Notify. Chapter 13 R411, R425. -/
  twAttn : Nat := 0
  /-- host address. Chapter 13 R413, R425. -/
  twHost : BitVec 8 := 0x08#8
  /-- digital filter samples. Chapter 13 R423, R425. -/
  twFilter : Nat := 5
  /-- port L speed. Chapter 13 R416, R425. -/
  twlSpeed : Nat := 0
  /-- stretch limit in 0.1 ms. Chapter 13 R416, R425. -/
  twlStretch : Nat := 100
  /-- primary reference of N and S: the crystal under REF_MODE crystal, REFCLK_A under external. Chapter 02 R70, 14 R445. -/
  refPrimary : Vector RefSrc 2 := Vector.replicate 2 .xin
  /-- backup reference. Chapter 02 R70, 14 R445. -/
  refBackup : Vector (Option RefSrc) 2 := Vector.replicate 2 none
  /-- REFOUT enable. Chapter 14 R441, R445. -/
  refoutOn : Vector Bool 2 := Vector.replicate 2 false
  /-- REFOUT depth. Chapter 14 R445. -/
  refoutDepth : Vector (BitVec 4) 2 := Vector.replicate 2 0#4
  /-- REFOUT rate. Chapter 14 R445. -/
  refoutRate : Vector (BitVec 8) 2 := Vector.replicate 2 32#8
  deriving DecidableEq, Repr

/-- Live equalisation of a receive lane (R84, R376). -/
structure EqLive where
  /-- live CTLE peaking. Chapter 02 R59, R85. -/
  ctle : Nat := 0
  /-- live VGA gain. Chapter 02 R60, R376. -/
  vga : BitVec 8 := 0#8
  /-- live fixed taps. Chapter 02 R61. -/
  taps : List Int := List.replicate 12 0
  /-- live floating positions, 0 disabled. Chapter 02 R62. -/
  fpos : List Nat := List.replicate 4 0
  /-- live floating tap values. Chapter 02 R61. -/
  fval : List Int := List.replicate 4 0
  /-- sampling phase 0 to 63. Chapter 02 R53. -/
  phase : Nat := 0
  /-- alignment FIFO offset. Chapter 02 R53, 17 R501. -/
  fifo : Int := 0
  deriving DecidableEq, Repr

/-- One data lane of a gallery, both directions. -/
structure Lane where
  /-- RETIRED (both directions use it). Chapter 05 R177. -/
  retired : Bool := false
  /-- transmit lane RETIRED by the far end. Chapter 05 R177. -/
  retiredTx : Bool := false
  /-- receive lane MISWIRED. Chapter 02 R68. -/
  miswired : Bool := false
  /-- far termination found on the transmit pair. Chapter 04 R123. -/
  termination : Bool := false
  /-- receive polarity inversion. Chapter 02 R67, R85. -/
  inverted : Bool := false
  /-- blocks looked at for polarity after lock, up to 64. Chapter 02 R67. -/
  polSeen : Nat := 0
  /-- of them, header 0b01 with first byte 0xE1 or 0xD2. Chapter 02 R67. -/
  polInv : Nat := 0
  /-- of them, header 0b10 with first byte 0x1E or 0x2D. Chapter 02 R67. -/
  polNorm : Nat := 0
  /-- receive descrambler history. Chapter 03 R88. -/
  scram : BitVec 58 := 0#58
  /-- transmit scrambler, seeded with all ones. Chapter 03 R88. -/
  txScram : BitVec 58 := 0x3FFFFFFFFFFFFFF#58
  /-- equalisation mode in force. Chapter 02 R65. -/
  modeNow : EqMode := .adapt
  /-- VGA hold in force. Chapter 02 R65. -/
  vgaHoldNow : Bool := false
  /-- live equalisation. Chapter 02 R84. -/
  live : EqLive := {}
  /-- per tread: saved receive values and eye area. Chapter 04 R134. -/
  saved : SMap Saved := []
  /-- per tread: coefficients last qualified. Chapter 04 R134. -/
  txSaved : SMap Coef := []
  /-- coefficients now sent. Chapter 02 R55. -/
  coef : Coef := {}
  /-- transmit side: last EQ_REQ count applied. Chapter 04 R132. -/
  reqCount : Nat := 0
  /-- receive side: count of the request outstanding. Chapter 04 R132. -/
  eqCount : Nat := 0
  /-- equalisation search. Chapter 04 R133. -/
  search : EqSearch := .idle
  /-- block-lock state. Chapter 03 R110. -/
  block : BlockLock := .hunt
  /-- valid headers counted in HUNT. Chapter 03 R110. -/
  hdrRun : Nat := 0
  /-- invalid marks of the last 64 headers. Chapter 03 R110. -/
  hdrHist : BitVec 64 := 0#64
  /-- marker lock. Chapter 03 R111. -/
  mkLock : Bool := false
  /-- consecutive good deskew markers toward lock. Chapter 03 R111. -/
  mkCount : Nat := 0
  /-- blocks received since the last deskew marker. Chapter 03 R111. -/
  mkGap : Nat := 0
  /-- consecutive missing markers. Chapter 03 R111, R112. -/
  mkMiss : Nat := 0
  /-- codeword-lock state. Chapter 03 R112. -/
  cw : CwLock := .hunt
  /-- uncorrectable marks of the last 8,192 codewords, newest first. Chapter 03 R112. -/
  cwHist : List Bool := []
  /-- a codeword withheld from the walk, with the slots its time gave the read side of the seam buffer. Chapter 05 R161. -/
  withheld : Option (BitVec 5440 × List Nat) := none
  /-- next sequence expected. Chapter 03 R114. -/
  expectSeq : Option Nat := none
  /-- consecutive sequence errors. Chapter 03 R114. -/
  seqErr : Nat := 0
  /-- src_gallery and src_side of the first codeword after lock. Chapter 03 R105. -/
  firstSrc : Option (BitVec 3) := none
  /-- seam buffer fill; centred at 16. Chapter 03 R117. -/
  seam : Nat := 16
  /-- slots held in the deskew buffer with their keys, oldest first. Chapter 03 R115. -/
  deskew : List (Nat × Nat × SlotC) := []
  /-- slot of the next received block at non-FEC treads. Chapter 03 R107. -/
  rxSlot : Nat := 0
  /-- marker period being received. Chapter 03 R107. -/
  rxSeq : Nat := 0
  /-- its marker carried a wrong sequence: its slots are errored. Chapter 03 R114. -/
  badPeriod : Bool := false
  /-- first period of the striping announced and not yet received. Chapter 04 R140. -/
  startSeq : Option Nat := none
  /-- receive lane failed and not yet rejoined. Chapter 05 R164. -/
  failed : Bool := false
  /-- reason of the last failure. Chapter 05 R163. -/
  darnReason : Nat := 0
  /-- last good codeword or marker sequence. Chapter 05 R164. -/
  lastGood : Nat := 0
  /-- last good slot. Chapter 05 R166. -/
  lastSlot : Nat := 76
  /-- announced last sequence of an idle entry. Chapter 02 R73. -/
  idleNote : Option Nat := none
  /-- receive lane out of striping as planned. Chapter 02 R73. -/
  rxIdle : Bool := false
  /-- VGA gain as last measured. Chapter 02 R60. -/
  sampled : BitVec 8 := 0#8
  /-- tack burst being received. Chapter 02 R76, 03 R95. -/
  tack : TackState := {}
  /-- when the lane last rejoined. Chapter 05 R177. -/
  rejoinedAt : Option Nat := none
  /-- times of the failed rejoins of the last 10 minutes. Chapter 05 R177. -/
  failTimes : List Nat := []
  /-- residual correlations of positions 13 to 44 as last measured. Chapter 02 R62. -/
  residuals : List Int := []
  /-- when the next attempt on the darned lane may start. Chapter 05 R174, R177. -/
  nextTry : Option Nat := none
  /-- transmit lane in electrical idle. Chapter 02 R85. -/
  txIdle : Bool := false
  /-- rejoin sequence of a waking transmit lane. Chapter 02 R76. -/
  txWaking : Option Nat := none
  /-- period at whose start the transmit lane leaves striping for idle. Chapter 02 R73. -/
  txLeaving : Option Nat := none
  /-- idle blocks it has still to send before its drive goes off. Chapter 02 R73. -/
  txDrain : Nat := 0
  /-- slot count at the lane's last idle block. Chapter 03 R109. -/
  txIdleAt : Nat := 0
  /-- slot counts of the limited hop-control blocks of the last 1,024 slots. Chapter 03 R109. -/
  txHopAt : List Nat := []
  /-- slot count at the lane's last block of subtypes 0x30 to 0x36. Chapter 06 R205. -/
  txCreditAt : Option Nat := none
  /-- transmit lane dropped by a loss report. Chapter 05 R168. -/
  txFailed : Bool := false
  /-- coefficients the far end last echoed. Chapter 04 R132. -/
  farCoef : Coef := {}
  /-- the far end has sent done for this transmit lane. Chapter 04 R133. -/
  txDone : Bool := false
  /-- CTLE peaking of the best setting found. Chapter 04 R133. -/
  peak : Nat := 0
  /-- eye area of the best setting found. Chapter 04 R133. -/
  area : Nat := 0
  /-- loop: none, near-end serial, near-end parallel, far-end. Chapter 17 R485. -/
  loop : Nat := 0
  /-- pattern generator and checker. Chapter 17 R486, R487. -/
  prbs : Prbs := {}
  /-- last completed scan of each eye. Chapter 17 R489. -/
  eyes : SMap EyeScan := []
  /-- phys_lane number heard in the exchange. Chapter 04 R128, 02 R68. -/
  heard : Option Nat := none
  /-- last CAP received on the lane. Chapter 04 R128. -/
  heardCap : Option Cap := none
  deriving DecidableEq, Repr

/-- Receiving end of the credits of a gallery direction. -/
structure CreditRx where
  /-- split in force. Chapter 06 R200. -/
  quotas : PerClass Nat := ⟨1024, 256, 128, 128⟩
  /-- lending in force. Chapter 06 R203. -/
  lending : Bool := true
  /-- received_c modulo 2^20. Chapter 06 R202. -/
  received : PerClass Nat := ⟨0, 0, 0, 0⟩
  /-- stored_c, bytes. Chapter 06 R202. -/
  stored : PerClass Nat := ⟨0, 0, 0, 0⟩
  /-- advertised limit_c, credits modulo 4,096. Chapter 06 R202. -/
  limit : PerClass Nat := ⟨0, 0, 0, 0⟩
  /-- message class busy. Chapter 06 R203. -/
  busy : PerClass Bool := ⟨true, false, false, false⟩
  /-- demand bits heard from the far end. Chapter 06 R204. -/
  demand : PerClass Bool := ⟨false, false, false, false⟩
  /-- since when a class has no demand and nothing stored. Chapter 06 R203. -/
  quietAt : PerClass Nat := ⟨0, 0, 0, 0⟩
  /-- limits as last sent in a credit block. Chapter 06 R205. -/
  sentLimit : PerClass Nat := ⟨0, 0, 0, 0⟩
  /-- when a limit of CREDIT_A last advanced without the block being sent. Chapter 06 R205. -/
  advancedA : Option Nat := none
  /-- when a limit of CREDIT_B last advanced without the block being sent. Chapter 06 R205. -/
  advancedB : Option Nat := none
  /-- SENT values last received. Chapter 06 R206. -/
  seenSent : PerClass Nat := ⟨0, 0, 0, 0⟩
  /-- when both credit blocks last went out by the 10 us rule. Chapter 06 R205. -/
  refreshAt : Option Nat := none
  /-- received_c over the periods before the one being walked. Chapter 06 R206. -/
  base : PerClass Nat := ⟨0, 0, 0, 0⟩
  deriving DecidableEq, Repr

/-- Transmitting end of the credits of a gallery direction. -/
structure CreditTx where
  /-- sent_c modulo 2^20. Chapter 06 R201. -/
  sent : PerClass Nat := ⟨0, 0, 0, 0⟩
  /-- limit_c received. Chapter 06 R201. -/
  limit : PerClass Nat := ⟨0, 0, 0, 0⟩
  /-- demand bits sent. Chapter 06 R201, R204. -/
  demand : PerClass Bool := ⟨false, false, false, false⟩
  /-- quota_px of the far end's INFO. Chapter 06 R204. -/
  farQuotaPx : Nat := 0
  /-- reach_px of the far end's INFO. Chapter 06 R204. -/
  farReachPx : Nat := 0
  /-- last probe_id sent. Chapter 06 R211. -/
  probeId : Nat := 0
  /-- when the outstanding PROBE was sent. Chapter 06 R211. -/
  probeAt : Option Nat := none
  /-- measured round trip in units of 10 ns, 0 before the first measurement. Chapter 06 R211. -/
  rtt : Nat := 0
  /-- message bytes sent in this 100 us window. Chapter 06 R199. -/
  budgetUsed : Nat := 0
  /-- start of that window. Chapter 06 R199. -/
  budgetAt : Nat := 0
  /-- over budget: the next parcel is a PX. Chapter 06 R199. -/
  alternate : Bool := false
  /-- sent_c over the periods before the one being sent. Chapter 06 R206. -/
  before : PerClass Nat := ⟨0, 0, 0, 0⟩
  /-- when SENT last went out. Chapter 06 R206. -/
  sentAt : Option Nat := none
  /-- when PROBE last went out. Chapter 06 R211. -/
  probedAt : Option Nat := none
  /-- last probe_id answered. Chapter 06 R211. -/
  echoedId : Option Nat := none
  deriving DecidableEq, Repr

/-- Receive direction of a gallery. -/
structure RxDir where
  /-- training state; reads 0x0, RESET, after reset. Chapter 04 R121, R158. -/
  ts : TrainState := .reset
  /-- when the state was entered. Chapter 04 R121. -/
  at_ : Nat := 0
  /-- current tread, none before T0 is reached. Chapter 04 R158. -/
  tread : Option Tread := none
  /-- FEC on at the current tread. Chapter 04 R158. -/
  fec : Bool := false
  /-- by logical position: lanes still taking part in training. Chapter 04 R158. -/
  lanes : BitVec 8 := 0#8
  /-- active set. Chapter 03 R107, 05 R182. -/
  active : BitVec 8 := 0#8
  /-- lanes it trained with. Chapter 02 R86. -/
  trained : Nat := 0
  /-- target. Chapter 04 R129. -/
  target : Option Tread := none
  /-- first tread of this training. Chapter 04 R138. -/
  first : Tread := 0
  /-- requested tread of a re-step. Chapter 04 R142. -/
  goal : Option Tread := none
  /-- last tread qualified and its lanes. Chapter 04 R138. -/
  prev : Option (Tread × Nat) := none
  /-- stepping up, falling back or stepping down. Chapter 04 R138, R142. -/
  mode : StepMode := .up
  /-- treads fallen back from in this training. Chapter 04 R138. -/
  fell : List Tread := []
  /-- width floor of the direction. Chapter 04 R129. -/
  floor : Nat := 2
  /-- settled below target. Chapter 04 R158. -/
  below : Bool := false
  /-- reason of the last failure. Chapter 04 R158. -/
  lastFail : BitVec 4 := 0#4
  /-- clock-lane lock. Chapter 02 R51. -/
  clkLock : Bool := false
  /-- clock-lane frequency as last checked, ppm from nominal. Chapter 02 R51, 17 R500. -/
  freqPpm : Int := 0
  /-- QUAL countdown heard. Chapter 04 R135. -/
  countdown : Nat := 0
  /-- qualification pattern running. Chapter 04 R135. -/
  prbsOn : Bool := false
  /-- far clock lane announced stopped. Chapter 02 R52, 14 R433. -/
  clkStopped : Bool := false
  /-- boundary of an announced clock stop. Chapter 02 R73. -/
  clkStopSeq : Option Nat := none
  /-- receive mapping reversed. Chapter 02 R68. -/
  reversed : Bool := false
  /-- STEP heard, waiting for its boundary. Chapter 04 R139. -/
  stepTo : Option StepBlk := none
  /-- RESULT being sent. Chapter 04 R137. -/
  result : Option ResultBlk := none
  /-- sequence of the next key to walk. Chapter 03 R108. -/
  walkSeq : Nat := 0
  /-- slot of the next key to walk. Chapter 03 R108. -/
  walkSlot : Nat := 0
  /-- clock-lane activity seen in DETECT. Chapter 04 R123. -/
  activity : Bool := false
  /-- changes of the active set due at the start of a period. Chapter 03 R107. -/
  nextActive : List (Nat × BitVec 8) := []
  /-- walk held, discarding until REPLAY. Chapter 05 R164. -/
  held : Bool := false
  /-- sequence of the held key. Chapter 05 R164. -/
  heldSeq : Nat := 0
  /-- slot of the held key. Chapter 05 R164. -/
  heldSlot : Nat := 0
  /-- the direction stepped down under R143. Chapter 04 R146. -/
  steppedDown : Bool := false
  /-- id of the last loss report sent. Chapter 05 R166. -/
  reportId : Nat := 0
  /-- when it was sent. Chapter 05 R166. -/
  reportAt : Nat := 0
  /-- last good sequence it names. Chapter 05 R166. -/
  lossGood : Nat := 0
  /-- last good slot it names. Chapter 05 R166. -/
  lossSlot : Nat := 0
  /-- parcel being reassembled. Chapter 03 R99, R100. -/
  open_ : Option OpenParcel := none
  /-- basting train being reassembled. Chapter 04 R152. -/
  basting : Train := []
  /-- reassembled stream items not yet taken. Chapter 03 R108. -/
  arrived : List RxItem := []
  /-- valid hop-control blocks not yet taken, with their lane's position and their period. Chapter 03 R92. -/
  hopIn : List (Nat × Nat × Hop) := []
  /-- errors in the current 100 ms window. Chapter 04 R143. -/
  winErr : Nat := 0
  /-- start of that window. Chapter 04 R143. -/
  winAt : Nat := 0
  /-- darnings of the last 10 s, each with its lane's logical position. Chapter 04 R143, 05 R179. -/
  darnTimes : List (Nat × Nat) := []
  /-- since when a stepped-down direction had no trigger. Chapter 04 R146. -/
  quietSince : Option Nat := none
  /-- req_id of the last RETRAIN sent. Chapter 04 R144. -/
  reqId : Nat := 0
  /-- background retraining attempt. Chapter 05 R174. -/
  attempt : Attempt := {}
  /-- count of LANE_CHECK requests. Chapter 05 R175. -/
  checkId : Nat := 0
  /-- reason of the re-step under way. Chapter 12 R393. -/
  stepReason : BitVec 4 := 0#4
  /-- tread before the re-step. Chapter 12 R393. -/
  oldTread : Option Tread := none
  /-- what QUALIFY measured of each physical lane, kept through REPORT. Chapter 04 R137. -/
  qual : List LaneQual := []
  /-- lanes that QUALIFY passed and REPORT has still to find in lock and in deskew. Chapter 04 R137. -/
  pass : BitVec 8 := 0#8
  /-- by the lanes passed the attempt fails for width (reason 0x7). Chapter 04 R138, R141. -/
  doomed : Bool := false
  /-- lane that a REJOIN adds, and its period. Chapter 05 R176. -/
  rejoin : Option (Nat × Nat) := none
  /-- holes of the walk that a REPLAY has closed and the walk has still to pass. Chapter 05 R169, R170. -/
  jumps : List Jump := []
  /-- SENT blocks whose period the walk has not reached. Chapter 06 R206. -/
  sentWait : List (Nat × Hop) := []
  deriving DecidableEq, Repr

/-- Transmit direction of a gallery. -/
structure TxDir where
  /-- training state; reads 0x0, RESET, after reset. Chapter 04 R121, R158. -/
  ts : TrainState := .reset
  /-- when the state was entered. Chapter 04 R121. -/
  at_ : Nat := 0
  /-- transmitter started in DETECT. Chapter 04 R123. -/
  started : Bool := false
  /-- current tread. Chapter 04 R158. -/
  tread : Option Tread := none
  /-- FEC on at the current tread. Chapter 04 R158. -/
  fec : Bool := false
  /-- lanes taking part in training. Chapter 04 R158. -/
  lanes : BitVec 8 := 0#8
  /-- active set. Chapter 03 R107. -/
  active : BitVec 8 := 0#8
  /-- lanes it trained with. Chapter 02 R86. -/
  trained : Nat := 0
  /-- target. Chapter 04 R129. -/
  target : Option Tread := none
  /-- first tread of this training. Chapter 04 R138. -/
  first : Tread := 0
  /-- requested tread of a re-step. Chapter 04 R142. -/
  goal : Option Tread := none
  /-- last tread qualified and its lanes. Chapter 04 R138. -/
  prev : Option (Tread × Nat) := none
  /-- stepping mode. Chapter 04 R138. -/
  mode : StepMode := .up
  /-- treads fallen back from. Chapter 04 R138. -/
  fell : List Tread := []
  /-- width floor. Chapter 04 R129. -/
  floor : Nat := 2
  /-- settled below target. Chapter 04 R158. -/
  below : Bool := false
  /-- reason of the last failure. Chapter 04 R158. -/
  lastFail : BitVec 4 := 0#4
  /-- clock lane stopped by the idle mask. Chapter 02 R73. -/
  clkIdle : Bool := false
  /-- clock-lane preamble being sent. Chapter 02 R78. -/
  preamble : Bool := false
  /-- woken by itself; the mask is unchanged. Chapter 02 R75. -/
  selfWoken : Bool := false
  /-- queues empty since. Chapter 02 R75. -/
  emptyAt : Option Nat := none
  /-- STEP announced, waiting for its boundary. Chapter 04 R139. -/
  stepTo : Option StepBlk := none
  /-- QUAL countdown in slots. Chapter 04 R135. -/
  countdown : Nat := 0
  /-- changes of the active set due at the start of a period. Chapter 03 R107. -/
  nextActive : List (Nat × BitVec 8) := []
  /-- periods sent since activation, saturating at 1,023. Chapter 05 R166. -/
  sentPeriods : Nat := 0
  /-- sequence of the period being sent. Chapter 03 R104, R94. -/
  seq : Nat := 0
  /-- next slot of the period. Chapter 03 R107. -/
  slot : Nat := 0
  /-- next logical position in the slot. Chapter 03 R108. -/
  lane : Nat := 0
  /-- slots sent since activation. Chapter 03 R109. -/
  slotNo : Nat := 0
  /-- cells of the slot being filled: position, block, stream block or not. Chapter 03 R108. -/
  cur : List (Nat × Block × Bool) := []
  /-- replay rings of the lanes, by slot, newest first. Chapter 05 R167. -/
  ring : List RingRow := []
  /-- rings frozen from a re-step's boundary. Chapter 04 R145. -/
  frozenRing : Bool := false
  /-- replayed stream blocks still to send. Chapter 05 R168. -/
  replay : List Block := []
  /-- superseded ranges and what replaced them. Chapter 05 R170. -/
  superseded : List Superseded := []
  /-- report_id last acted on. Chapter 05 R166. -/
  lastReport : Option Nat := none
  /-- RETRAIN held until both directions are ACTIVE. Chapter 04 R144. -/
  heldRetrain : Option RetrainBlk := none
  /-- req_id last answered. Chapter 04 R144. -/
  lastReq : Option Nat := none
  /-- check_id last answered. Chapter 05 R175. -/
  checkSeen : Option Nat := none
  /-- lane waiting for the side-band, and since when. Chapter 05 R176. -/
  readyWait : Option (Nat × Nat) := none
  /-- lane rejoining and its rejoin_seq. Chapter 05 R176. -/
  rejoining : Option (Nat × Nat) := none
  /-- hop-control blocks waiting for a slot, with their lane, or none where any lane may carry them. Chapter 02 R75, 03 R108. -/
  hopQueue : List (Option Nat × Hop) := []
  /-- hop-control blocks that go out again until something answers them. Chapter 04 R125, R131, 05 R166, R175, 06 R205. -/
  repeats : List Repeat := []
  /-- reason of the re-step under way. Chapter 12 R393. -/
  stepReason : BitVec 4 := 0#4
  /-- tread before the re-step. Chapter 12 R393. -/
  oldTread : Option Tread := none
  /-- lane that answers LANE_CHECK qualify, and what is left of its countdown. Chapter 05 R174. -/
  laneQual : Option (Nat × Nat) := none
  /-- end of the qualification pattern being sent. Chapter 04 R135. -/
  prbsUntil : Option Nat := none
  /-- blocks of the period being sent: slot, position, block. Chapter 03 R103. -/
  filled : List (Nat × Nat × Block) := []
  /-- boundary at which the clock lane stops. Chapter 02 R73. -/
  clkStopAt : Option Nat := none
  /-- when the clock-lane preamble began. Chapter 02 R78. -/
  preambleAt : Nat := 0
  /-- host STEP that waits for the other direction: tread and reason. Chapter 04 R142. -/
  heldStep : Option (Nat × Nat) := none
  /-- boundary of the re-step under way. Chapter 04 R142. -/
  reBoundary : Option Nat := none
  /-- basting store: released trains, each with the gallery it entered by. Chapter 04 R156. -/
  trains : List (Nat × Train) := []
  deriving DecidableEq, Repr

/-- One gallery (R46 to R220). -/
structure Gal where
  /-- provisioned off in force. Chapter 02 R82. -/
  off : Bool := false
  /-- held in RESET (not yet enabled, or its side without a reference). Chapter 04 R121, 14 R435. -/
  held : Bool := true
  /-- LOST and fenced, with the cause code. Chapter 05 R180. -/
  lost : Option Nat := none
  /-- in test hold. Chapter 12 R390. -/
  testHold : Bool := false
  /-- receive direction. Chapter 04 R121. -/
  rx : RxDir := {}
  /-- transmit direction. Chapter 04 R121. -/
  tx : TxDir := {}
  /-- data lanes, by physical number. Chapter 02 R84. -/
  lanes : Vector Lane 8 := Vector.replicate 8 {}
  /-- settings in force for the receive direction since its last training began. Chapter 02 R65, 04 R157. -/
  setRx : GalSet := {}
  /-- settings in force for the transmit direction since its last training began. Chapter 02 R57, R65, 04 R157. -/
  setTx : GalSet := {}
  /-- FEC at T3 agreed. Chapter 04 R129. -/
  fecT3 : Bool := false
  /-- last side-band value of code 0x1. Chapter 03 R106. -/
  side1 : BitVec 12 := 0#12
  /-- last side-band value of code 0x2. Chapter 03 R106. -/
  side2 : BitVec 12 := 0#12
  /-- corrected codewords since the last report of code 0x2. Chapter 03 R106. -/
  corrected : Nat := 0
  /-- consecutive failed attempts n. Chapter 04 R141. -/
  fails : Nat := 0
  /-- end of the backoff. Chapter 04 R141. -/
  backoffUntil : Option Nat := none
  /-- far CAP accepted. Chapter 04 R158. -/
  farCap : Option Cap := none
  /-- last valid far LANDING. Chapter 04 R158. -/
  farLanding : Option Landing := none
  /-- CAP on which the reporting lanes agree. Chapter 04 R128. -/
  agreedCap : Option Cap := none
  /-- since when CAP is sent with heard 1. Chapter 04 R128. -/
  heardAt : Option Nat := none
  /-- heard = 1 received. Chapter 04 R128. -/
  heardRx : Bool := false
  /-- flight of the gallery. Chapter 04 R130. -/
  flight : BitVec 16 := 0#16
  /-- landing number in that flight. Chapter 04 R130. -/
  landing : Option Nat := none
  /-- a landing number and flight have been taken since the last reset. Chapter 04 R131. -/
  landed : Bool := false
  /-- receive terminations connected. Chapter 02 R82, 04 R123. -/
  terminated : Bool := false
  /-- transmitters high impedance, as in reset. Chapter 02 R82, 15 R463. -/
  highZ : Bool := true
  /-- the credit term was the smaller one when the capacity was last reported. Chapter 06 R211. -/
  throttled : Bool := false
  /-- ingress stream queues. Chapter 01 R26, 06 R197. -/
  bobbin : PerClass (List QItem) := ⟨[], [], [], []⟩
  /-- egress stream queues. Chapter 06 R198. -/
  egress : PerClass (List QItem) := ⟨[], [], [], []⟩
  /-- receiving end credits. Chapter 06 R202. -/
  crx : CreditRx := {}
  /-- transmitting end credits. Chapter 06 R201. -/
  ctx : CreditTx := {}
  /-- expected position of a region on this ingress. Chapter 06 R212. -/
  expect : SMap ExpPos := []
  /-- wholeness of the frames of a region on this ingress. Chapter 07 R244. -/
  whole : SMap Whole := []
  /-- when the last incoming cut mark of a region was here. Chapter 09 R288. -/
  lastCut : SMap Nat := []
  /-- capacity reported for the transmit direction, 0.1 Gb/s. Chapter 04 R140, 06 R211. -/
  capTx : Nat := 0
  /-- capacity of the receive direction, 0.1 Gb/s. Chapter 04 R140. -/
  capRx : Nat := 0
  /-- regions whose own PX wait for their next cut mark here. Chapter 01 R36, 09 R288. -/
  mute : List Nat := []
  /-- every region waits for its next cut mark, after device SAFE or LOCKOUT. Chapter 01 R36. -/
  muteAll : Bool := false
  /-- regions whose cut mark has come since. Chapter 01 R36. -/
  unmuted : List Nat := []
  /-- last key sent of a region on this gallery. Chapter 07 R238, 09 R288. -/
  sentKey : SMap Nat := []
  /-- when the announcements were last repeated. Chapter 07 R226. -/
  annAt : Option Nat := none
  /-- announcement, claim and driver-fault parcels received and not yet read. Chapter 07 R225, 09 R285. -/
  toCutter : List Parcel := []
  deriving DecidableEq, Repr

/-- One Hall input port. -/
structure PortState where
  /-- the parcel crossing and the outputs its current cell has reached. Chapter 06 R195. -/
  cur : Option HallXfer := none
  deriving DecidableEq, Repr

/-- Crossbar, routing lookup. -/
structure Hall where
  /-- the Hall is lost. Chapter 01 R27. -/
  lost : Bool := false
  /-- input ports. Chapter 06 R194. -/
  ports : Vector PortState 10 := Vector.replicate 10 {}
  /-- input to which each output has granted a parcel. Chapter 06 R196. -/
  grants : Vector (Option (Fin 10)) 10 := Vector.replicate 10 none
  /-- round-robin position of each output. Chapter 06 R196. -/
  rr : Vector Nat 10 := Vector.replicate 10 0
  /-- parcels the device originates, at port 9. Chapter 01 R26. -/
  mgmtOut : List QItem := []
  /-- parcels delivered to this landing, with their ingress and their number in the order of arrival, in the port 9 queue. Chapter 10 R338, 08 R266. -/
  mgmtIn : List (Nat × Nat × Parcel) := []
  /-- arrival count of stream items (order of R192, R193). Chapter 06 R192. -/
  arrivalSeq : Nat := 0
  /-- routing entries with an uncorrectable error. Chapter 10 R312, R316. -/
  routeBad : List Nat := []
  deriving DecidableEq, Repr

/-- One copy of the Cutting Table. -/
structure CopyPlane where
  /-- in-force plane; an unlisted entry is EMPTY. Chapter 07 R240. -/
  inForce : SMap Entry := []
  /-- pending plane, with the time of the write. Chapter 07 R240, R242. -/
  pend : SMap PendEntry := []
  /-- copy fenced. Chapter 07 R241. -/
  fenced : Bool := false
  /-- rebuilt: rejoins comparison at the cut mark of the commit that rebuilt it. Chapter 01 R28. -/
  rejoin : Option Nat := none
  deriving DecidableEq, Repr

/-- Inputs of one region (R225, R229). -/
structure RegionIn where
  /-- announcement records by North gallery. Chapter 07 R223, R225. -/
  ann : SMap AnnRec := []
  /-- claim records, by South gallery and claimant. Chapter 07 R227, R229. -/
  claims : List ClaimRec := []
  deriving DecidableEq, Repr

/-- Inputs of a placement run, frozen at its start (R233). -/
structure RunInputs where
  /-- announcements and claims. Chapter 07 R233. -/
  regions : SMap RegionIn := []
  /-- region settings and pins. Chapter 07 R232. -/
  set : SMap RegionSet := []
  /-- application modes. Chapter 08 R263. -/
  appMode : SMap Bool := []
  /-- region groups. Chapter 09 R279. -/
  groupOf : SMap Nat := []
  /-- capacities of S0 to S3. Chapter 07 R230. -/
  caps : List Nat := []
  /-- ACTIVE galleries. Chapter 07 R229. -/
  active : BitVec 8 := 0#8
  /-- landing numbers on N0 to N3. Chapter 07 R235. -/
  landing : List (Option Nat) := []
  /-- pipes fenced. Chapter 07 R230. -/
  pipeDown : BitVec 8 := 0#8
  /-- correction engine clocked. Chapter 07 R235. -/
  engine : Bool := false
  /-- store not lost. Chapter 08 R271. -/
  storeUp : Bool := true
  /-- safe-image extents. Chapter 07 R230. -/
  safeHeld : List (Nat × Nat) := []
  deriving DecidableEq, Repr

/-- Placement. -/
structure Cutter where
  /-- placement inputs. Chapter 07 R225. -/
  regions : SMap RegionIn := []
  /-- copy A of the table. Chapter 07 R240. -/
  copyA : CopyPlane := {}
  /-- copy B of the table. Chapter 07 R240. -/
  copyB : CopyPlane := {}
  /-- both copies lost. Chapter 07 R241. -/
  tableLost : Bool := false
  /-- the firmware has enabled runs since the last Mezzanine restart. Chapter 07 R246, 01 R19. -/
  enabled : Bool := false
  /-- when the claims were last repeated. Chapter 07 R228. -/
  claimAt : Option Nat := none
  /-- run in progress on frozen inputs. Chapter 07 R233. -/
  running : Option RunInputs := none
  /-- one more run when the current one ends. Chapter 07 R233. -/
  again : Bool := false
  /-- the run in progress writes nothing. Chapter 07 R246. -/
  discard : Bool := false
  /-- free units of S0 to S3 left by the last run. Chapter 07 R248. -/
  freeS : List Nat := [0, 0, 0, 0]
  /-- free rate of the pipes left by the last run. Chapter 07 R248. -/
  freePipe : List Nat := [0, 0, 0, 0, 0, 0, 0, 0]
  /-- free store units left by the last run. Chapter 07 R248. -/
  freeStore : Nat := 0
  /-- last key forwarded of a region. Chapter 07 R245. -/
  lastKey : SMap Nat := []
  /-- when the selected copy's last cut mark arrived. Chapter 07 R245. -/
  selCutAt : SMap Nat := []
  /-- after a switch: forward the other copy from a cut mark later than this key. Chapter 07 R245. -/
  waitKey : SMap Nat := []
  /-- regions whose selected copy a new entry changed, until the first cut mark forwarded from it. Chapter 07 R245, R249. -/
  switched : List Nat := []
  deriving DecidableEq, Repr

/-- Store directory entry of one region (R259). -/
structure DirRec where
  /-- correction extent, first unit. Chapter 08 R259. -/
  base : Nat := 0
  /-- correction extent, units (0: none). Chapter 08 R259. -/
  units : Nat := 0
  /-- double-buffered. Chapter 08 R259. -/
  dbuf : Bool := false
  /-- active bank. Chapter 08 R259. -/
  bank : Bool := false
  /-- correction state. Chapter 08 R265. -/
  cstate : CorrState := .none
  /-- a commit waits for its cut mark. Chapter 08 R265. -/
  commitPending : Bool := false
  /-- the writes ahead of the commit have reached the store. Chapter 08 R266. -/
  drained : Bool := false
  /-- extent the commit named. Chapter 08 R274. -/
  commitBase : Nat := 0
  /-- catch-up copy runs. Chapter 08 R265, R266. -/
  catching : Bool := false
  /-- extent assigned by the last run, waiting for its entry. Chapter 08 R264, R274. -/
  newExt : Option NewExt := none
  /-- retained extent that the last run did not keep, held until an entry of that run takes effect. Chapter 08 R259. -/
  leaving : Bool := false
  /-- UNSERVED: site here but no pipe or no store. Chapter 08 R265, R270, R271. -/
  unserved : Bool := false
  /-- safe-image extent. Chapter 08 R259, R272. -/
  sBase : Nat := 0
  /-- safe-image units. Chapter 08 R272. -/
  sUnits : Nat := 0
  /-- safe-image width. Chapter 08 R272. -/
  sW : Nat := 0
  /-- safe-image height. Chapter 08 R272. -/
  sH : Nat := 0
  /-- safe-image state. Chapter 08 R265, R272. -/
  sState : SafeImg := .none
  deriving DecidableEq, Repr

/-- One correction pipe. -/
structure Pipe where
  /-- fenced. Chapter 08 R270. -/
  fenced : Bool := false
  /-- last pixel produced by this pipe. Chapter 08 R255. -/
  hold : Option PipeHold := none
  deriving DecidableEq, Repr

/-- What a region had before its entry changed, for the items at port 8 that arrived before (R242). -/
structure PrevEntry where
  /-- the first arrival that follows the new entry. Chapter 07 R242. -/
  first : Nat := 0
  /-- the entry then in force. Chapter 07 R242. -/
  entry : Entry := {}
  /-- its extent. Chapter 07 R242. -/
  dir : DirRec := {}
  /-- its substitute pipes. Chapter 07 R242, 08 R270. -/
  subst : List (Nat × Option Nat) := []
  deriving DecidableEq, Repr

/-- Engine and store. -/
structure Correction where
  /-- pipes. Chapter 08 R251. -/
  pipes : Vector Pipe 8 := Vector.replicate 8 {}
  /-- per region: fenced pipe and its substitute. Chapter 08 R270. -/
  subst : SMap (List (Nat × Option Nat)) := []
  /-- entries that items at port 8 or on their way to it still follow. Chapter 07 R242. -/
  prev : SMap (List PrevEntry) := []
  /-- region and pipe whose lines are gaps up to the next cut mark (pipe 8: all). Chapter 08 R270, R271. -/
  gapUntilCut : List (Nat × Nat) := []
  /-- port 8 input queue. Chapter 01 R26. -/
  inQ : List QItem := []
  /-- port 8 output queue. Chapter 01 R26. -/
  outQ : List QItem := []
  /-- store directory. Chapter 08 R259. -/
  dir : SMap DirRec := []
  /-- store bytes that differ from their unit's background. Chapter 08 R257. -/
  cells : List Host.Cell := []
  /-- background of a unit: zero or the bypass record. Chapter 08 R264. -/
  fill : SMap Fill := []
  /-- store words with a double-bit error. Chapter 08 R260. -/
  eccBad : List Nat := []
  /-- store lost; controller fenced. Chapter 08 R271. -/
  storeLost : Bool := false
  /-- DRAM in self-refresh. Chapter 15 R448, R454. -/
  selfRefresh : Bool := false
  /-- store request queue. Chapter 08 R261, R266. -/
  queue : List StoreWrite := []
  /-- scrub position. Chapter 17 R500. -/
  scrubPos : Nat := 0
  /-- bytes of store access by priority, for the access rates of the last second. Chapter 08 R275, 12 R379. -/
  use_ : StoreUse := {}
  /-- per region, the first line that no gap originated at the engine names. Chapter 08 R270, R271. -/
  gapLine : SMap Nat := []
  /-- safe-image reader, per region times 16 plus gallery, plus 8 for the drop action. Chapter 08 R269, 09 R288. -/
  reader : SMap SubstState := []
  deriving DecidableEq, Repr

/-- Settings of a region group (R280). -/
structure GroupSet where
  /-- substitute: false safe image, true black. Chapter 09 R279. -/
  substBlack : Bool := false
  /-- classes of monitors 1 to 5. Chapter 09 R280. -/
  cls : List MonClass := [.safe, .safe, .off, .off, .safe]
  /-- first parameters. Chapter 09 R280. -/
  p1 : List Nat := [100, 16, 16384, 52428, 7]
  /-- second parameters. Chapter 09 R280. -/
  p2 : List Nat := [0, 0, 3, 0, 0]
  deriving DecidableEq, Repr

/-- The safety record in MRAM (R299). -/
structure SafetyRecord where
  /-- region to group; unlisted group 0. Chapter 09 R279. -/
  groupOf : SMap Nat := []
  /-- settings of each group. Chapter 09 R280. -/
  groups : Vector GroupSet 16 := Vector.replicate 16 {}
  /-- internal-fault class. Chapter 09 R280, 01 R30. -/
  internal : MonClass := .safe
  /-- password hash and salt; shipped with none. Chapter 09 R297. -/
  pwHash : Option (BitVec 384 × BitVec 128) := none
  /-- lock-out records: groups 0 to 15, 16 for the device. Chapter 09 R294. -/
  lockRec : SMap LockRec := []
  deriving DecidableEq, Repr

/-- Monitors of one region on one gallery (R278). -/
structure Mon where
  /-- last key seen. Chapter 09 R281. -/
  key : Option Nat := none
  /-- freshness armed; deadline base. Chapter 09 R281. -/
  freshAt : Option Nat := none
  /-- tripped monitors, bit m-1. Chapter 09 R280. -/
  trips : BitVec 6 := 0#6
  /-- losses in the open frame. Chapter 09 R282. -/
  losses : Nat := 0
  /-- sum of Y in the open frame. Chapter 09 R283. -/
  sumY : Nat := 0
  /-- pixels in the open frame. Chapter 09 R283. -/
  pixels : Nat := 0
  /-- sub-frame of the open frame. Chapter 09 R283. -/
  sub : Nat := 0
  /-- last frame mean per sub-frame. Chapter 09 R283. -/
  means : SMap Nat := []
  /-- times of steps within the last second. Chapter 09 R283. -/
  steps : List Nat := []
  /-- last moment the count exceeded its setting. Chapter 09 R283. -/
  overAt : Option Nat := none
  /-- frame means closed within the last second. Chapter 09 R284. -/
  recent : List (Nat × Nat) := []
  /-- a frame is open. Chapter 09 R282. -/
  open_ : Bool := false
  /-- driver, fault kind and time of the last report. Chapter 09 R285. -/
  faults : List (BitVec 64 × Nat × Nat) := []
  deriving DecidableEq, Repr

/-- Safe state of one region (R287). -/
structure RegSafe where
  /-- monitor reasons by gallery and host orders by time. Chapter 09 R287, R290. -/
  reasons : List SafeReason := []
  /-- in safe state. Chapter 09 R287. -/
  inSafe : Bool := false
  /-- since when no reason holds. Chapter 09 R289. -/
  clearAt : Option Nat := none
  /-- when the region entered safe state. Chapter 08 R269. -/
  since : Nat := 0
  deriving DecidableEq, Repr

/-- Safety controller. -/
structure Safety where
  /-- safety record. Chapter 09 R299. -/
  record : SafetyRecord := {}
  /-- copies of the record that fail their check. Chapter 09 R299. -/
  recBad : BitVec 2 := 0#2
  /-- monitors by region times 8 plus gallery. Chapter 09 R278. -/
  mon : SMap Mon := []
  /-- safe state of regions. Chapter 09 R287. -/
  reg : SMap RegSafe := []
  /-- host-order reasons of the device, by doorbell cycle. Chapter 09 R290. -/
  devOrders : List Nat := []
  /-- when device SAFE last began. Chapter 08 R269. -/
  devSafeAt : Nat := 0
  /-- groups locked out. Chapter 09 R287. -/
  grpLock : SMap LockRec := []
  /-- device locked out, with its cause. Chapter 01 R34. -/
  devLock : Option LockRec := none
  /-- thermal trip in force. Chapter 09 R286. -/
  thermal : Bool := false
  /-- since when every sensor reads below 120 C. Chapter 09 R286. -/
  thermalLowAt : Option Nat := none
  /-- Hall lost. Chapter 09 R286. -/
  hallTrip : Bool := false
  /-- both table copies lost. Chapter 09 R286. -/
  tableTrip : Bool := false
  /-- SAFE entered for a REFCLK loss. Chapter 01 R35. -/
  refSafe : Bool := false
  /-- SAFE until reset for an XIN loss. Chapter 14 R437. -/
  xinTrip : Bool := false
  /-- SAFE entered for a lost safety record. Chapter 09 R299. -/
  recLostSafe : Bool := false
  /-- SAFE entered for a thermal trip. Chapter 09 R286. -/
  thermalSafe : Bool := false
  /-- since when the thermal trip has cleared. Chapter 09 R286. -/
  thermalClearAt : Option Nat := none
  /-- lock-out records waiting to be written. Chapter 09 R294. -/
  recWait : List (Nat × LockRec) := []
  /-- armed release. Chapter 09 R295. -/
  armed : Option ReleaseArm := none
  /-- unlocked session: holder index, token, last safety command. Chapter 09 R298. -/
  session : Option (Nat × BitVec 32 × Nat) := none
  /-- ring whose password check runs. Chapter 09 R297. -/
  checking : Option Nat := none
  /-- safety change log, oldest first. Chapter 09 R300. -/
  log : List SafetyEntry := []
  /-- next seq. Chapter 09 R300. -/
  logNext : BitVec 32 := 0#32
  /-- entries with seq below this are exported. Chapter 09 R301. -/
  logAcked : Nat := 0
  /-- SHA-384 of the last entry, none when no entry was ever written. Chapter 09 R300. -/
  lastHash : Option (BitVec 384) := none
  /-- safety.log_full raised. Chapter 09 R302. -/
  fullRaised : Bool := false
  /-- entries that wait for the end of a brown-out warning, oldest first. Chapter 15 R461. -/
  logWait : List SafetyWait := []
  /-- released lock-out records whose clearing waits for the end of a brown-out warning. Chapter 15 R461. -/
  recClear : List Nat := []
  deriving DecidableEq, Repr

/-- Bridge. -/
structure Bridge where
  /-- posted writes accepted and not complete. Chapter 10 R326. -/
  posted : List PostedWrite := []
  /-- late-error log, newest first. Chapter 10 R327. -/
  lateLog : List LateErr := []
  /-- failure counts by source, most recent sync first. Chapter 10 R328. -/
  syncs : List SyncRec := []
  /-- sources whose count was replaced. Chapter 10 R328. -/
  evicted : List (BitVec 16) := []
  /-- prefetch buffers, most recent first. Chapter 10 R333. -/
  prefetch : List Prefetch := []
  /-- outstanding bridge.remote request. Chapter 10 R325. -/
  remote : Option RemoteReq := none
  /-- events sent to a sink. Chapter 10 R336. -/
  sinkSeq : Vector (BitVec 32) 4 := Vector.replicate 4 0#32
  /-- millisecond and events sent in it. Chapter 10 R335. -/
  sinkWin : Vector (Nat × Nat) 4 := Vector.replicate 4 (0, 0)
  /-- next tag of the device's own requests. Chapter 10 R325. -/
  remoteTag : Nat := 0
  /-- number of the next posted write accepted. Chapter 10 R326. -/
  postedNext : Nat := 0
  deriving DecidableEq, Repr

/-- Two-wire controller. -/
structure PortL where
  /-- fenced. Chapter 13 R418. -/
  fenced : Bool := false
  /-- locked sequence in force. Chapter 10 R331. -/
  lock : Option LockSeq := none
  /-- lost state: holder and since when. Chapter 10 R332. -/
  lostFor : Option (BitVec 16 × Nat) := none
  /-- requests waiting for the bus. Chapter 10 R331. -/
  waiting : List PlReq := []
  /-- recovery due before the next transaction. Chapter 13 R419. -/
  recoverDue : Bool := true
  /-- SCL pulses that the target holding SDA low needs before it releases it; 0: SDA high. Chapter 13 R418; reset value: note 6. -/
  hold : Nat := 0
  /-- digital filter in force. Chapter 13 R423. -/
  filter : Nat := 5
  deriving DecidableEq, Repr

/-- Two-wire target. -/
structure PortM where
  /-- status-class pointer. Chapter 13 R397. -/
  ptr : BitVec 8 := 0#8
  /-- snap_block. Chapter 13 R400. -/
  snapBlock : BitVec 16 := 0#16
  /-- snap_half. Chapter 13 R400. -/
  snapHalf : Bool := false
  /-- open assembly. Chapter 13 R402. -/
  asm_ : Option (List Byte) := none
  /-- frag_no the next fragment must carry. Chapter 13 R402. -/
  nextFrag : Nat := 0
  /-- assembled frame. Chapter 13 R402. -/
  frame : Option (List Byte) := none
  /-- db_refused. Chapter 13 R404. -/
  dbRefused : Bool := false
  /-- put_rejected. Chapter 13 R404. -/
  putRejected : Bool := false
  /-- latched attention causes. Chapter 13 R411. -/
  causes : BitVec 5 := 0#5
  /-- quick-status 0x09 and 0x0A as last seen. Chapter 13 R411. -/
  lastSafety : BitVec 16 := 0#16
  /-- quick-status 0x08 as last seen. Chapter 13 R411. -/
  lastState : BitVec 8 := 0#8
  /-- mez_busy as last seen. Chapter 13 R411. -/
  lastBusy : Bool := true
  /-- block of the live snapshot captured when first read, by its index. Chapter 17 R503. -/
  snapBuf : Option (Nat × List Byte) := none
  /-- when causes 0 and 1 were last latched again. Chapter 13 R411. -/
  relatchAt : Option Nat := none
  /-- when a Host Notify was last sent without a full acknowledgement. Chapter 13 R413. -/
  notifyAt : Option Nat := none
  deriving DecidableEq, Repr

/-- One lease domain. -/
structure Lease where
  /-- holder. Chapter 11 R353. -/
  holder : Option Holder := none
  /-- last renewal. Chapter 11 R355. -/
  renewed : Nat := 0
  /-- gallery over which it was acquired. Chapter 11 R356. -/
  gallery : Option Nat := none
  deriving DecidableEq, Repr

/-- Rings of one host. -/
structure Ring where
  /-- command ring, oldest first. Chapter 11 R348. -/
  cmds : List Submitted := []
  /-- response ring, oldest first. Chapter 11 R348. -/
  rsps : List Response := []
  /-- event ring, oldest first. Chapter 11 R351. -/
  evts : List (List Byte) := []
  /-- cmd_head. Chapter 11 R342. -/
  head : BitVec 8 := 0#8
  /-- cmd_tail. Chapter 11 R342. -/
  tail : BitVec 8 := 0#8
  /-- minimum severity of the event ring. Chapter 11 R351. -/
  evtMin : Nat := 2
  /-- sink_seq of the ring. Chapter 11 R351. -/
  evtSeq : BitVec 32 := 0#32
  /-- seq of the last command executed and its response. Chapter 11 R347. -/
  dup : Option (BitVec 32 × Response) := none
  /-- waiting command. Chapter 11 R350. -/
  wait : Option Waiting := none
  /-- command aperture bytes written. Chapter 11 R342. -/
  aperture : List (Nat × Byte) := []
  /-- src the aperture is bound to and since when. Chapter 11 R343. -/
  bound : Option (BitVec 16 × Nat) := none
  /-- db_refused. Chapter 11 R342. -/
  dbRefused : Bool := false
  deriving DecidableEq, Repr

/-- Rings, leases. -/
structure Mailbox where
  /-- doorbell time of the command being served. Chapter 11 R349, R358. -/
  cycle : Nat := 0
  /-- place of the frame of the command being served in the order of arrival. Chapter 08 R266. -/
  frame : Nat := 0
  /-- rings of the link, second link, service and debug host. Chapter 11 R348. -/
  rings : Vector Ring 4 := Vector.replicate 4 {}
  /-- lease domains. Chapter 11 R352. -/
  leases : Vector Lease 15 := Vector.replicate 15 {}
  /-- tokens issued to holders. Chapter 11 R353. -/
  tokens : List (Holder × BitVec 32) := []
  /-- staged changes, oldest first. Chapter 11 R357. -/
  staged : List Staged := []
  /-- internal safety ring. Chapter 11 R348. -/
  ring13 : List (List Byte) := []
  deriving DecidableEq, Repr

/-- Event log. -/
structure EventLog where
  /-- entries in MRAM, oldest first. Chapter 17 R492. -/
  entries : List LogEntry := []
  /-- staging queue, oldest first. Chapter 17 R493. -/
  staging : List LogEntry := []
  /-- next seq. Chapter 17 R492. -/
  next : BitVec 32 := 0#32
  /-- the next queued entry carries gap. Chapter 17 R493. -/
  gapDue : Bool := false
  /-- event_count. Chapter 13 R398. -/
  written : BitVec 32 := 0#32
  /-- time of the last MRAM write. Chapter 17 R493. -/
  lastWrite : Option Nat := none
  /-- log stream holder. Chapter 17 R494, 12 R385. -/
  stream : Option StreamHold := none
  /-- ring 12. Chapter 11 R348. -/
  ring12 : List LogEntry := []
  /-- gap due on the next copied entry. Chapter 17 R494. -/
  streamGap : Bool := false
  deriving DecidableEq, Repr

/-- One firmware slot (R473). -/
structure Slot where
  /-- slot state. Chapter 16 R473. -/
  state : SlotState := .erased
  /-- watchdog resets while in TRIAL. Chapter 16 R473. -/
  trialResets : Nat := 0
  /-- commit count. Chapter 16 R473. -/
  generation : Nat := 0
  /-- fw_level. Chapter 16 R473. -/
  level : BitVec 32 := 0#32
  /-- sec_version. Chapter 16 R473. -/
  secVersion : Nat := 0
  /-- image length. Chapter 16 R473. -/
  length : Nat := 0
  /-- digest. Chapter 16 R473. -/
  digest : BitVec 384 := 0#384
  /-- image bytes in MRAM. Chapter 16 R471. -/
  image : List Byte := []
  /-- copies of the slot record that fail their CRC. Chapter 16 R473. -/
  copiesBad : BitVec 2 := 0#2
  /-- the image is the one programmed at manufacture, whose bytes the model does not hold. Chapter 16 R471; reset value: note 9. -/
  shipped : Bool := false
  deriving DecidableEq, Repr

/-- Update in progress. -/
structure Update where
  /-- idle, receiving, verified, committed. Chapter 12 R386. -/
  state : UpdState := .idle
  /-- target slot. Chapter 16 R476. -/
  target : Nat := 0
  /-- announced image length. Chapter 12 R386. -/
  length : Nat := 0
  /-- image bytes received, by offset. Chapter 16 R476. -/
  bytes : SMap Byte := []
  /-- the target slot is to be set WRITING at the end of a brown-out warning. Chapter 16 R476, 15 R461. -/
  eraseDue : Bool := false
  /-- digest verified. Chapter 16 R476. -/
  digest : BitVec 384 := 0#384
  /-- ring 15. Chapter 11 R348. -/
  chunks : List (Nat × List Byte) := []
  deriving DecidableEq, Repr

/-- One-time programmable fuses (R470). -/
structure Otp where
  /-- serial number. Chapter 16 R470; reset value: note 9. -/
  serial : BitVec 64 := 0#64
  /-- SECURED fuse group. Chapter 16 R467. -/
  secured : BitVec 8 := 0#8
  /-- RETURNED fuse group. Chapter 16 R467. -/
  returned : BitVec 8 := 0#8
  /-- reserved fuse group. Chapter 16 R467. -/
  reserved : BitVec 8 := 0#8
  /-- firmware key hashes. Chapter 16 R470; reset value: note 9. -/
  fwKey : Vector (BitVec 384) 2 := Vector.replicate 2 0#384
  /-- firmware key revoked. Chapter 16 R470. -/
  fwRevoked : Vector (BitVec 8) 2 := Vector.replicate 2 0#8
  /-- Trelmon debug key hash. Chapter 16 R470; reset value: note 9. -/
  dbgKey : BitVec 384 := 0#384
  /-- customer debug key hash; all zero: none enrolled. Chapter 16 R470. -/
  custKey : BitVec 384 := 0#384
  /-- device secret. Chapter 16 R470; reset value: note 9. -/
  secret : BitVec 256 := 0#256
  /-- anti-rollback fuses. Chapter 16 R470. -/
  antiRollback : BitVec 64 := 0#64
  deriving DecidableEq, Repr

/-- One saved profile (R457). -/
structure Profile where
  /-- header and CRC-32C hold. Chapter 15 R457. -/
  valid : Bool := false
  /-- firmware level that saved it. Chapter 12 R374. -/
  level : BitVec 32 := 0#32
  /-- the settings. Chapter 15 R457. -/
  live : Live := {}
  deriving DecidableEq, Repr

/-- Non-volatile memory but for the logs and the safety record. -/
structure Mram where
  /-- firmware slots A and B. Chapter 16 R473; reset value: note 9. -/
  slots : Vector Slot 2 := #v[{ state := .confirmed, generation := 1, level := 0x00000004#32, shipped := true }, {}]
  /-- profiles. Chapter 15 R457. -/
  profiles : Vector Profile 4 := Vector.replicate 4 {}
  /-- profile selection. Chapter 15 R457. -/
  selected : Option Nat := none
  /-- power-on resets since manufacture. Chapter 09 R300. -/
  bootCount : BitVec 32 := 0#32
  /-- the erasure of R469 has not finished. Chapter 16 R469. -/
  erasing : Bool := false
  deriving DecidableEq, Repr

/-- Mezzanine processor and firmware. -/
structure Mez where
  /-- off, boot ROM, starting firmware, firmware running, recovery. Chapter 11 R360, 15 R456. -/
  run : MezRun := .off
  /-- the start is a restart: the firmware re-adopts the running state. Chapter 11 R360. -/
  readopt : Bool := false
  /-- halted through MEZ_CTRL. Chapter 16 R481. -/
  halted : Bool := false
  /-- active slot. Chapter 12 R374. -/
  slot : Option Nat := none
  /-- firmware level. Chapter 00 R3. -/
  level : BitVec 32 := 0#32
  /-- watchdog resets since power-on reset. Chapter 12 R393. -/
  watchdogs : BitVec 32 := 0#32
  /-- slots to report by update.rolled_back. Chapter 16 R474. -/
  rolledBack : List Nat := []
  /-- since when a TRIAL slot serves the rings. Chapter 16 R477. -/
  trialSince : Option Nat := none
  /-- single steps of a halted Mezzanine. Chapter 16 R480; reset value: note 10. -/
  steps : Nat := 0
  /-- profile applied at this boot. Chapter 12 R393. -/
  profileApplied : Option Nat := none
  /-- a placement change was discarded by the last watchdog. Chapter 12 R393. -/
  cutDiscarded : Bool := false
  /-- system.watchdog is raised when the firmware serves again. Chapter 11 R360, 12 R393. -/
  watchdogDue : Bool := false
  /-- update.activate answered OK; restart due. Chapter 12 R386. -/
  activateDue : Option Nat := none
  /-- posted port L writes cut by a restart, to be logged with reason 0x0B. Chapter 10 R338. -/
  postedCut : List PostedWrite := []
  deriving DecidableEq, Repr

/-- Debug level, nonce, TAP. -/
structure Debug where
  /-- open level; FACTORY opens D2. Chapter 16 R467, R478. -/
  level : Nat := 2
  /-- the level was opened by a token. Chapter 16 R478. -/
  byToken : Bool := false
  /-- nonce held. Chapter 16 R479. -/
  nonce : Option (BitVec 256) := none
  /-- last token result. Chapter 16 R480. -/
  last : Nat := 0
  /-- TAP instruction register; IDCODE after a TAP reset. Chapter 16 R480. -/
  ir : Nat := 0x01
  /-- debug command frame: what PUT has appended, the command pointer at its end. Chapter 17 R495. -/
  cmd : List Byte := []
  /-- response pointer of MBX. Chapter 17 R495. -/
  rd : Nat := 0
  /-- db_refused of the last RING. Chapter 17 R495. -/
  refused : Bool := false
  /-- data of the result of the previous action. Chapter 17 R495. -/
  capture : BitVec 32 := 0#32
  /-- EXTEST hold. Chapter 16 R481. -/
  extest : Bool := false
  /-- boundary register: preloaded value. Chapter 16 R480; reset value: note 10. -/
  boundary : Nat := 0
  deriving DecidableEq, Repr

/-- Sensors, freeze trigger, snapshot. -/
structure Diag where
  /-- last temperatures in 0.1 C. Chapter 17 R490; reset value: note 7. -/
  temps : Vector Int 9 := Vector.replicate 9 0
  /-- a first reading has been taken. Chapter 13 R398. -/
  tempSeen : BitVec 9 := 0#9
  /-- last supply readings in mV. Chapter 17 R491; reset value: note 7. -/
  supplies : Vector Nat 12 := Vector.replicate 12 0
  /-- armed freeze trigger. Chapter 17 R496. -/
  trigger : Option (BitVec 16) := none
  /-- the armed event was raised: a freeze starts. Chapter 17 R496. -/
  fired : Bool := false
  /-- freeze.now answered OK. Chapter 12 R388. -/
  freezeDue : Option Nat := none
  /-- host that reads the snapshot ring. Chapter 12 R388. -/
  snapHost : Option Nat := none
  /-- ring 14. Chapter 11 R348. -/
  ring14 : List (List Byte) := []
  deriving DecidableEq, Repr

/-- FROZEN. -/
structure Freeze where
  /-- the device is FROZEN. Chapter 17 R498. -/
  on : Bool := false
  /-- freeze cause. Chapter 17 R496, R499. -/
  cause : Nat := 0
  /-- event code armed at the freeze. Chapter 17 R499. -/
  trigger : BitVec 16 := 0#16
  /-- time of the freeze. Chapter 17 R499. -/
  at_ : Nat := 0
  /-- islands stopped by the token. Chapter 17 R499. -/
  stopped : BitVec 22 := 0#22
  /-- islands gated, in local reset or hung at the token. Chapter 17 R499. -/
  notRunning : BitVec 22 := 0#22
  /-- quick-status window held at the freeze. Chapter 17 R498. -/
  qs : List Byte := []
  /-- LOCK_N before the freeze. Chapter 09 R291. -/
  lockN : Bool := false
  /-- ns from the token to the last island stopped. Chapter 17 R499. -/
  stopTime : Nat := 0
  /-- the freeze acted on the retained state of P2. Chapter 01 R40. -/
  inP2 : Bool := false
  deriving DecidableEq, Repr

/-- The whole device. -/
structure State where
  /-- time of the last command. Chapter 09 R300; reset value: note 1. -/
  now : Nat := 0
  /-- power state, resets and boot. Chapter 15. -/
  power : PowerUnit := {}
  /-- input pins. Chapter 18 R508. -/
  pins : Pins := {}
  /-- clock supervisor. Chapter 14. -/
  clocks : ClockUnit := {}
  /-- live settings. Chapter 15 R457. -/
  live : Live := {}
  /-- galleries by index. Chapter 02. -/
  gals : Vector Gal 8 := Vector.replicate 8 {}
  /-- Hall and routing. Chapter 06 R194. -/
  hall : Hall := {}
  /-- Cutter. Chapter 07. -/
  cutter : Cutter := {}
  /-- correction engine and store. Chapter 08. -/
  corr : Correction := {}
  /-- safety controller. Chapter 09. -/
  safety : Safety := {}
  /-- bridge. Chapter 10. -/
  bridge : Bridge := {}
  /-- port L. Chapter 13. -/
  portL : PortL := {}
  /-- port M. Chapter 13. -/
  portM : PortM := {}
  /-- mailboxes and leases. Chapter 11. -/
  mbx : Mailbox := {}
  /-- event log. Chapter 17 R492. -/
  log : EventLog := {}
  /-- update. Chapter 16 R476. -/
  upd : Update := {}
  /-- OTP. Chapter 16 R470. -/
  otp : Otp := {}
  /-- MRAM. Chapter 16. -/
  mram : Mram := {}
  /-- Mezzanine. Chapter 11 R360. -/
  mez : Mez := {}
  /-- debug. Chapter 16 R478. -/
  dbg : Debug := {}
  /-- diagnostics. Chapter 17. -/
  diag : Diag := {}
  /-- freeze. Chapter 17 R496. -/
  frz : Freeze := {}
  /-- every counter, by id, gallery, lane and instance; unlisted 0. Chapter 12 R394. -/
  ctr : SMap Nat := []
  /-- count of free values drawn. model's own; reset value: note 10. -/
  free : Nat := 0
  /-- what the last command sent, drove or answered. model's own; reset value: note 3. -/
  out : List Output := []
  /-- queue of waiting commands, first in first out. model's own. -/
  pending : List Instr := []
  deriving DecidableEq, Repr

/-- The machine right after the release of power-on reset: every field at the value the spec states, or at the value a note of notes/assumptions names. -/
def State.reset : State := {}

end Sys2Proof.Machine
end

