-- ==== Sys2Proof/Machine/Ops.lean ====
section
/-! DEFINITION. The named operations over the state that every family shares: the time of a command, galleries and lanes, counters, and what runs in which device and power state. -/

namespace Sys2Proof.Machine

/-! ## Time -/

/-- Add to what the block sends. -/
def emit (o : Output) (s : State) : State := { s with out := s.out ++ [o] }

/-- Do something only under a condition. -/
def doIf (c : Bool) (f : State → State) (s : State) : State := if c then f s else s

/-- Do something for each element of a list, in order. -/
def forAll (l : List α) (f : α → State → State) (s : State) : State := l.foldl (fun s a => f a s) s

/-- Whether a period has passed since a moment, or none has been noted. -/
def elapsed (now n : Nat) (last : Option Nat) : Bool :=
  match last with
  | some a => decide (a + n ≤ now)
  | none => true

/-! ## Galleries and lanes -/

/-- The gallery of an index. -/
def galAt (s : State) (g : GalIx) : Gal := s.gals[g]

/-- Change a gallery. -/
def modGal (g : GalIx) (f : Gal → Gal) (s : State) : State := { s with gals := s.gals.set g.val (f s.gals[g]) g.isLt }

/-- Change a receive direction. -/
def modRx (g : GalIx) (f : RxDir → RxDir) (s : State) : State := modGal g (fun G => { G with rx := f G.rx }) s

/-- Change a transmit direction. -/
def modTx (g : GalIx) (f : TxDir → TxDir) (s : State) : State := modGal g (fun G => { G with tx := f G.tx }) s

/-- Change a data lane, by physical number. -/
def modLane (g : GalIx) (l : LaneIx) (f : Lane → Lane) (s : State) : State :=
  modGal g (fun G => { G with lanes := G.lanes.set l.val (f G.lanes[l]) l.isLt }) s

/-- A data lane, by physical number. -/
def laneAt (s : State) (g : GalIx) (l : LaneIx) : Lane := (galAt s g).lanes[l]

/-- Every gallery index (R13). -/
def allGals : List GalIx := List.finRange 8

/-- Every lane number. -/
def allLanes : List LaneIx := List.finRange 8

/-- The gallery of a number, taken modulo 8. -/
def galOf (n : Nat) : GalIx := ⟨n % 8, Nat.mod_lt _ (by decide)⟩

/-- The lane of a number, taken modulo 8. -/
def laneOf (n : Nat) : LaneIx := ⟨n % 8, Nat.mod_lt _ (by decide)⟩

/-- Whether a gallery is on the North side (R13). -/
def isNorth (g : GalIx) : Bool := g.val < 4

/-- The paired gallery of the straight rule: Nk and Sk (R20). -/
def pairOf (g : GalIx) : GalIx := galOf (g.val + 4)

/-- The side of a gallery: 0 North, 1 South. -/
def sideOf (g : GalIx) : Fin 2 := if isNorth g then 0 else 1

/-- The live settings of a gallery. -/
def galSet (s : State) (g : GalIx) : GalSet := s.live.gal[g]

/-- The physical lane at a logical position of a receive direction: straight, or reversed (R69). -/
def physOf (G : Gal) (pos : Nat) : LaneIx := if G.rx.reversed then laneOf (7 - pos % 8) else laneOf pos

/-- The logical position of a physical receive lane (R69). -/
def posOf (G : Gal) (l : LaneIx) : Nat := if G.rx.reversed then 7 - l.val else l.val

/-- The lanes a receiver holds failed and not yet rejoined, by logical position (R166). -/
def failedMap (G : Gal) : BitVec 8 := bitmap ((List.range 8).filter fun p => G.lanes[physOf G p].failed)

/-! ## Counters (R119, R159, R182, R220, R394) -/

/-- The key of a counter in the one map of counters. -/
def ctrKey (id g lane inst : Nat) : Nat := ((id * 8 + g) * 16 + lane) * 256 + inst

/-- The width of a counter, 48 bits for the rows that say so and 32 for the others (R119, R182, R220, R250, R277, R394). -/
def ctrWidth (id : Nat) : Nat :=
  if id ∈ [0x307, 0x308, 0x30D, 0x30E, 0x422, 0x424, 0x437, 0x505, 0x506, 0x601, 0x602] then 48 else 32

/-- Count `n` more, saturating. -/
def countN (id g lane inst n : Nat) (s : State) : State :=
  { s with ctr := mmod 0 s.ctr (ctrKey id g lane inst) fun v => satAdd (ctrWidth id) v n }

/-- Count one on a lane. -/
def countLane (id : Nat) (g : GalIx) (l : LaneIx) (s : State) : State := countN id g.val l.val 0 1 s

/-- Count one on a gallery, with an instance. -/
def countGal (id : Nat) (g : GalIx) (inst : Nat) (s : State) : State := countN id g.val 0 inst 1 s

/-- Count one of the device, with an instance. -/
def countDev (id inst : Nat) (s : State) : State := countN id 0 0 inst 1 s

/-- The value of a counter. -/
def ctrAt (s : State) (id g lane inst : Nat) : Nat := mget 0 s.ctr (ctrKey id g lane inst)

/-! ## Island clocks (R429, R431, R433) -/

/-- Change the clock supervisor. -/
def modClocks (f : ClockUnit → ClockUnit) (s : State) : State := { s with clocks := f s.clocks }

/-- Set or clear a bit of a 22-bit island map. -/
def islandBit (m : BitVec 22) (i : Nat) (v : Bool) : BitVec 22 := if v then m ||| (1#22 <<< i) else m &&& ~~~(1#22 <<< i)

/-- Put an island on its run clock, or take it off; the time it comes onto it is kept for its meter (R443). -/
def runBit (now i : Nat) (v : Bool) (c : ClockUnit) : ClockUnit :=
  { c with onRun := islandBit c.onRun i v, runAt := if v && !c.onRun.getLsbD i then c.runAt.setIfInBounds i now else c.runAt }

/-- Ask a multiplexer to switch; a switch to the park clock takes the island off its run clock at once. -/
def requestSwitch (i : Nat) (toRun : Bool) (incoming : RefSrc) (s : State) : State :=
  modClocks (fun c => { c with switching := c.switching.filter (·.island ≠ i) ++ [{ island := i, toRun, incoming, at_ := s.now }],
                               onRun := if toRun then c.onRun else islandBit c.onRun i false }) s

/-- A receive island is on the forwarded clock, and a switch still asked for is dropped (R433). -/
def lockIsland (g : GalIx) (s : State) : State :=
  modClocks (fun c => runBit s.now g.val true { c with switching := c.switching.filter (·.island ≠ g.val) }) s

/-! ## What runs -/

/-- Whether the device is powered and out of reset. -/
def awake (s : State) : Bool := s.power.inReset.isNone && s.power.pstate != .p3

/-- Whether the units of the data path can act: out of reset, not FROZEN, in P0 (R38, R446, R498). -/
def active (s : State) : Bool := s.power.inReset.isNone && !s.frz.on && s.power.pstate == .p0

/-- Whether the always-on island acts: powered, out of reset and not FROZEN; P2 and P3 included (R448, R449). -/
def alwaysOn (s : State) : Bool := s.power.inReset.isNone && !s.frz.on

/-- Whether the device is in BOOT: its boot sequencer has not finished (R31, R34). -/
def inBoot (s : State) : Bool := !s.power.seqDone

/-- Whether the hop engine of a gallery runs: its transmit island on its run clock, provisioned on, not held in RESET, not LOST (R120, R121, R180, R429). -/
def hopRuns (s : State) (g : GalIx) : Bool :=
  let G := galAt s g
  active s && s.clocks.onRun.getLsbD (8 + g.val) && !G.off && !G.held && G.lost.isNone && !G.testHold

/-- Whether a gallery is ACTIVE in both directions. -/
def galActive (s : State) (g : GalIx) : Bool :=
  hopRuns s g && (galAt s g).rx.ts == .active && (galAt s g).tx.ts == .active

/-- Whether a transmit direction can carry parcels. -/
def txActive (s : State) (g : GalIx) : Bool := galActive s g

/-- The code of a training state (R121). -/
def trainCode : TrainState → Nat
  | .reset => 0x0
  | .off => 0x1
  | .detect => 0x2
  | .clock => 0x3
  | .align => 0x4
  | .exchange => 0x5
  | .equalise => 0x6
  | .qualify => 0x7
  | .report => 0x8
  | .switching => 0x9
  | .settled => 0xA
  | .active => 0xB
  | .guarding => 0xC
  | .backoff => 0xD
  | .lost => 0xE

/-! ## Parts of the state -/

/-- The active set of the transmit direction once every change due has come. -/
def txSet (x : TxDir) : BitVec 8 := (x.nextActive.getLast?.map (·.2)).getD x.active

/-- The active set of the receive direction once every change due has come. -/
def rxSet (x : RxDir) : BitVec 8 := (x.nextActive.getLast?.map (·.2)).getD x.active

/-- The directory record of a region. -/
def dirOf (s : State) (r : Nat) : DirRec := mget {} s.corr.dir r

/-- Change the directory record of a region. -/
def modDir (r : Nat) (f : DirRec → DirRec) (s : State) : State := { s with corr := { s.corr with dir := mmod {} s.corr.dir r f } }

/-- Change the correction engine. -/
def modCorr (f : Correction → Correction) (s : State) : State := { s with corr := f s.corr }

/-- Change the bridge. -/
def modBridge (f : Bridge → Bridge) (s : State) : State := { s with bridge := f s.bridge }

/-- Change the safety controller. -/
def modSafety (f : Safety → Safety) (s : State) : State := { s with safety := f s.safety }

/-! ## Free values -/

/-- Draw the next value of the device's random source. -/
def drawRandom (s : State) : BitVec 256 × State := (Config.random s.free, { s with free := s.free + 1 })

/-! ## Answers -/

/-- The answer of a command: a next state. -/
abbrev Answer := Host.Outcome State Fault Refusal

end Sys2Proof.Machine
end

