-- ==== Sys2Proof/Machine/Routing.lean ====
section
/-! DEFINITION. Parcel headers, the node ID, and where a message parcel goes (R184 to R187, R306, R307, R311 to R316). -/

namespace Sys2Proof.Machine

/-! ## Header fields (R184, R185, R187) -/

/-- Class of a parcel. -/
def pCls (p : Parcel) : Cls := clsOf (p.hdr.extractLsb' 0 2).toNat

/-- Event bit. -/
def pEvent (p : Parcel) : Bool := p.hdr.getLsbD 2

/-- Kind. -/
def pKind (p : Parcel) : Nat := (p.hdr.extractLsb' 3 5).toNat

/-- Length field. -/
def pLength (p : Parcel) : Nat := (p.hdr.extractLsb' 8 13).toNat

/-- Destination. -/
def pDest (p : Parcel) : BitVec 16 := p.hdr.extractLsb' 24 16

/-- Source. -/
def pSrc (p : Parcel) : BitVec 16 := p.hdr.extractLsb' 40 16

/-- Tag of a message (R187). -/
def pTag (p : Parcel) : BitVec 8 := p.hdr.extractLsb' 56 8

/-- Attribute byte of a message (R187, R309). -/
def pAttr (p : Parcel) : BitVec 8 := p.hdr.extractLsb' 64 8

/-- Region referred to by a message (R187). -/
def pRefRegion (p : Parcel) : Region := p.hdr.extractLsb' 72 12

/-- Whether an event refers to a region (R184). -/
def pRefsRegion (p : Parcel) : Bool := p.hdr.getLsbD 88

/-- Whether an event refers to data (R184). -/
def pRefsData (p : Parcel) : Bool := p.hdr.getLsbD 89

/-- Whether a PX parcel holds the last pixel of its line (R184). -/
def pEol (p : Parcel) : Bool := p.hdr.getLsbD 90

/-- The end-to-end sequence number of a message (R187). -/
def pE2e (p : Parcel) : BitVec 32 := p.hdr.extractLsb' 96 32

/-- Region of a PX parcel (R185). -/
def pRegion (p : Parcel) : Region := p.hdr.extractLsb' 56 12

/-- Pixel format of a PX parcel: 0 RGB48, 1 RGB36 (R185). -/
def pFormat (p : Parcel) : Nat := (p.hdr.extractLsb' 68 2).toNat

/-- Whether no field of a PX parcel that the device acts on holds a reserved value: its kind and its format (R10, R184, R185). -/
def pxKnown (p : Parcel) : Bool := pKind p == 0 && pFormat p < 2

/-- Line of a PX parcel. -/
def pLine (p : Parcel) : Nat := (p.hdr.extractLsb' 72 16).toNat

/-- First pixel of a PX parcel. -/
def pPixel (p : Parcel) : Nat := (p.hdr.extractLsb' 96 16).toNat

/-- Sub-frame of a PX parcel. -/
def pSub (p : Parcel) : Nat := (p.hdr.extractLsb' 112 4).toNat

/-- Low frame bits of a PX parcel. -/
def pFrameLo (p : Parcel) : Nat := (p.hdr.extractLsb' 120 8).toNat

/-- Pixels in a PX parcel (R186). -/
def pPixels (p : Parcel) : Nat := if pFormat p = 0 then p.payload.length / 6 else p.payload.length * 2 / 9

/-- A message header (R184, R187). -/
def msgHdr (cls : Cls) (event : Bool) (kind len : Nat) (dest src : BitVec 16) (tag attr : BitVec 8) (refRegion : Region)
    (refsRegion refsData : Bool) (e2e : BitVec 32) : BitVec 128 :=
  e2e ++ 0#6 ++ BitVec.ofBool refsData ++ BitVec.ofBool refsRegion ++ 0#4 ++ refRegion ++ attr ++ tag ++ src ++ dest ++
    0#3 ++ BitVec.ofNat 13 len ++ BitVec.ofNat 5 kind ++ BitVec.ofBool event ++ BitVec.ofNat 2 (clsNo cls)

/-- A PX header (R184, R185). -/
def pxHdr (len : Nat) (src : BitVec 16) (region : Region) (format line pixel sub frameLo : Nat) (eol : Bool) :
    BitVec 128 :=
  BitVec.ofNat 8 frameLo ++ 0#4 ++ BitVec.ofNat 4 sub ++ BitVec.ofNat 16 pixel ++ 0#5 ++ BitVec.ofBool eol ++ 0#2 ++
    BitVec.ofNat 16 line ++ 0#2 ++ BitVec.ofNat 2 format ++ region ++ src ++ 0xFFFF#16 ++ 0#3 ++ BitVec.ofNat 13 len ++
    0#5 ++ 0#1 ++ 0#2

/-- A parcel with another destination and its trailer computed anew (R189, R313). -/
def withDest (p : Parcel) (d : BitVec 16) : Parcel :=
  mkParcel ((p.hdr &&& ~~~(0xFFFF000000#128)) ||| (d.zeroExtend 128 <<< 24)) p.payload

/-! ## The routing table (R311 to R313, R316) -/

/-- Where a lookup sends a message parcel. -/
inductive Route where
  /-- deliver here -/
  | here
  /-- every PM of R314 -/
  | broadcast
  /-- an entry's set, whether it spreads, and the new destination of REWRITE -/
  | fwd (gals : BitVec 8) (spread : Bool) (newDest : Option (BitVec 16))
  /-- no entry matches -/
  | straight
  deriving DecidableEq, Repr

/-- A routing entry's action on a destination, if it is valid and matches (R312). -/
def entryRoute (e : BitVec 64) (dest : BitVec 16) : Option Route :=
  let m := e.extractLsb' 16 16
  let act := (e.extractLsb' 32 2).toNat
  if act ≠ 0 ∧ dest &&& m = e.extractLsb' 0 16 &&& m then
    match act with
    | 1 => some .here
    | 2 => some (.fwd (e.extractLsb' 36 8) (e.getLsbD 34) none)
    | _ => some (.fwd (e.extractLsb' 36 8) (e.getLsbD 34) (some (e.extractLsb' 44 16)))
  else none

/-- The procedure of R311; an entry with an uncorrectable error counts as invalid (R316). -/
def route (s : State) (dest : BitVec 16) : Route :=
  if dest = 0#16 ∨ dest = s.live.node then .here
  else if dest = 0xFFFF#16 then .broadcast
  else ((s.live.routes.filter fun e => e.1 ∉ s.hall.routeBad).findSome? fun e => entryRoute e.2 dest).getD .straight

/-- The galleries an entry's set leaves: ACTIVE ones, but for the one the parcel came in by; the lowest alone where it does not spread or the class is NP or CP (R313). -/
def fwdGals (s : State) (gals : BitVec 8) (spread : Bool) (from_ : Option GalIx) (cls : Cls) : List GalIx :=
  let l := allGals.filter fun g => gals.getLsbD g.val && galActive s g && some g ≠ from_
  if spread && cls == .pm then l else l.take 1

/-- The galleries of a broadcast: every ACTIVE gallery of the other side (R314). -/
def broadcastGals (s : State) (from_ : GalIx) : List GalIx :=
  allGals.filter fun g => isNorth g != isNorth from_ && galActive s g

/-- Own node ID (R307). -/
def ownNode (s : State) : BitVec 16 := s.live.node

/-! ## Events that wait (R193) -/

/-- Every item still in the device, but for substitute frames: bobbins, the queues of port 8 and port 9, egress stream queues. -/
def itemsInside (s : State) : List QItem :=
  let q := fun (c : PerClass (List QItem)) => c.px ++ c.pm ++ c.np ++ c.cp
  (allGals.flatMap fun g => q (galAt s g).bobbin ++ q (galAt s g).egress) ++ s.corr.inQ ++ s.corr.outQ ++ s.hall.mgmtOut

/-- Whether an item is PX, a cut mark or a gap of a region. -/
def ofRegion (r : Region) (i : Item) : Bool :=
  match i with
  | .parcel p => pCls p == .px && pRegion p == r
  | .cut c => c.region == r
  | .gap b => b.region == r

/-- Whether an event parcel must wait: for PX of its region that entered before it, or for PM of its source that did (R193). -/
def mustWait (s : State) (p : Parcel) (arrival : Nat) : Bool :=
  pEvent p &&
    ((pRefsRegion p && (itemsInside s).any fun i => i.arrival < arrival && !i.sub && ofRegion (pRefRegion p) i.item) ||
     (pRefsData p && (itemsInside s).any fun i => i.arrival < arrival && match i.item with
        | .parcel q => pCls q == .pm && pSrc q == pSrc p
        | _ => false))

/-- Queue a parcel that the device originates at Hall port 9 for galleries; an event waits as R193 states (R20, R194). -/
def originate (p : Parcel) (gs : List GalIx) (s : State) : State :=
  let n := s.hall.arrivalSeq
  { s with hall := { s.hall with
      mgmtOut := s.hall.mgmtOut ++ [{ item := .parcel p, port := 9, arrival := n, targets := gs.map (·.val), waits := mustWait s p n }],
      arrivalSeq := n + 1 } }

/-- A parcel enters the port 9 queue, with its place in the order of arrival. -/
def intoMgmt (port arrival : Nat) (p : Parcel) (s : State) : State := { s with hall := { s.hall with mgmtIn := s.hall.mgmtIn ++ [(port, arrival, p)] } }

/-- A parcel of the device itself for this landing enters the port 9 queue (R311). -/
def sendHere (p : Parcel) (s : State) : State :=
  let n := s.hall.arrivalSeq
  intoMgmt 9 n p { s with hall := { s.hall with arrivalSeq := n + 1 } }

/-- Send an originated message by its routing entry: the state and whether a gallery remained (R311, R313). `arrival` is the gallery on which a completion's request or a `bridge.posted_error`'s write arrived. -/
def sendRouted (p : Parcel) (arrival : Option GalIx) (s : State) : State × Bool :=
  match route s (pDest p) with
  | .fwd gals spread nd =>
    let gs := fwdGals s gals spread none (pCls p)
    let p := match nd with
      | some d => withDest p d
      | none => p
    if gs.isEmpty then (countDev 0x43B 0 s, false) else (originate p gs s, true)
  | .here =>
    if pCls p = .pm then (s, false)
    else (sendHere p s, true)
  | _ =>
    match arrival with
    | some g => if galActive s g then (originate p [g] s, true) else (countDev 0x43B 0 s, false)
    | none => (countDev 0x43B 0 s, false)

end Sys2Proof.Machine
end

