-- ==== Sys2Proof/Machine/Events.lean ====
section
/-! DEFINITION. Raising an event: its log entry, event rings, sinks, log stream and the armed freeze trigger (R335, R336, R351, R392, R393, R492 to R496). -/

namespace Sys2Proof.Machine

/-- The severity of an event code (R393). -/
def severityOf (code : Nat) : Nat :=
  if code ∈ [0x0003, 0x0004, 0x0601, 0x0603, 0x0604, 0x0608, 0x0903, 0x0D02] then 4
  else if code ∈ [0x0204, 0x0205, 0x0207, 0x0307, 0x0406, 0x0504, 0x0505, 0x0506, 0x0605, 0x0607, 0x0701, 0x0801, 0x0901, 0x0C02] then 3
  else if code ∈ [0x0001, 0x0101, 0x0201, 0x0203, 0x0206, 0x0302, 0x0305, 0x0402, 0x0404, 0x0405, 0x0503, 0x0702, 0x0902, 0x0905, 0x0D01] then 2
  else if code ∈ [0x0202, 0x0208, 0x0303, 0x0304, 0x0306, 0x0403, 0x0602, 0x0606, 0x0904, 0x0C01] then 1
  else 0

/-- Nanoseconds since the last power-on reset (R300, R336). -/
def uptime (s : State) : Nat := s.now - s.power.porAt

/-- The payload of an EVENT parcel and of an event-ring entry (R336). -/
def eventPayload (s : State) (code sev logSeq sinkSeq : Nat) (body : List Byte) : List Byte :=
  leBytes 2 code ++ leBytes 1 sev ++ [0#8] ++ leBytes 4 logSeq ++ leBytes 4 sinkSeq ++ leBytes 8 s.otp.serial.toNat ++
    leBytes 4 (uptime s / 1000000) ++ padTo 4 (body.take 232)

/-- The PM parcel of an event to a sink (R308, R335). -/
def eventParcel (s : State) (node : BitVec 16) (region : Option Region) (refsData : Bool) (payload : List Byte) : Parcel :=
  mkParcel (msgHdr .pm true 0x04 payload.length node (ownNode s) 0#8 0#8 (region.getD 0#12) region.isSome refsData 0#32) payload

/-- Whether a sink may take one more event in this millisecond: at most 64 (R335). -/
def sinkRoom (s : State) (k : Fin 4) : Bool :=
  let w := s.bridge.sinkWin[k]
  w.1 != s.now / 1000000 || w.2 < 64

/-- Send an event to one sink, or count it as dropped (R335). -/
def toSink (k : Fin 4) (sev : Nat) (mk : Nat → List Byte) (region : Option Region) (refsData : Bool) (s : State) : State :=
  let sk := s.live.sinks[k]
  if sk.enable && sk.minSev ≤ sev then
    let r := sendRouted (eventParcel s sk.node region refsData (mk s.bridge.sinkSeq[k].toNat)) none s
    if !sinkRoom s k then countDev 0x805 k.val s
    else if !r.2 then countDev 0x805 k.val r.1
    else
      let w := s.bridge.sinkWin[k]
      let w' := if w.1 = s.now / 1000000 then (w.1, w.2 + 1) else (s.now / 1000000, 1)
      { r.1 with bridge := { r.1.bridge with sinkSeq := s.bridge.sinkSeq.set k.val (s.bridge.sinkSeq[k] + 1#32) k.isLt,
                                             sinkWin := s.bridge.sinkWin.set k.val w' k.isLt } }
  else s

/-- Put an event into a host's event ring; a full ring drops its oldest entry, and the service host's ring raises attention (R351, R411). -/
def toRing (k : Fin 4) (sev : Nat) (mk : Nat → List Byte) (s : State) : State :=
  let r := s.mbx.rings[k]
  if r.evtMin ≤ sev then
    let full := r.evts.length ≥ 64
    let r' := { r with evts := (if full then r.evts.drop 1 else r.evts) ++ [mk r.evtSeq.toNat], evtSeq := r.evtSeq + 1#32 }
    let s := { s with mbx := { s.mbx with rings := s.mbx.rings.set k.val r' k.isLt } }
    s |> doIf full (countDev 0x106 (8 + k.val))
      |> doIf (k == 2) (fun s => { s with portM := { s.portM with causes := s.portM.causes ||| 2#5 } })
  else s

/-- Copy an entry into ring 12 for the log stream (R494). -/
def toStream (e : LogEntry) (s : State) : State :=
  match s.log.stream with
  | none => s
  | some h =>
    if h.minSev ≤ e.severity then
      let full := s.log.ring12.length ≥ 64
      let ring := if full then s.log.ring12.drop 1 else s.log.ring12
      { s with log := { s.log with ring12 := ring ++ [{ e with gap := e.gap || s.log.streamGap || full }], streamGap := false } }
    else s

/-- Give an event its number, its time and its place in the staging queue; a full queue loses it (R493). -/
def toLog (code sev : Nat) (body : List Byte) (s : State) : State :=
  let e : LogEntry := { seq := s.log.next.toNat, code, severity := sev, deferred := s.power.brownout.isSome, gap := s.log.gapDue,
                        uptimeUs := uptime s / 1000, boot := s.mram.bootCount.toNat % 256, body }
  if s.log.staging.length < 256 then
    toStream e { s with log := { s.log with staging := s.log.staging ++ [e], next := s.log.next + 1#32, gapDue := false } }
  else { s with log := { s.log with next := s.log.next + 1#32, gapDue := true } }

/-- The armed trigger fires when its event code is raised (R496). -/
def trigger (code : Nat) (s : State) : State :=
  if s.diag.trigger = some (BitVec.ofNat 16 code) ∧ alwaysOn s ∧ s.power.pstate ≠ .p3 then
    { s with diag := { s.diag with fired := true } }
  else s

/-- Raise an event with a body, to the log, the rings and the sinks; `refs` tells whether the parcel carries `refs_region` and which region. -/
def raiseTo (sinks : Bool) (code : Nat) (body : List Byte) (region : Option Region) (s : State) : State :=
  let sev := severityOf code
  let seq := s.log.next.toNat
  let mk := fun n => eventPayload s code sev seq n body
  s |> toLog code sev body
    |> forAll (List.finRange 4) (fun k => toRing k sev mk)
    |> doIf sinks (forAll (List.finRange 4) fun k => toSink k sev mk region false)
    |> trigger code

/-- Raise an event that names no region (R392). -/
def raise (code : Nat) (body : List Byte) (s : State) : State := raiseTo true code body none s

/-- Raise an event whose body names a region (R392). -/
def raiseRegion (code : Nat) (region : Region) (body : List Byte) (s : State) : State := raiseTo true code body (some region) s

/-- A byte of an event body. -/
def by8 (n : Nat) : List Byte := leBytes 1 n

/-- Two bytes of an event body. -/
def by16 (n : Nat) : List Byte := leBytes 2 n

/-- Four bytes of an event body. -/
def by32 (n : Nat) : List Byte := leBytes 4 n

end Sys2Proof.Machine
end

