-- ==== Sys2Proof/Machine/Tread.lean ====
section
/-! DEFINITION. Treads and their figures, presets and coefficient limits, capacities (R46, R55, R56, R107, R121, R136, R138, R211). -/

namespace Sys2Proof.Machine

/-- The tread of a number, capped at T5. -/
def treadOf (n : Nat) : Tread := if h : n < 6 then ⟨n, h⟩ else 5

/-- Whether FEC is on at a tread: mandatory at T4 and T5, as agreed at T3 (R46, R129). -/
def fecAt (t : Tread) (t3 : Bool) : Bool := t.val ≥ 4 || (t.val == 3 && t3)

/-- Whether a tread is PAM4 (R46). -/
def isPam (t : Tread) : Bool := t.val ≥ 4

/-- Slot payload per lane in Mb/s (R138). -/
def payloadRate (t : Tread) (fec : Bool) : Nat :=
  match t.val with
  | 0 => 3406
  | 1 => 6812
  | 2 => 13623
  | 3 => if fec then 25478 else 27246
  | 4 => 50956
  | _ => 101912

/-- Slots of a period: 77 of a codeword, or 1,024 of a marker period (R107). -/
def periodSlots (fec : Bool) : Nat := if fec then 77 else 1024

/-- The first slot of a period that can hold a stream block: slot 0 holds the deskew marker without FEC (R107). -/
def firstSlot (fec : Bool) : Nat := if fec then 0 else 1

/-- The maximum of EQUALISE in ns (R121). -/
def equaliseMax (t : Tread) : Nat :=
  1000000 * match t.val with
  | 0 => 1
  | 1 => 1
  | 2 => 2
  | 3 => 8
  | 4 => 12
  | _ => 23

/-- Bit errors, eye width and eye height that pass qualification (R136). -/
def qualLimits (t : Tread) (fec : Bool) : Nat × Nat × Nat :=
  match t.val with
  | 0 => (0, 24, 24)
  | 1 => (0, 24, 24)
  | 2 => (0, 22, 22)
  | 3 => if fec then (281, 16, 16) else (0, 20, 20)
  | 4 => (562, 12, 10)
  | _ => (1125, 10, 8)

/-- Whether a lane passes qualification (R135, R136). -/
def qualPasses (t : Tread) (fec : Bool) (q : LaneQual) : Bool :=
  let l := qualLimits t fec
  q.synced && q.errors ≤ l.1 && q.width ≥ l.2.1 && q.height ≥ l.2.2

/-- The presets FP0 to FP10 (R56). -/
def presets : List Coef :=
  [⟨0, 0, 0, 0⟩, ⟨0, 0, -8, 0⟩, ⟨0, 0, -16, 0⟩, ⟨0, -4, -8, 0⟩, ⟨0, -6, -14, 0⟩, ⟨0, -8, -20, 0⟩, ⟨2, -8, -6, 0⟩,
   ⟨2, -10, -14, 0⟩, ⟨3, -12, -18, 0⟩, ⟨0, -4, -12, 4⟩, ⟨2, -8, -16, 4⟩]

/-- A preset by number. -/
def preset (n : Nat) : Coef := presets.getD n {}

/-- The derived centre coefficient (R55). -/
def coefZero (c : Coef) : Int := 63 - c.cm2.natAbs - c.cm1.natAbs - c.cp1.natAbs - c.cp2.natAbs

/-- Whether coefficients lie within the limits of R55. -/
def coefOk (c : Coef) : Bool :=
  0 ≤ c.cm2 && c.cm2 ≤ 7 && -15 ≤ c.cm1 && c.cm1 ≤ 0 && -20 ≤ c.cp1 && c.cp1 ≤ 0 && -7 ≤ c.cp2 && c.cp2 ≤ 7

/-- Candidate presets of a tread, the start preset first and none twice (R133). -/
def candidates (t : Tread) (start : Nat) : List Nat :=
  let l := match t.val with
    | 3 => [3, 1, 2, 4, 9]
    | 4 => [4, 3, 5, 6, 9]
    | 5 => [7, 5, 6, 8, 10]
    | _ => [0, 1, 2]
  start :: l.filter (· ≠ start)

/-- The largest magnitude of DFE tap `k`, 1 to 12 fixed and 13 to 16 floating (R61). -/
def tapMax (k : Nat) : Int := if k = 1 then 63 else if k ≤ 4 then 31 else 15

/-- The capacity of lanes at a tread, in 0.1 Gb/s with the factor 0.97 (R140, R230). -/
def laneCapacity (w : Nat) (t : Tread) (fec : Bool) : Nat := 97 * w * payloadRate t fec / 10000

/-- Bits of a period on a lane: a codeword, or 1,024 blocks (R94, R103). -/
def periodBits (fec : Bool) : Nat := if fec then 5440 else 67584

/-- Bit times in the 50 ns a driver needs to come out of idle, rounded up (R46, R76). -/
def enableBits (t : Tread) : Nat :=
  match t.val with
  | 0 => 176
  | 1 => 352
  | 2 => 704
  | 3 => 1407
  | 4 => 2813
  | _ => 5625

/-- What the transmit lanes in striping carry (R138, R140). -/
def txLaneRate (G : Gal) : Nat := laneCapacity (popcount G.tx.active) (G.tx.tread.getD 0) G.tx.fec

/-- What the far quota carries over the measured round trip, once there is a measurement (R211). -/
def txCreditRate (G : Gal) : Option Nat := if G.ctx.rtt = 0 then none else some (97 * 2048 * G.ctx.farQuotaPx / (100 * G.ctx.rtt))

/-- The capacity of a transmit direction: the lanes, or the credit term where that is less (R211); 0 unless it is ACTIVE (R148). -/
def txCapacity (G : Gal) : Nat :=
  if G.tx.ts = .active then min (txLaneRate G) ((txCreditRate G).getD (txLaneRate G)) else 0

/-- Whether the credit term of R211 is the smaller one. -/
def throttledNow (G : Gal) : Bool :=
  G.tx.ts == .active && match txCreditRate G with
    | some c => decide (c < txLaneRate G)
    | none => false

/-- The receive lanes in striping that have not failed: the width of the direction (R164, R182). -/
def rxLive (G : Gal) : BitVec 8 := G.rx.active &&& ~~~failedMap G

/-- The capacity of a receive direction. -/
def rxCapacity (G : Gal) : Nat :=
  if G.rx.ts = .active then laneCapacity (popcount (rxLive G)) (G.rx.tread.getD 0) G.rx.fec else 0

/-- Report both capacities of a gallery to the Cutter (R140, R148, R168), and raise `gallery.throttled` where the credit term has become the smaller one, or a new measurement changed the capacity by more than 1 % (R211). -/
def reportAs (measured : Bool) (g : GalIx) (s : State) : State :=
  let old := (galAt s g).capTx
  let was := (galAt s g).throttled
  let s := modGal g (fun G => { G with capTx := txCapacity G, capRx := rxCapacity G, throttled := throttledNow G }) s
  let G := galAt s g
  let moved := (if old > G.capTx then old - G.capTx else G.capTx - old) * 100 > old
  doIf (G.throttled && (!was || (measured && moved))) (raise 0x0208 (by8 g.val ++ by8 1 ++ by16 0 ++ by32 G.ctx.rtt ++ by32 G.capTx)) s

/-- Report the capacities after a change that is no new measurement. -/
def reportCapacity (g : GalIx) (s : State) : State := reportAs false g s

/-! ## Deciding the step (R138) -/

/-- What R138 decides. -/
inductive Decision where
  | settle | goTo (t : Tread) (action : BitVec 2) (mode : StepMode) | fails
  deriving DecidableEq, Repr

/-- The rule of R138, with R142 for a re-step: from the tread qualified, the first tread of the training, the stepping mode, the requested tread of a re-step, the target, the width floor, the last tread qualified with its lanes, FEC at T3, and the lanes passed. Both ends derive the same decision. -/
def decide138 (t first : Tread) (mode : StepMode) (goal target : Option Tread) (floor : Nat) (prev : Option (Tread × Nat)) (t3 : Bool) (n : Nat) :
    Decision :=
  let up := mode == .up
  let aim := goal.getD (target.getD 5)
  let more := match prev with
    | some (p, m) => decide (n * payloadRate t (fecAt t t3) > m * payloadRate p (fecAt p t3))
    | none => true
  let ok := decide (n ≥ max 2 floor) && (!(t != first && up) || more)
  if ok && t == aim then .settle
  else if ok && up then .goTo (treadOf (t.val + 1)) 0#2 .up
  else if ok then .settle
  else if up && (t != first || goal.isSome) && prev.isSome then .goTo ((prev.map (·.1)).getD 0) 1#2 .back
  else if t.val ≠ 0 then .goTo (treadOf (t.val - 1)) (if mode = .back then 1#2 else 3#2) (if mode = .back then .back else .down)
  else .fails

end Sys2Proof.Machine
end

