-- ==== Sys2Proof/Machine/SafeOps.lean ====
section
/-! DEFINITION. Device states, and the safety controller: reasons, lock-outs, monitors, the output pins and the safety change log (R31 to R36, R279, R286 to R302). -/

namespace Sys2Proof.Machine

/-! ## Units -/

/-- Whether a clock enable is on: islands 0 to 21, 22 bridge, 23 port L (R438). -/
def gateOn (s : State) (i : Nat) : Bool := s.clocks.gateOn.getLsbD i

/-- Whether the firmware serves the rings. -/
def fwRuns (s : State) : Bool := s.mez.run == .running && !s.mez.halted && active s

/-! ## Device states (R31 to R35) -/

/-- The in-force plane that reads use: copy A, or copy B where A is fenced; with both copies lost no entry is used (R241). -/
def forcePlane (s : State) : SMap Entry :=
  if s.cutter.tableLost then [] else if s.cutter.copyA.fenced then s.cutter.copyB.inForce else s.cutter.copyA.inForce

/-- Whether some entry in force is PLACED or DROPPED. -/
def anyPlaced (s : State) : Bool := (forcePlane s).any fun e => e.2.state == .placed || e.2.state == .dropped

/-- Whether the condition of device SAFE holds, whatever its cause (R34, R35). -/
def devSafe (s : State) : Bool :=
  let f := s.safety
  f.hallTrip || f.tableTrip || f.refSafe || f.xinTrip || f.recLostSafe || f.thermalSafe || !f.devOrders.isEmpty

/-- Whether the condition of device LOCKOUT holds. -/
def devLocked (s : State) : Bool := s.safety.devLock.isSome

/-- Whether the device forwards by the Cutting Table (R31); P2, in which the Cutter is gated, keeps the state (R40). -/
def isPlaced (s : State) : Bool := (gateOn s 17 || (s.power.pstate == .p2 && s.power.p2Gates.getLsbD 17)) && anyPlaced s

/-- The device state code: the first condition in the order of R33. -/
def deviceState (s : State) : Nat :=
  if s.frz.on then 5
  else if devLocked s then 4
  else if devSafe s then 3
  else if inBoot s then 0
  else if s.mez.run = .recovery then 6
  else if isPlaced s then 2
  else 1

/-- After a change that may end device SAFE or LOCKOUT, no region passes a pixel before its next cut mark (R36). -/
def afterDevice (s0 : State) (s : State) : State :=
  if (devSafe s0 || devLocked s0) && !(devSafe s || devLocked s) then
    forAll allGals (fun g => modGal g fun G => { G with muteAll := true, unmuted := [] }) s
  else s

/-! ## Groups and reasons (R279, R287 to R290) -/

/-- The region group of a region. -/
def groupOf (s : State) (r : Nat) : Fin 16 :=
  let n := mget 0 s.safety.record.groupOf r
  if h : n < 16 then ⟨n, h⟩ else 0

/-- The settings of a region's group. -/
def groupSet (s : State) (r : Nat) : GroupSet := s.safety.record.groups[groupOf s r]

/-- The safe state of a region. -/
def regSafe (s : State) (r : Nat) : RegSafe := mget {} s.safety.reg r

/-- Change the safe state of a region. -/
def modReg (r : Nat) (f : RegSafe → RegSafe) (s : State) : State := { s with safety := { s.safety with reg := mmod {} s.safety.reg r f } }

/-- Whether a region's group or the device is locked out. -/
def regLocked (s : State) (r : Nat) : Bool := devLocked s || (mget? s.safety.grpLock (groupOf s r).val).isSome

/-- Whether a region's PX are replaced: safe state, lock-out, or device SAFE (R288). -/
def replaced (s : State) (r : Nat) : Bool := (regSafe s r).inSafe || regLocked s r || devSafe s

/-- Since when a region's PX are replaced: the earliest of the reasons that hold, and not before this boot (R269). -/
def replacedSince (s : State) (r : Nat) : Nat :=
  let x := regSafe s r
  let lock := (mget? s.safety.grpLock (groupOf s r).val).toList ++ s.safety.devLock.toList
  let l := (if x.inSafe then [x.since] else []) ++ lock.map (·.at_) ++ (if devSafe s then [s.safety.devSafeAt] else [])
  max s.power.bootAt (l.foldl min (l.headD s.now))

/-- Regions that have an entry in force or have been seen by a monitor: those whose safe state an order for a group reports. -/
def knownRegions (s : State) : List Nat :=
  (List.range 4096).filter fun r => (mget? (forcePlane s) r).isSome || s.safety.mon.any fun e => e.1 / 8 == r

/-- A safety condition toward safe aborts an entry to P2 or P3 before its point of no return (R40, R447). -/
def noteSafety (s : State) : State :=
  { s with power := { s.power with entry := s.power.entry.map fun e => { e with safetyArose := true } } }

/-- The region's own PX wait for its next cut mark on every gallery (R36, R288). -/
def muteRegion (r : Nat) (s : State) : State :=
  forAll allGals (fun g => modGal g fun G =>
    { G with mute := if r ∈ G.mute then G.mute else G.mute ++ [r], unmuted := G.unmuted.filter (· ≠ r) }) s

/-- A region gains a reason and enters safe state, reported where it was in neither safe state nor lock-out (R287). -/
def addReason (r : Nat) (reason : SafeReason) (code gallery : Nat) (report : Bool) (s : State) : State :=
  let was := regSafe s r
  s |> modReg r (fun x => { x with reasons := if reason ∈ x.reasons then x.reasons else x.reasons ++ [reason], inSafe := true, clearAt := none,
                                   since := if x.inSafe then x.since else s.now })
    |> noteSafety
    |> doIf (report && !was.inSafe && !regLocked s r) (raiseRegion 0x0601 (BitVec.ofNat 12 r) (by16 r ++ by8 code ++ by8 gallery))

/-- Reasons of a region that satisfy a test clear; the last one starts the 500 ms of R289. -/
def dropReasons (r : Nat) (f : SafeReason → Bool) (s : State) : State :=
  modReg r (fun x =>
    let l := x.reasons.filter fun q => !f q
    { x with reasons := l, clearAt := if x.inSafe && l.isEmpty && !x.reasons.isEmpty then some s.now else x.clearAt }) s

/-! ## The safety change log (R300 to R302, R535) -/

/-- Places taken in the log: entries not yet exported, and those that wait to be written. -/
def unexported (s : State) : Nat := s.safety.logNext.toNat - s.safety.logAcked + s.safety.logWait.length

/-- Whether only the reserve of 16 places remains (R302). -/
def logFull (s : State) : Bool := unexported s ≥ 1008

/-- The first 16 bytes of the SHA-384 of a value. -/
def digest16 (v : List Byte) : List Byte := (sha384 v).take 16

/-- Sixteen zero bytes, the digest of an action without a value. -/
def noDigest : List Byte := List.replicate 16 0#8

/-- Write an entry of the safety change log, chained to the one before it (R300). -/
def writeSafety (e : SafetyWait) (s : State) : State :=
  let f := s.safety
  let seq := f.logNext.toNat
  let prev := match f.lastHash with
    | some h => beBytes 48 h.toNat
    | none => sha384 (leBytes 8 s.otp.serial.toNat)
  let bytes := leBytes 4 seq ++ e.head ++ prev
  let log := if f.log.length ≥ 1024 then f.log.drop 1 else f.log
  raise 0x0606 (by32 seq ++ by8 e.action)
    { s with safety := { f with log := log ++ [{ seq, action := e.action, bytes }], logNext := f.logNext + 1#32, lastHash := some (sha384Num bytes) } }

/-- `safety.log_full` is raised when only the reserve is left (R302). -/
def noteFull (s : State) : State :=
  if logFull s && !s.safety.fullRaised then
    raise 0x0607 (by32 s.safety.logAcked) { s with safety := { s.safety with fullRaised := true } }
  else s

/-- A safety change gets its entry in the log; during a brown-out warning the entry waits, and without a free place it is counted instead (R300 to R302, R461). -/
def safetyLog (requester action target : Nat) (node : BitVec 16) (status cause : Nat) (old new detail : List Byte) (s : State) : State :=
  let e : SafetyWait := {
    action, head := leBytes 4 s.mram.bootCount.toNat ++ leBytes 8 (uptime s / 1000) ++ leBytes 1 requester ++ leBytes 1 action ++ leBytes 2 target ++
      leBytes 2 node.toNat ++ leBytes 1 status ++ leBytes 1 cause ++ fit 16 old ++ fit 16 new ++ fit 24 detail }
  if unexported s ≥ 1024 then countDev 0x704 0 s
  else if s.power.brownout.isSome then noteFull { s with safety := { s.safety with logWait := s.safety.logWait ++ [e] } }
  else s |> writeSafety e |> noteFull

/-- The safety writes that waited for the end of a brown-out warning (R462). -/
def writeWaiting (s : State) : State :=
  let f := s.safety
  let l := f.record.lockRec.filter fun e => e.1 ∉ f.recClear
  forAll f.logWait writeSafety { s with safety := { f with logWait := [], recClear := [], record := { f.record with lockRec := l } } }

/-! ## Lock-out (R287, R294) -/

/-- A group is locked out: its record waits to be written, and the lock-out is reported; a group already locked out stays as it is (R294). -/
def lockGroup (grp : Nat) (rec : LockRec) (s : State) : State :=
  if (mget? s.safety.grpLock grp).isSome then s
  else
    let body := by8 grp ++ by8 rec.cause ++ by16 rec.region
    let s := noteSafety { s with safety := { s.safety with grpLock := mput s.safety.grpLock grp rec, recWait := s.safety.recWait ++ [(grp, rec)] } }
    if rec.region < 4096 then raiseRegion 0x0603 (BitVec.ofNat 12 rec.region) body s else raise 0x0603 body s

/-- The device is locked out (R34, R294); `which` is the sensor or reference of the event. -/
def lockDevice (cause which : Nat) (rec : LockRec) (s : State) : State :=
  if s.safety.devLock.isSome then s
  else
    { s with safety := { s.safety with devLock := some rec, recWait := s.safety.recWait ++ [(16, rec)] } }
      |> noteSafety
      |> raise 0x0004 (by8 cause ++ by8 which)

/-- The internal-fault monitor trips for a cause (R286): counted, and by the class of the device SAFE or LOCKOUT; `set` marks the cause in force. -/
def internalTrip (cause which : Nat) (set : Safety → Safety) (s : State) : State :=
  let was := devSafe s
  let s := { s with safety := set { s.safety with devSafeAt := if was then s.safety.devSafeAt else s.now } } |> countDev 0x701 0x60
  if s.safety.record.internal = .lockout then
    lockDevice cause which { cause := 6, region := 0xFFFF, gallery := 0xFF, at_ := s.now, requester := 0x10, node := 0#16 } s
  else s |> noteSafety |> doIf (!was) (raise 0x0003 (by8 cause ++ by8 which))

/-! ## Region monitors (R278, R287) -/

/-- The key of a monitor in the map of monitors. -/
def monKey (r : Nat) (g : GalIx) : Nat := r * 8 + g.val

/-- The monitors of a region on a gallery. -/
def monAt (s : State) (r : Nat) (g : GalIx) : Mon := mget {} s.safety.mon (monKey r g)

/-- Change the monitors of a region on a gallery. -/
def modMon (r : Nat) (g : GalIx) (f : Mon → Mon) (s : State) : State :=
  { s with safety := { s.safety with mon := mmod {} s.safety.mon (monKey r g) f } }

/-- The class of a monitor for a region. -/
def classOf (s : State) (r m : Nat) : MonClass := (groupSet s r).cls.getD (m - 1) .off

/-- First parameter of a monitor for a region. -/
def par1 (s : State) (r m : Nat) : Nat := (groupSet s r).p1.getD (m - 1) 0

/-- Second parameter of a monitor for a region. -/
def par2 (s : State) (r m : Nat) : Nat := (groupSet s r).p2.getD (m - 1) 0

/-- A monitor trips: counted, and by its class a reason or the group's lock-out (R287). -/
def tripMon (m r : Nat) (g : GalIx) (s : State) : State :=
  if (monAt s r g).trips.getLsbD (m - 1) then s
  else
    let grp := (groupOf s r).val
    let s := s
      |> modMon r g (fun x => { x with trips := x.trips ||| (1#6 <<< (m - 1)) })
      |> countDev 0x701 (m * 16 + grp)
    match classOf s r m with
    | .off => s
    | .safe => addReason r (.monitor m g.val) m g.val true s
    | .lockout => lockGroup grp { cause := m, region := r, gallery := g.val, at_ := s.now, requester := 0x10, node := 0#16 } s

/-- A monitor's trip clears (R281 to R285, R287). -/
def clearMon (m r : Nat) (g : GalIx) (s : State) : State :=
  if (monAt s r g).trips.getLsbD (m - 1) then
    s |> modMon r g (fun x => { x with trips := x.trips &&& ~~~(1#6 <<< (m - 1)) })
      |> dropReasons r (fun q => q == .monitor m g.val)
  else s

/-- Every monitor of a region on a gallery is reset (R278). -/
def resetMons (r : Nat) (g : GalIx) (s : State) : State :=
  { s with safety := { s.safety with mon := merase s.safety.mon (monKey r g) } }
    |> dropReasons r (fun q => match q with
        | .monitor _ h => h == g.val
        | _ => false)

/-! ## The output pins (R291 to R293) -/

/-- Whether any region or group is in safe state or lock-out, or the device in SAFE or LOCKOUT. -/
def anySafe (s : State) : Bool :=
  s.safety.reg.any (·.2.inSafe) || !s.safety.grpLock.isEmpty || devSafe s || devLocked s

/-- Whether any lock-out is in force. -/
def anyLock (s : State) : Bool := !s.safety.grpLock.isEmpty || devLocked s

/-- The level of SAFE_N; the pin is high impedance, read here as low, while the device is in reset (R291). -/
def safeN (s : State) : Bool :=
  s.power.inReset.isNone && !inBoot s && !s.frz.on && s.power.pstate == .p0 && !anySafe s && !s.clocks.refFailure

/-- The level of LOCK_N (R291). -/
def lockN (s : State) : Bool :=
  if s.power.inReset.isSome then false
  else if s.frz.on then s.frz.lockN
  else if inBoot s then s.safety.record.lockRec.isEmpty && !anyLock s
  else !anyLock s

/-- The cause of the oldest lock-out in force (R293). -/
def firstCause (s : State) : Nat :=
  let l := (s.safety.grpLock.map (·.2)) ++ s.safety.devLock.toList
  match l with
  | [] => 0
  | a :: r => (r.foldl (fun b x => if x.at_ < b.at_ then x else b) a).cause

/-- The safety state byte, quick-status 0x09 (R292). -/
def safetyByte (s : State) : Nat :=
  b2n (s.safety.reg.any (·.2.inSafe) || !s.safety.grpLock.isEmpty || devSafe s || devLocked s) + 2 * b2n (devSafe s || devLocked s) +
    4 * b2n (safeN s) + 8 * b2n s.safety.record.pwHash.isSome + 16 * b2n (logFull s) + 32 * b2n s.safety.armed.isSome +
    64 * b2n s.safety.session.isSome

/-- The lock-out byte, quick-status 0x0A (R293). -/
def lockByte (s : State) : Nat :=
  b2n (anyLock s) + 2 * b2n (devLocked s) + 4 * b2n (lockN s) + 16 * firstCause s

end Sys2Proof.Machine
end

