-- ==== Sys2Proof/Machine/LeaseOps.lean ====
section
/-! DEFINITION. Leases: holders, tokens, renewal and the ends of a lease (R29, R352 to R357). -/

namespace Sys2Proof.Machine

/-- The code of a host (R341). -/
def hostCode : HostId → Nat
  | .link => 1
  | .second => 2
  | .service => 3
  | .debug => 4

/-- The place of a host's rings: link, second link, service, debug. -/
def hostIx : HostId → Fin 4
  | .link => 0
  | .second => 1
  | .service => 2
  | .debug => 3

/-- The holder that a host and source make: the source counts for in-band hosts alone (R353). -/
def holderOf (h : HostId) (src : BitVec 16) : Holder :=
  match h with
  | .link => { host := h, src }
  | .second => { host := h, src }
  | .service => { host := h, src := 0#16 }
  | .debug => { host := h, src := 0#16 }

/-- The lease of a domain code. -/
def leaseAt (s : State) (d : Nat) : Lease := (s.mbx.leases.toList)[d]?.getD {}

/-- Set the lease of a domain code. -/
def setLease (d : Nat) (l : Lease) (s : State) : State :=
  if h : d < 15 then { s with mbx := { s.mbx with leases := s.mbx.leases.set d l h } } else s

/-- Whether a holder holds a domain. -/
def holds (s : State) (w : Holder) (d : Nat) : Bool := (leaseAt s d).holder == some w

/-- The domains a holder holds, as a bitmap. -/
def heldMap (s : State) (w : Holder) : Nat := ((List.range 15).filter (holds s w)).foldl (fun a d => a + 2 ^ d) 0

/-- The token of a holder (R353). -/
def tokenOf (s : State) (w : Holder) : Option (BitVec 32) := (s.mbx.tokens.find? fun e => e.1 = w).map (·.2)

/-- The unlocked session of a token ends (R298). -/
def endSession (tok : BitVec 32) (s : State) : State :=
  match s.safety.session with
  | some x => if x.2.1 = tok then { s with safety := { s.safety with session := none } } else s
  | none => s

/-- A host that has lost every lease gives up ring 12 and ring 14 (R391). -/
def releaseRings (w : Holder) (s : State) : State :=
  let mine := match s.log.stream with
    | some h => holderOf h.host h.src = w
    | none => false
  s |> doIf mine (fun s => { s with log := { s.log with stream := none, ring12 := [], streamGap := false } })
    |> doIf (s.diag.snapHost == some (hostCode w.host - 1)) (fun s => { s with diag := { s.diag with snapHost := none } })

/-- A lease ends: the token's staged changes are dropped, its session ends with SAFETY, the token goes with the last domain, and `lease.lost` is raised but for a release (R356, R357). -/
def endLease (d : Nat) (cause : Option Nat) (s : State) : State :=
  match (leaseAt s d).holder with
  | none => s
  | some w =>
    let tok := (tokenOf s w).getD 0#32
    let s := setLease d {} s
    let s := { s with mbx := { s.mbx with staged := s.mbx.staged.filter fun e => e.token != tok } }
    let s := doIf (d == 0x0B) (endSession tok) s
    let s := if heldMap s w = 0 then
        releaseRings w (endSession tok { s with mbx := { s.mbx with tokens := s.mbx.tokens.filter fun e => e.1 != w } })
      else s
    match cause with
    | some c => raise 0x0101 (by8 d ++ by8 (hostCode w.host) ++ by16 w.src.toNat ++ by8 c) s
    | none => s

/-- Every lease that satisfies a test ends. -/
def endLeases (f : Lease → Bool) (cause : Option Nat) (s : State) : State :=
  forAll (List.range 15) (fun d s => if (leaseAt s d).holder.isSome && f (leaseAt s d) then endLease d cause s else s) s

/-- Leases acquired over a lost gallery are dropped (R29). -/
def dropLeasesOver (g : GalIx) (s : State) : State := endLeases (fun l => l.gallery == some g.val) (some 2) s

/-- Renew a domain its holder holds (R355). -/
def renewLease (d : Nat) (s : State) : State := setLease d { leaseAt s d with renewed := s.now } s

end Sys2Proof.Machine
end

