-- ==== Sys2Proof/Machine/Window.lean ====
section
/-! DEFINITION. The quick-status window and the attention causes of port M (R86, R364, R398, R411, R498). -/

namespace Sys2Proof.Machine

/-- Whether the firmware does not serve: `mez_busy` (R342, R364). -/
def mezBusy (s : State) : Bool := !fwRuns s

/-- Whether the boot ROM serves, in RECOVERY: `rom` (R342, R362). -/
def romServes (s : State) : Bool := s.mez.run == .recovery && !s.mez.halted

/-- Whether a transmit direction is fully idle (R75). -/
def fullyIdle (G : Gal) : Bool := G.tx.ts == .active && txSet G.tx == 0#8

/-- The `gallery_state` code (R86). While the clock lane of a fully idle direction starts again it reads IDLE with the clock lane running (DESIGN CHOICE, note 123). -/
def galleryCode (G : Gal) : Nat :=
  if G.off then 0
  else if G.lost.isSome then 6
  else if G.held then 7
  else match G.rx.ts, G.tx.ts with
    | .reset, _ => 7
    | .detect, _ => 1
    | .backoff, _ => 1
    | _, .detect => 1
    | _, .backoff => 1
    | .active, .active => if fullyIdle G then (if G.tx.clkIdle && !G.tx.preamble then 5 else 4) else 3
    | _, _ => 2

/-- Data lanes of the transmit direction in striping or waking. -/
def txWidth (G : Gal) : Nat := popcount (G.tx.active ||| bitmap ((List.range 8).filter fun p => G.lanes[laneOf p].txWaking.isSome))

/-- Data lanes of the receive direction in striping or waking: those of the active set and of the sets to come, but for darned ones, and those that send their tack bursts. -/
def rxWidth (G : Gal) : Nat :=
  popcount (((G.rx.nextActive.foldl (fun m e => m ||| e.2) G.rx.active) &&& ~~~failedMap G) |||
    bitmap ((List.range 8).filter fun p => G.lanes[physOf G p].tack.running))

/-- The gallery state byte (R86). -/
def galleryByte (s : State) (g : GalIx) : Nat :=
  let G := galAt s g
  let tread := match G.rx.tread with
    | some t => t.val
    | none => 7
  let degraded := decide (rxWidth G < G.rx.trained) || decide (txWidth G < G.tx.trained)
  galleryCode G + 8 * tread + 64 * b2n degraded + 128 * b2n G.rx.reversed

/-- The power state code: P1 where an idle mask is not empty (R446). -/
def powerCode (s : State) : Nat :=
  match s.power.pstate with
  | .p0 => if allGals.any fun g => (galSet s g).idleMask != 0#8 then 1 else 0
  | .p2 => 2
  | .p3 => 3

/-- The temperature byte of a sensor (R398). -/
def tempByte (s : State) (g : GalIx) : Nat :=
  if s.diag.tempSeen.getLsbD g.val then
    let t := (s.diag.temps.toList.getD g.val 0) / 10 + 64
    if t < 1 then 1 else min t.toNat 255
  else 0

/-- The sum of the violation counters, saturating (R398). -/
def violations (s : State) : Nat := min (2 ^ 32 - 1) (((List.range 5).map fun i => ctrAt s (0xB01 + i) 0 0 0).foldl (· + ·) 0)

/-- The mailbox status byte (R364). -/
def mailboxByte (s : State) : Nat :=
  let r := s.mbx.rings[2]
  b2n (!r.rsps.isEmpty) + 2 * b2n (!r.evts.isEmpty) + 4 * b2n (mezBusy s) + 8 * b2n (romServes s) + 16 * b2n (decide (r.cmds.length ≥ 8)) +
    32 * b2n (s.mbx.leases.toList.any (·.holder.isSome))

/-- The firmware level, 0 in recovery and while the firmware starts again; it stands in P2, where the firmware is retained (R3, R360). -/
def levelNow (s : State) : Nat := if s.mez.run == .running && !s.mez.halted then s.mez.level.toNat else 0

/-- The 64 bytes of the quick-status window of a running device (R398). -/
def quickLive (s : State) : List Byte :=
  leBytes 8 s.otp.serial.toNat ++ by8 (deviceState s) ++ by8 (safetyByte s) ++ by8 (lockByte s) ++
    by8 (powerCode s % 4 + 4 * b2n s.power.brownout.isSome) ++ by32 (levelNow s) ++ allGals.flatMap (fun g => by8 (galleryByte s g)) ++
    allGals.flatMap (fun g => by8 (tempByte s g)) ++ by32 (violations s) ++ by8 (mailboxByte s) ++ List.replicate 3 0#8 ++
    by32 s.log.written.toNat ++ List.replicate 20 0#8

/-- The quick-status window; in FROZEN every byte but the device state and the temperatures holds its value at the freeze (R498). -/
def quick (s : State) : List Byte :=
  if s.frz.on then s.frz.qs.take 8 ++ by8 5 ++ slice s.frz.qs 9 15 ++ allGals.flatMap (fun g => by8 (tempByte s g)) ++ slice s.frz.qs 32 32
  else quickLive s

/-- Latch the attention causes whose bytes have changed (R411). -/
def noteAttention (s : State) : State :=
  if s.power.inReset.isSome then s
  else
    let m := s.portM
    let sf := BitVec.ofNat 16 (safetyByte s + 256 * lockByte s)
    let st := BitVec.ofNat 8 (deviceState s)
    let bu := mezBusy s
    let c := BitVec.ofNat 5 (4 * b2n (sf != m.lastSafety) + 8 * b2n (st != m.lastState) + 16 * b2n (bu != m.lastBusy))
    { s with portM := { m with causes := m.causes ||| c, lastSafety := sf, lastState := st, lastBusy := bu } }

end Sys2Proof.Machine
end

