-- ==== Sys2Proof/Machine/Frames.lean ====
section
/-! DEFINITION. Mailbox frames: their fields, the responses the device writes, and what the ring hardware answers (R344, R345, R348, R360). -/

namespace Sys2Proof.Machine

/-! ## Frames (R344) -/

/-- Opcode of a frame. -/
def frOp (b : List Byte) : Nat := field b 0 2

/-- Tag of a frame. -/
def frTag (b : List Byte) : Nat := byteAt b 2

/-- Flags of a frame. -/
def frFlags (b : List Byte) : Nat := byteAt b 3

/-- Payload length that a frame states. -/
def frLen (b : List Byte) : Nat := field b 4 2 % 2048

/-- Token of a frame. -/
def frToken (b : List Byte) : Nat := field b 8 4

/-- Sequence number of a frame. -/
def frSeq (b : List Byte) : Nat := field b 12 4

/-- A response frame. -/
def rspFrame (op tag flags status host token seq : Nat) (payload : List Byte) : List Byte :=
  let b := leBytes 2 op ++ leBytes 1 tag ++ leBytes 1 flags ++ leBytes 2 payload.length ++ leBytes 1 status ++ leBytes 1 host ++
    leBytes 4 token ++ leBytes 4 seq ++ padTo 4 payload
  b ++ leBytes 4 (crc32c b).toNat

/-- Set the flags of a response, with its CRC-32C anew (R347). -/
def withFlags (b : List Byte) (flags : Nat) : List Byte :=
  let c := b.take 3 ++ leBytes 1 flags ++ (b.drop 4).take (b.length - 8)
  c ++ leBytes 4 (crc32c c).toNat

/-! ## Rings (R341, R348) -/

/-- The command ring of a host. -/
def cmdRing : HostId → Nat
  | .link => 0
  | .second => 6
  | .service => 2
  | .debug => 4

/-- The response ring of a host. -/
def rspRing : HostId → Nat
  | .link => 1
  | .second => 7
  | .service => 3
  | .debug => 5

/-- The rings of a host. -/
def ringAt (s : State) (h : HostId) : Ring := s.mbx.rings[hostIx h]

/-- Change the rings of a host. -/
def modRing (h : HostId) (f : Ring → Ring) (s : State) : State :=
  { s with mbx := { s.mbx with rings := s.mbx.rings.set (hostIx h).val (f s.mbx.rings[hostIx h]) (hostIx h).isLt } }

/-- Every host, in the order of doorbell priority (R349). -/
def allHosts : List HostId := [.link, .second, .service, .debug]

/-- Write a response for a source; one on ring 3 raises attention (R343, R411). -/
def pushRsp (h : HostId) (src : BitVec 16) (bytes : List Byte) (s : State) : State :=
  s |> modRing h (fun r => { r with rsps := r.rsps ++ [{ bytes, src, at_ := s.now }] })
    |> doIf (h == .service) (fun s => { s with portM := { s.portM with causes := s.portM.causes ||| 1#5 } })

/-- The response of a request. -/
def reqRsp (op : Nat) (q : Req) (flags status token : Nat) (payload : List Byte) : List Byte :=
  rspFrame op q.tag.toNat flags status (hostCode q.host) token q.seq.toNat payload

/-- The ring hardware answers a frame with `restarted` (R360, R361, R362). -/
def hwAnswer (h : HostId) (src : BitVec 16) (op tag token seq status : Nat) (s : State) : State :=
  pushRsp h src (rspFrame op tag 8 status (hostCode h) token seq []) s

/-- The ring hardware answers the waiting command of a host with BUSY (R360). -/
def busyWaiting (h : HostId) (s : State) : State :=
  match (ringAt s h).wait with
  | some w =>
    s |> modRing h (fun r => { r with wait := none })
      |> countDev 0x104 (cmdRing h)
      |> hwAnswer h w.req.src w.op w.req.tag.toNat w.req.token.toNat w.req.seq.toNat 1
  | none => s

/-- The waiting command of a host answers, and its response is remembered (R347, R350). -/
def answerWait (h : HostId) (status : Nat) (payload : List Byte) (s : State) : State :=
  match (ringAt s h).wait with
  | some w =>
    let b := reqRsp w.op w.req 0 status w.req.token.toNat payload
    s |> modRing h (fun r => { r with wait := none, dup := some (w.req.seq, { bytes := b, src := w.req.src, at_ := s.now }) })
      |> pushRsp h w.req.src b
  | none => s

/-- The waiting commands that satisfy a test answer, in the order of priority of their hosts. -/
def answerWaiting (f : Waiting → Bool) (status : Nat) (payload : List Byte) (s : State) : State :=
  forAll allHosts (fun h s =>
    match (ringAt s h).wait with
    | some w => if f w then answerWait h status payload s else s
    | none => s) s

end Sys2Proof.Machine
end

