-- ==== Sys2Proof/Machine/Restart.lean ====
section
/-! DEFINITION. Resets: of the Mezzanine alone, and of the device, with what each keeps (R39, R338, R360, R454, R459, R467). -/

namespace Sys2Proof.Machine

/-! ## Lifecycle (R467, R478) -/

/-- Blown fuses of a group. -/
def blown (m : BitVec 8) : Nat := popcount m

/-- The lifecycle state: 0 FACTORY, 1 SECURED, 2 RETURNED (R467). -/
def lifecycle (o : Otp) : Nat := if blown o.returned ≥ 5 then 2 else if blown o.secured ≥ 5 then 1 else 0

/-- The debug level open without a token (R467, R478). -/
def lifeLevel (o : Otp) : Nat := if lifecycle o = 0 then 2 else 0

/-- The lowest level of a TAP instruction (R480). -/
def tapLevel (ir : Nat) : Nat := if 0x20 ≤ ir ∧ ir ≤ 0x22 then 1 else if 0x30 ≤ ir ∧ ir ≤ 0x32 then 2 else 0

/-- The open level changes: an instruction it loses becomes BYPASS, and below D2 a halt ends (R480, R481). -/
def setLevel (n : Nat) (byToken : Bool) (s : State) : State :=
  { s with dbg := { s.dbg with level := n, byToken, ir := if n < tapLevel s.dbg.ir then 0xFF else s.dbg.ir },
           mez := { s.mez with halted := s.mez.halted && n == 2 } }

/-- A level opened by a token ends, and the nonce is dropped (R459, R478). -/
def endToken (s : State) : State :=
  let s := setLevel (lifeLevel s.otp) false s
  { s with dbg := { s.dbg with nonce := none } }

/-- What every reset ends but those of the Mezzanine alone: a level opened by a token, and an armed freeze trigger (R478, R496). -/
def endArmed (s : State) : State :=
  let s := endToken s
  { s with diag := { s.diag with trigger := none } }

/-! ## The Cutter (R39, R246, R274) -/

/-- The pending plane is discarded, and the extents assigned to its entries return free (R39, R246, R274). -/
def discardPending (s : State) : State :=
  let z := fun (p : CopyPlane) => { p with pend := [] }
  let s := { s with cutter := { s.cutter with copyA := z s.cutter.copyA, copyB := z s.cutter.copyB } }
  forAll ((s.corr.dir.filter fun e => e.2.newExt.isSome).map (·.1)) (fun r => modDir r fun d => { d with newExt := none }) s

/-! ## The Mezzanine alone (R39, R338, R360, R454) -/

/-- The Cutter on a Mezzanine restart: the pending plane and a run in progress are discarded, and no run starts before re-adoption (R39, R246). -/
def cutterRestart (s : State) : State :=
  let cut := !s.cutter.copyA.pend.isEmpty || !s.cutter.copyB.pend.isEmpty || s.cutter.running.isSome
  let s := discardPending s
  { s with cutter := { s.cutter with running := none, again := false, discard := false, enabled := false },
           mez := { s.mez with cutDiscarded := cut } }

/-- The bridge and port L on a Mezzanine restart: requests are discarded without completion, posted writes to port L are to be logged, and port L recovers its bus (R338, R419, R420, R459). -/
def bridgeRestart (s : State) : State :=
  let cut := s.bridge.posted.filter fun w => !w.store
  let noAsker := fun (w : StoreWrite) => match w with
    | .write a d p _ n => .write a d p none n
    | .commit r n => .commit r n
    | .safeCommit r n => .safeCommit r n
  { s with bridge := { s.bridge with prefetch := [], remote := none, remoteTag := 0, posted := s.bridge.posted.filter (·.store) },
           portL := { s.portL with fenced := false, lock := none, lostFor := none, waiting := [], recoverDue := true },
           corr := { s.corr with queue := s.corr.queue.map noAsker },
           mez := { s.mez with postedCut := s.mez.postedCut ++ cut } }

/-- The rings on a Mezzanine restart: responses, events and the memory of duplicates are lost; frames not yet dispatched stand for the ring hardware to answer (R360, R459). -/
def ringRestart (r : Ring) : Ring := { cmds := r.cmds, tail := BitVec.ofNat 8 r.cmds.length }

/-- The Mezzanine restarts: processor, SRAM and rings (R360, R454, R459, R478, R481). -/
def mezRestart (s : State) : State :=
  let waits := allHosts.map fun h => (h, (ringAt s h).wait)
  let s := s |> endLeases (fun _ => true) (some 3) |> cutterRestart |> bridgeRestart |> endToken
  let rings := s.mbx.rings.map ringRestart
  let s := { s with
    mbx := { rings := rings },
    log := { s.log with stream := none, ring12 := [], streamGap := false },
    diag := { s.diag with snapHost := none, ring14 := [] },
    upd := {},
    portM := { s.portM with asm_ := none, nextFrag := 0, frame := none },
    safety := { s.safety with session := none, checking := none },
    power := { s.power with entry := none },
    mez := { s.mez with run := .rom, readopt := true, halted := false, slot := none, trialSince := none, activateDue := none } }
  forAll waits (fun w s => s |> modRing w.1 (fun r => { r with wait := w.2 }) |> busyWaiting w.1) s

/-! ## The whole device (R454, R459) -/

/-- The resets of the whole device. -/
inductive ResetKind where
  | por | pin | command | p3
  deriving DecidableEq, Repr

/-- Counters that outlive a reset: the violations, but for power-on reset (R459, R482). -/
def keptCounters (k : ResetKind) (c : SMap Nat) : SMap Nat := if k = .por then [] else c.filter fun e => 0xB01 ≤ e.1 / 32768 && e.1 / 32768 ≤ 0xB05

/-- The directory record of a region after a reset that keeps the store: its extents, states and images; work in progress for entries that are gone ends (R259, R459). -/
def keptDir (d : DirRec) : DirRec := { d with commitPending := false, drained := false, newExt := none }

/-- The store after a reset (R28, R259, R454, R459). -/
def keptStore (k : ResetKind) (c : Correction) : Correction :=
  match k with
  | .por => {}
  | .p3 => { storeLost := c.storeLost }
  | _ => { dir := c.dir.map fun e => (e.1, keptDir e.2), cells := c.cells, fill := c.fill, eccBad := c.eccBad, storeLost := c.storeLost, selfRefresh := true }

/-- The device enters reset: everything returns to its reset value but for what R459 keeps; `hold` is what keeps it in reset. -/
def resetDevice (k : ResetKind) (hold : Option ResetHold) (s : State) : State :=
  let lost := !s.log.staging.isEmpty
  { now := s.now, free := s.free, out := s.out, pending := s.pending, pins := s.pins, otp := s.otp, mram := s.mram,
    ctr := keptCounters k s.ctr,
    corr := keptStore k s.corr,
    power := { rails := s.power.rails, inReset := hold, sampled := s.pins.straps, oscWaiting := k = .por || k = .p3 || s.power.pstate == .p3, bootAt := s.now,
               since := s.now, porAt := s.power.porAt, vioRange := s.power.vioRange, brownout := if k = .por then none else s.power.brownout,
               brownSustained := k != .por && s.power.brownSustained,
               storeRetained := (k = .pin || k = .command) && s.power.pstate != .p3 && !s.corr.storeLost },
    safety := { record := s.safety.record, recBad := s.safety.recBad, log := s.safety.log, logNext := s.safety.logNext, logAcked := s.safety.logAcked,
                lastHash := s.safety.lastHash, fullRaised := s.safety.fullRaised, recWait := if k = .p3 then s.safety.recWait else [], grpLock := if k = .p3 then s.safety.grpLock else [],
                devLock := if k = .p3 then s.safety.devLock else none },
    log := { entries := s.log.entries, next := s.log.next, gapDue := s.log.gapDue || lost, written := if k = .por then 0#32 else s.log.written,
             lastWrite := s.log.lastWrite },
    mez := { watchdogs := if k = .por then 0#32 else s.mez.watchdogs },
    dbg := { level := lifeLevel s.otp, ir := if k = .por then 0x01 else if lifeLevel s.otp < tapLevel s.dbg.ir then 0xFF else s.dbg.ir, extest := s.dbg.extest, boundary := s.dbg.boundary,
             capture := s.dbg.capture } }

/-- The release of a reset: the straps are sampled and the boot begins (R454, R456). -/
def releaseReset (s : State) : State :=
  { s with power := { s.power with inReset := none, sampled := s.pins.straps, bootAt := s.now, since := s.now } }

/-- `system.reset` runs: the reach of RESET_N, and waiting commands are then answered BUSY (R391, R454). -/
def commandReset (s : State) : State :=
  let waits := allHosts.map fun h => (h, (ringAt s h).wait)
  forAll waits (fun w s => s |> modRing w.1 (fun r => { r with wait := w.2 }) |> busyWaiting w.1) (resetDevice .command none s)

end Sys2Proof.Machine
end

