-- ==== Sys2Proof/Machine/Freeze.lean ====
section
/-! DEFINITION. Freeze, and what falls due between commands: the resets and the freeze that a command ordered to follow its answer, and the end of a qualification pattern (R135, R386, R388, R454, R496 to R499). -/

namespace Sys2Proof.Machine

/-- The islands that a clock enable, local reset or hanging switch keeps from stopping by the token (R497). -/
def standing (s : State) : BitVec 22 :=
  let hung := s.clocks.switching.foldl (fun m q => m ||| (1#22 <<< q.island)) 0#22
  ~~~(s.clocks.gateOn.extractLsb' 0 22) ||| s.clocks.localReset ||| hung

/-- Whether a freeze can start: not in reset, in P3 or FROZEN (R496). -/
def canFreeze (s : State) : Bool := alwaysOn s && s.power.pstate != .p3

/-- A freeze starts for a cause of R496: transmitters idle, the DRAM goes to self-refresh, the trigger disarms, and everything stands still (R497, R498). -/
def freezeNow (cause : Nat) (s : State) : State :=
  if canFreeze s then
    let no := standing s
    let p2 := s.power.pstate == .p2
    let stop := if p2 then 0 else Config.stopTime s.free % 2001
    let f : Freeze := { on := true, cause, trigger := s.diag.trigger.getD 0#16, at_ := s.now, stopped := ~~~no, notRunning := no, qs := quickLive s,
                        lockN := lockN s, stopTime := stop, inP2 := p2 }
    let s := { s with frz := f, free := s.free + 1, diag := { s.diag with trigger := none, fired := false, freezeDue := none },
                      corr := { s.corr with selfRefresh := true } }
    forAll allGals (fun g => emit (.idle g 0xFF#8 true)) s
  else { s with diag := { s.diag with fired := false, freezeDue := none } }

/-! ## What falls due (R386, R388, R454) -/

/-- What falls due of itself at a time. -/
inductive Due where
  | release | reset | restart | freeze | prbsEnd (g : GalIx)
  deriving DecidableEq, Repr

/-- The things that fall due, with their times; in FROZEN none but the release of RESET_N. -/
def dues (s : State) : List (Nat × Due) :=
  let o := fun (x : Option Nat) (d : Due) => (x.map fun t => (t, d)).toList
  o s.pins.resetNLow .release ++
    if alwaysOn s then o s.diag.freezeDue .freeze ++ o s.power.resetDue .reset ++ o s.mez.activateDue .restart ++
      allGals.flatMap (fun g => o (galAt s g).tx.prbsUntil (.prbsEnd g)) else []

/-- The earliest of them up to a time. -/
def firstDue (t : Nat) (s : State) : Option (Nat × Due) :=
  ((dues s).filter (·.1 ≤ t)).foldl (fun b x => match b with
    | some y => if x.1 < y.1 then some x else b
    | none => some x) none

/-- The qualification pattern of a transmit direction ends, and the period structure goes on: the direction comes to REPORT, or the background check of one lane is over (R121, R135, R174). -/
def endPrbs (g : GalIx) (s : State) : State :=
  modTx g (fun x =>
    if x.ts = .qualify then { x with ts := .report, at_ := s.now, prbsUntil := none, slot := 0 } else { x with prbsUntil := none, laneQual := none }) s

/-- Carry out what has fallen due. -/
def runDue (d : Due) (s : State) : State :=
  match d with
  | .release =>
    let s := { s with pins := { s.pins with resetNLow := none } }
    if s.power.inReset = some .pin then releaseReset s else s
  | .reset => commandReset { s with power := { s.power with resetDue := none } }
  | .restart => mezRestart s
  | .freeze => freezeNow 3 s
  | .prbsEnd g => endPrbs g s

/-- Carry out everything that falls due up to a time, in order. -/
def settle (t : Nat) : Nat → State → State
  | 0, s => s
  | n + 1, s =>
    match firstDue t s with
    | some (a, d) => settle t n (runDue d { s with now := max s.now a })
    | none => s

end Sys2Proof.Machine
end

