-- ==== Sys2Proof/Machine/Effect.lean ====
section
/-! DEFINITION. The frame of every meaning: time and what falls due by it, the guard, the effect, and the freeze that an armed trigger starts. -/

namespace Sys2Proof.Machine

/-- The state as a command at time `t` finds it: output latch cleared, what fell due since carried out, time advanced. -/
def begin (t : Nat) (s : State) : State :=
  let s := settle t 16 { s with out := [] }
  { s with now := max s.now t }

/-- What follows every effect within the same command: the freeze of a trigger that fired, and the attention causes that changed (R411, R496). -/
def finish (s : State) : State := noteAttention (if s.diag.fired then freezeNow 2 s else s)

/-- A command's effect: nothing but the passing of time where `ok` does not hold, else `f`. -/
def effect (t : Nat) (ok : State → Bool) (f : State → State) (s : State) : Answer :=
  let s := begin t s
  .next (finish (if ok s then f s else s))

end Sys2Proof.Machine
end

