-- ==== Sys2Proof/Machine/Table.lean ====
section
/-! DEFINITION. The Cutting Table and the placement inputs as the rest of the device reads them: entries and their check, the two copies, announcement records, and the selected input of a region (R130, R223 to R231, R240 to R245). -/

namespace Sys2Proof.Machine

/-! ## Entries (R240) -/

/-- The code of an entry state. -/
def entryCode : EntryState → Nat
  | .empty => 0
  | .straight => 1
  | .placed => 2
  | .dropped => 3

/-- The code of a site. -/
def siteCode : Site → Nat
  | .none => 0
  | .here => 1
  | .landing _ => 2
  | .driver => 3

/-- The landing of a site. -/
def siteLanding : Site → BitVec 4
  | .landing n => n
  | _ => 0#4

/-- Bits 119 to 0 of an entry. -/
def entryBits (e : Entry) : BitVec 120 :=
  0#30 ++ e.epoch ++ BitVec.ofBool e.pinned ++ BitVec.ofBool e.dropCause ++ BitVec.ofBool e.dropTo ++ e.group ++ BitVec.ofBool e.bank ++
    BitVec.ofBool e.dbuf ++ e.storeUnits ++ e.storeBase ++ e.pipes ++ siteLanding e.site ++ BitVec.ofNat 2 (siteCode e.site) ++ e.share ++
    e.dropEgress ++ e.egress ++ BitVec.ofBool e.selNow ++ e.selMode ++ BitVec.ofBool e.dual ++ e.ingressB ++ e.ingressA ++ e.format ++
    e.priority ++ BitVec.ofNat 2 (entryCode e.state)

/-- The check byte an entry should carry. -/
def entryCheck (e : Entry) : BitVec 8 := crc8 (leBytes 15 (entryBits e).toNat)

/-- The entry with its check byte. -/
def sealEntry (e : Entry) : Entry := { e with check := entryCheck e }

/-- Whether the check byte holds. -/
def entryOk (e : Entry) : Bool := e.check == entryCheck e

/-- The 16 bytes of an entry. -/
def entryBytes (e : Entry) : List Byte := leBytes 15 (entryBits e).toNat ++ [e.check]

/-- Whether an entry is in use: PLACED or DROPPED. -/
def inUse (e : Entry) : Bool := e.state == .placed || e.state == .dropped

/-! ## The two copies (R28, R241) -/

/-- Both copies are lost: the table is out of use and the internal-fault monitor trips (R27, R241, R286). -/
def loseTable (s : State) : State :=
  { s with cutter := { s.cutter with tableLost := true } } |> internalTrip 0x3 0 fun f => { f with tableTrip := true }

/-- Fence one copy, A or B, for a failing entry. -/
def fenceCopy (b : Bool) (r : Nat) (s : State) : State :=
  let c := s.cutter
  let c := if b then { c with copyB := { c.copyB with fenced := true, rejoin := none } }
    else { c with copyA := { c.copyA with fenced := true, rejoin := none } }
  raiseRegion 0x0406 (BitVec.ofNat 12 r) (by8 (b2n b) ++ by8 0 ++ by16 r) { s with cutter := c }

/-- Read an entry in force: both copies and both checks (R241). -/
def readEntry (r : Nat) (s : State) : Entry × State :=
  let c := s.cutter
  let a := mget {} c.copyA.inForce r
  let b := mget {} c.copyB.inForce r
  if c.tableLost then ({}, s)
  else if c.copyA.fenced then (if entryOk b then (b, s) else ({}, loseTable s))
  else if c.copyB.fenced then (if entryOk a then (a, s) else ({}, loseTable s))
  else if entryOk a && entryOk b then (if a = b then (a, s) else ({}, loseTable s))
  else if entryOk a then (a, fenceCopy true r s)
  else if entryOk b then (b, fenceCopy false r s)
  else ({}, loseTable s)

/-- The comparison that a read of a region's entry makes (R241). -/
def audit (r : Nat) (s : State) : State := (readEntry r s).2

/-- The comparison that a read of every entry makes (R241). -/
def auditAll (s : State) : State :=
  forAll ((s.cutter.copyA.inForce.map (·.1) ++ s.cutter.copyB.inForce.map (·.1)).eraseDups) audit s

/-- The entry in force of a region; the command that reads it has compared the copies first with `readEntry`, `audit` or `auditAll`. -/
def entryOf (s : State) (r : Nat) : Entry := mget {} (forcePlane s) r

/-- Write an entry into the in-force plane of both copies, but for a fenced one that is not rebuilt. -/
def putForce (r : Nat) (e : Entry) (s : State) : State :=
  let w := fun (p : CopyPlane) => if p.fenced && p.rejoin.isNone then p else { p with inForce := mset {} p.inForce r (sealEntry e) }
  { s with cutter := { s.cutter with copyA := w s.cutter.copyA, copyB := w s.cutter.copyB } }

/-- The pending plane that reads use. -/
def pendPlane (s : State) : SMap PendEntry := if s.cutter.copyA.fenced then s.cutter.copyB.pend else s.cutter.copyA.pend

/-- Write, or with `none` remove, a pending entry in both copies. -/
def putPend (r : Nat) (e : Option PendEntry) (s : State) : State :=
  let w := fun (p : CopyPlane) => { p with pend := match e with
    | some x => mput p.pend r { x with e := sealEntry x.e }
    | none => merase p.pend r }
  { s with cutter := { s.cutter with copyA := w s.cutter.copyA, copyB := w s.cutter.copyB } }

/-- The regions with an entry in force. -/
def forceRegions (s : State) : List Nat := (forcePlane s).map (·.1)

/-! ## Galleries of an entry -/

/-- South galleries of a 4-bit map (R240). -/
def southOf (m : BitVec 4) : List GalIx := ((List.range 4).filter fun i => m.getLsbD i).map fun i => galOf (i + 4)

/-- The 4-bit map of South galleries. -/
def southMap (l : List Nat) : BitVec 4 := l.foldl (fun m g => m ||| (1#4 <<< (g - 4))) 0#4

/-- The North gallery whose copy an entry takes: `ingress_a`, or the selected one of a pair. -/
def ingressOf (e : Entry) : Nat := if e.dual && e.selNow then e.ingressB.toNat else e.ingressA.toNat

/-- Whether a North gallery is an ingress of an entry. -/
def isIngress (e : Entry) (g : GalIx) : Bool := g.val == e.ingressA.toNat || (e.dual && g.val == e.ingressB.toNat)

/-- The North gallery whose flight a South gallery carries: the lowest ingress of a region placed on it, else its pair (R130). -/
def flightSource (s : State) (g : GalIx) : GalIx :=
  let l := (forcePlane s).flatMap fun e => if e.2.state = .placed ∧ g ∈ southOf e.2.egress then e.2.ingressA.toNat :: (if e.2.dual then [e.2.ingressB.toNat] else []) else []
  match l with
  | [] => pairOf g
  | a :: r => galOf (r.foldl min a)

/-- Whether the pair of a gallery forwards: both of its galleries carry parcels (R42). -/
def pairFlows (s : State) (g : GalIx) : Bool := galActive s g && galActive s (pairOf g)

/-! ## Announcement records (R223, R225) -/

/-- The placement inputs of a region. -/
def regionIn (s : State) (r : Nat) : RegionIn := mget {} s.cutter.regions r

/-- Change the placement inputs of a region. -/
def modRegionIn (r : Nat) (f : RegionIn → RegionIn) (s : State) : State :=
  { s with cutter := { s.cutter with regions := mmod {} s.cutter.regions r f } }

/-- Whether two records are identical in bytes 0, 1 and 3 to 11 (R225). -/
def sameRecord (a b : AnnRec) : Bool :=
  a.format == b.format && a.priority == b.priority && a.subframes == b.subframes && a.frameRate == b.frameRate && a.width == b.width &&
    a.height == b.height

/-- Whether two records form a redundant pair. -/
def fitsPair (a b : Nat × AnnRec) : Bool := a.2.flight != b.2.flight && sameRecord a.2 b.2

/-- The input of an announced region: lower ingress, the second of a pair, and the record (R225). -/
def inputOf (x : RegionIn) : Option (Nat × Option Nat × AnnRec) :=
  match x.ann with
  | [] => none
  | a :: r =>
    match (a :: r).findSome? fun p => ((a :: r).find? fun q => p.1 < q.1 && fitsPair p q).map fun q => (p, q) with
    | some (p, q) => some (p.1, some q.1, p.2)
    | none => some (a.1, none, a.2)

/-- The announcement record this device holds for a region. -/
def recordOf (s : State) (r : Nat) : Option AnnRec := (inputOf (regionIn s r)).map (·.2.2)

/-- The sub-frame period of a region in ns: announced, or 100 ms (R245, R288). -/
def periodOf (s : State) (r : Nat) : Nat :=
  match recordOf s r with
  | some a => 1000000000000 / (a.frameRate * (a.subframes.toNat + 1))
  | none => 100000000

/-- Announced `subframes` of a region, 0 where it is not announced (R288). -/
def subsOf (s : State) (r : Nat) : Nat :=
  match recordOf s r with
  | some a => a.subframes.toNat
  | none => 0

/-- The key of a cut mark (R244). -/
def cutKeyOf (c : CutMark) : Nat := c.frame.toNat * 16 + c.subframe.toNat

/-- The key that follows a key (R244, R288). -/
def keyAfter (sub k : Nat) : Nat := (if k % 16 < sub then k + 1 else (k / 16 + 1) * 16) % 2 ^ 28

/-- Whether a key lies later than another, modulo 2^28 (R281). -/
def keyLater (a b : Nat) : Bool := let d := modSub (2 ^ 28) a b; 0 < d && d < 2 ^ 27

/-! ## Input switches (R245) -/

/-- A pending entry of the same pair, with the mode automatic, selects the copy that is selected now (R242, R245). -/
def followSwitch (r : Nat) (e : Entry) (s : State) : State :=
  match mget? (pendPlane s) r with
  | some x =>
    if x.e.dual && x.e.selMode == 0#2 && x.e.ingressA == e.ingressA && x.e.ingressB == e.ingressB then
      putPend r (some { x with e := { x.e with selNow := !e.selNow } }) s
    else s
  | none => s

/-- Switch a region's pair to the other copy: the new one waits for a cut mark later than the last key forwarded (R245). -/
def switchInput (r : Nat) (s : State) : State :=
  let e := entryOf s r
  s |> putForce r { e with selNow := !e.selNow }
    |> followSwitch r e
    |> countDev 0x504 0
    |> fun s => { s with cutter := { s.cutter with waitKey := mput s.cutter.waitKey r (mget 0 s.cutter.lastKey r),
                                                   selCutAt := mput s.cutter.selCutAt r s.now } }

/-- A gallery leaves ACTIVE: pairs that select its copy switch, where the mode is automatic and the other copy's gallery is ACTIVE (R245). -/
def switchAway (g : GalIx) (s : State) : State :=
  let s := auditAll s
  forAll (forceRegions s) (fun r s =>
    let e := entryOf s r
    let other := galOf (if e.selNow then e.ingressA.toNat else e.ingressB.toNat)
    if inUse e && e.dual && e.selMode == 0#2 && ingressOf e == g.val && galActive s other then switchInput r s else s) s

end Sys2Proof.Machine
end

