-- ==== Sys2Proof/Machine/Loss.lean ====
section
/-! DEFINITION. Losing a gallery and the parcels it held (R27, R29, R180, R181, R215). -/

namespace Sys2Proof.Machine

/-! ## Queues -/

/-- Whether an item is a parcel of a class. -/
def isParcel (k : Cls) (i : Item) : Bool :=
  match i with
  | .parcel p => pCls p == k
  | _ => false

/-- Parcels of a class in a queue. -/
def parcelsIn (k : Cls) (q : List QItem) : Nat := (q.filter fun i => isParcel k i.item).length

/-- Bytes of a queue (R198). -/
def queueBytes (q : List QItem) : Nat := (q.map fun i => itemLen i.item).foldl (· + ·) 0

/-- Free bytes of a bobbin that an item held; its limits advance with the next credit block (R202). -/
def dropStored (g : GalIx) (k : Cls) (n : Nat) (s : State) : State :=
  modGal g (fun G => { G with crx := { G.crx with
    stored := cset G.crx.stored k (cget G.crx.stored k - n)
    quietAt := if cget G.crx.stored k - n = 0 then cset G.crx.quietAt k s.now else G.crx.quietAt } }) s

/-- Append an item to an egress stream queue; the direction has something to send (R75). -/
def pushEgress (g : GalIx) (k : Cls) (i : QItem) (s : State) : State :=
  modGal g (fun G => { G with egress := cset G.egress k (cget G.egress k ++ [i]), tx := { G.tx with emptyAt := none } }) s

/-- A gap that this device originates (R212). -/
def mkGap (r : Region) (reason first count : Nat) : Gap :=
  { region := r, reason := BitVec.ofNat 4 reason, firstLine := BitVec.ofNat 16 first, lineCount := BitVec.ofNat 16 count }

/-- Queue a gap originated here on egress galleries, or at port 8 for a region corrected here (R212, R213). -/
def sendGap (gs : List GalIx) (here : Bool) (b : Gap) (s : State) : State :=
  let n := s.hall.arrivalSeq
  let it : QItem := { item := .gap b, port := 9, arrival := n, targets := [], origin := b.reason.toNat, next := gs.map (·.val) }
  let s := { s with hall := { s.hall with arrivalSeq := n + 1 } }
  if here then { s with corr := { s.corr with inQ := s.corr.inQ ++ [it] } }
  else forAll gs (fun g => pushEgress g .px { it with next := [] }) s

/-! ## What is lost (R215) -/

/-- The regions a gallery carries: those whose entry names it, and in STRAIGHT those seen on it or its pair. -/
def regionsOf (s : State) (g : GalIx) : List Nat :=
  let named := fun (e : Entry) => inUse e && (isIngress e g || g ∈ southOf e.egress || g ∈ southOf e.dropEgress)
  let seen := fun (r : Nat) => (mget? (galAt s g).expect r).isSome || (!inUse (entryOf s r) && (mget? (galAt s (pairOf g)).expect r).isSome)
  (List.range 4096).filter fun r => named (entryOf s r) || seen r

/-- The galleries a region's PX from an ingress go to: `egress` of its entry, or the pair by the straight rule (R221, R243). -/
def egressFor (s : State) (r : Nat) (g : GalIx) : List GalIx :=
  let e := entryOf s r
  if isNorth g && inUse e then
    (if e.state = .placed ∧ ingressOf e = g.val then (southOf e.egress).filter fun h => (galAt s h).lost.isNone else [])
  else if (galAt s (pairOf g)).lost.isNone then [pairOf g] else []

/-- The PX parcels that a gallery holds: in its bobbin, then those that the walk has delivered. -/
def heldPx (G : Gal) : List Parcel :=
  let px := fun (i : Item) => match i with
    | .parcel p => if pCls p = .px then some p else none
    | _ => none
  G.bobbin.px.filterMap (fun i => px i.item) ++ G.rx.arrived.filterMap fun i => match i with
    | .item j => px j
    | _ => none

/-- The first line of a region not wholly sent from an ingress: of the PX that the gallery holds, else of the expected position; none where the frame was wholly sent or never begun. -/
def firstUnsent (s : State) (g : GalIx) (r : Nat) : Option Nat :=
  match (heldPx (galAt s g)).find? fun p => (pRegion p).toNat == r with
  | some p => some (pLine p)
  | none =>
    match mget? (galAt s g).expect r with
    | none => none
    | some x =>
      let done := match recordOf s r with
        | some a => x.line ≥ a.height || (x.line + 1 = a.height && x.pixel ≥ a.width)
        | none => false
      if x.eof || done then none else some x.line

/-- Gaps of reason 0x2 for the PX that were in the bobbin or on their way to it (R212, R215). -/
def lossGaps (g : GalIx) (s : State) : State :=
  forAll (((galAt s g).expect.map (·.1) ++ (heldPx (galAt s g)).map fun p => (pRegion p).toNat).eraseDups) (fun r s =>
    match firstUnsent s g r with
    | some l => sendGap ((egressFor s r g).filter (· ≠ g)) (inUse (entryOf s r) && (entryOf s r).site == .here) (mkGap (BitVec.ofNat 12 r) 2 l 0) s
    | none => s) s

/-- Take a gallery out of an item's outputs; none where no output remains. -/
def withoutTarget (g : GalIx) (i : QItem) : Option QItem :=
  if g.val ∈ i.targets ∨ g.val ∈ i.next then
    let i := { i with targets := i.targets.filter (· ≠ g.val), next := i.next.filter (· ≠ g.val) }
    if i.targets.isEmpty ∨ (8 ∈ i.targets ∧ i.next.isEmpty) then none else some i
  else some i

/-- Whether an item is dropped for want of an output. -/
def isOrphan (g : GalIx) (i : QItem) : Bool := (withoutTarget g i).isNone

/-- Items queued elsewhere for a lost gallery lose it; those with no other output are discarded, messages among them as unroutable, and free their bobbin (R215). -/
def dropTargets (g : GalIx) (s : State) : State :=
  let s := forAll allGals (fun h s =>
    forAll classes (fun k s =>
      let q := cget (galAt s h).bobbin k
      let gone := q.filter (isOrphan g)
      s |> modGal h (fun G => { G with bobbin := cset G.bobbin k (q.filterMap (withoutTarget g)) })
        |> dropStored h k ((gone.map (·.bytes)).foldl (· + ·) 0)
        |> doIf (k != .px) (fun s => (List.range gone.length).foldl (fun s _ => countDev 0x43B 0 s) s)) s) s
  let outs := s.hall.mgmtOut.filter (isOrphan g)
  let cut := fun (x : HallXfer) =>
    let l := x.outs.filter (· ≠ g.val)
    if l.isEmpty then none else some { x with outs := l, todo := x.todo.filter (· ≠ g.val) }
  let ports := s.hall.ports.map fun p => { p with cur := p.cur.bind cut }
  let hall := { s.hall with mgmtOut := s.hall.mgmtOut.filterMap (withoutTarget g), ports := ports, grants := s.hall.grants.set g.val none }
  let inQ := s.corr.inQ.filterMap fun i =>
    let l := i.next.filter (· ≠ g.val)
    if l.isEmpty && !i.next.isEmpty then none else some { i with next := l }
  let s := { s with hall := hall, corr := { s.corr with inQ := inQ, outQ := s.corr.outQ.filterMap (withoutTarget g) } }
  (List.range outs.length).foldl (fun s _ => countDev 0x43B 0 s) s

/-- The parcels of a class that the bobbin, the egress queue and the receiver of a gallery hold. -/
def heldParcels (G : Gal) (k : Cls) : Nat :=
  parcelsIn k (cget G.bobbin k) + parcelsIn k (cget G.egress k) +
    (G.rx.arrived.filter fun i => match i with
      | .item j => isParcel k j
      | .broken _ | .train _ _ => false).length +
    (match G.rx.open_ with
     | some o => b2n (clsOf (byteAt o.bytes 0) == k && !o.bytes.isEmpty)
     | none => 0)

/-- The queues, buffers, credits and positions of a gallery are cleared. -/
def clearTraffic (g : GalIx) (s : State) : State :=
  modGal g (fun G =>
    let rx := { G.rx with open_ := none, basting := [], arrived := [], hopIn := [], held := false, nextActive := [], jumps := [], rejoin := none,
                          sentWait := [] }
    let tx := { G.tx with ring := [], frozenRing := false, replay := [], superseded := [], hopQueue := [], repeats := [], cur := [], filled := [],
                          trains := [], nextActive := [], rejoining := none, readyWait := none, laneQual := none, prbsUntil := none, countdown := 0,
                          heldRetrain := none, heldStep := none, reBoundary := none, clkStopAt := none, emptyAt := none }
    let lanes := G.lanes.map fun L => { L with deskew := [], withheld := none, seam := 16 }
    { G with bobbin := ⟨[], [], [], []⟩, egress := ⟨[], [], [], []⟩, crx := {}, ctx := {}, expect := [], whole := [], toCutter := [],
             rx := rx, tx := tx, lanes := lanes }) s

/-- The parcel of a gallery that crosses the Hall is gone, and its outputs are free again. -/
def clearPort (g : GalIx) (s : State) : State :=
  let port := s.hall.ports[g.val]
  let grants := s.hall.grants.map fun o => if o = some (Fin.castLE (by decide) g) then none else o
  { s with hall := { s.hall with ports := s.hall.ports.set g.val { port with cur := none }, grants := grants } }

/-- Everything a gallery held is lost: counted per class, gaps for its PX on the surviving galleries, and its queues, buffers, credits and positions cleared (R180, R215). -/
def dropTraffic (g : GalIx) (s : State) : State :=
  let G := galAt s g
  let s := forAll classes (fun k => countN 0x43A g.val 0 (clsNo k) (heldParcels G k)) s
  s |> lossGaps g |> clearPort g |> dropTargets g |> clearTraffic g

/-- The event `gallery.lost` (R180, R215). -/
def lostBody (s : State) (g : GalIx) (cause : Nat) (lost : List Nat) : List Byte :=
  let rs := regionsOf s g
  by8 g.val ++ by8 cause ++ (lost.flatMap fun n => by16 (min n 65535)) ++ by8 (min rs.length 100) ++ by8 (b2n (decide (rs.length > 100))) ++
    ((rs.take 100).flatMap by16)

/-- The loss of either direction loses the gallery: it is fenced, its transmitters idle, its buffers are discarded, leases over it drop, and the loss is reported (R29, R180, R181). -/
def loseGallery (g : GalIx) (cause : Nat) (s : State) : State :=
  if (galAt s g).lost.isSome then s
  else
    let s := auditAll s
    let lost := classes.map (heldParcels (galAt s g))
    let body := lostBody s g cause lost
    s |> dropTraffic g
      |> switchAway g
      |> modGal g (fun G =>
          let rx := { G.rx with ts := .lost, at_ := s.now, lanes := 0#8, active := 0#8, attempt := {}, stepTo := none, goal := none, prbsOn := false, clkStopped := false,
                                 clkStopSeq := none, steppedDown := false, quietSince := none }
          let tx := { G.tx with ts := .lost, at_ := s.now, lanes := 0#8, active := 0#8, stepTo := none, goal := none, clkIdle := true, started := false, preamble := false }
          let lanes := G.lanes.map fun L => { L with txIdle := true, txWaking := none, txLeaving := none, txDrain := 0, block := .hunt, cw := .hunt, mkLock := false }
          { G with lost := some cause, capTx := 0, capRx := 0, rx := rx, tx := tx, lanes := lanes })
      |> emit (.idle g 0xFF#8 true)
      |> countGal 0x426 g 0
      |> dropLeasesOver g
      |> raise 0x0207 body

end Sys2Proof.Machine
end

