-- ==== Sys2Proof/Machine/Hop.lean ====
section
/-! DEFINITION. Shared operations of the hop engines: hop-control blocks, active sets, idle and wake, attempts that fail, loss reports, replay and rejoin (chapters 02, 04 and 05). -/

namespace Sys2Proof.Machine

/-! ## Sending -/

/-- Whether a transmit lane may carry the stream: far termination found, not RETIRED, not MISWIRED (R123, R126). -/
def offers (L : Lane) : Bool := !L.retired && !L.retiredTx && !L.miswired && L.termination

/-- Transmit lanes that the device offers (R126). -/
def offered (G : Gal) : BitVec 8 := bitmap (allLanes.filterMap fun l => if offers G.lanes[l] then some l.val else none)

/-- Transmit lanes in electrical idle that a wake can bring back (R75, R79, R177). -/
def wakeable (G : Gal) : BitVec 8 := offered G &&& bitmap ((List.range 8).filter fun p => G.lanes[laneOf p].txIdle)

/-- Whether a direction that re-steps has stopped at its boundary and not yet retuned (R139, R145). -/
def pastBoundary (x : TxDir) : Bool :=
  match x.stepTo with
  | some b => modSub 1024 b.boundary.toNat x.seq ≥ 512
  | none => true

/-- The lanes that carry the period structure: those in striping, or in training those taking part, but for PRBS and a retuning transmitter (R123, R124, R135, R139). -/
def sendLanes (G : Gal) : BitVec 8 :=
  match G.tx.ts with
  | .active | .guarding => G.tx.active
  | .detect => if G.tx.started then bitmap ((List.range 8).filter fun p => !G.lanes[laneOf p].txIdle) else 0#8
  | .clock | .align | .exchange | .equalise | .report | .settled => G.tx.lanes
  | .qualify => if G.tx.prbsUntil.isSome then 0#8 else G.tx.lanes
  | .switching => if pastBoundary G.tx then 0#8 else G.tx.lanes
  | .reset | .off | .backoff | .lost => 0#8

/-- The lanes that a hop-control block for every lane of the direction goes on; with all lanes idle those it will wake (R75). -/
def txLanes (G : Gal) : BitVec 8 :=
  match G.tx.ts with
  | .active | .guarding =>
    if G.tx.active != 0#8 then G.tx.active else if txSet G.tx != 0#8 then txSet G.tx else wakeable G
  | _ => G.tx.lanes

/-- Whether a direction takes hop-control blocks for its lanes. -/
def takesHops (ts : TrainState) : Bool :=
  match ts with
  | .reset | .off | .detect | .backoff | .lost => false
  | _ => true

/-- Whether a direction sends a hop-control block in its present state: in GUARD and SWITCH only STEP, in QUALIFY only QUAL, in CLOCK none (R145, R149). -/
def hopOk (ts : TrainState) (h : Hop) : Bool :=
  match ts with
  | .guarding | .switching => match h with
    | .step _ => true
    | _ => false
  | .qualify => match h with
    | .qual .. => true
    | _ => false
  | .clock => false
  | _ => true

/-- Queue a hop-control block for lanes, or for any one of them (R92, R108); the direction has something to send (R75). -/
def queueHop (g : GalIx) (ps : List (Option Nat)) (lanes : BitVec 8) (h : Hop) (s : State) : State :=
  if takesHops (galAt s g).tx.ts && lanes != 0#8 then
    s |> emit (.hop g lanes h)
      |> modTx g (fun x => { x with hopQueue := x.hopQueue ++ ps.map fun p => (p, h), emptyAt := none })
  else s

/-- Send a hop-control block on the lanes of a map. -/
def sendHop (g : GalIx) (lanes : BitVec 8) (h : Hop) (s : State) : State := queueHop g ((positions lanes).map some) lanes h s

/-- Send a hop-control block on every lane of the gallery's transmit direction. -/
def sendAll (g : GalIx) (h : Hop) (s : State) : State := sendHop g (txLanes (galAt s g)) h s

/-- Send a hop-control block on any lane of the transmit direction. -/
def sendAny (g : GalIx) (h : Hop) (s : State) : State := queueHop g [none] (txLanes (galAt s g)) h s

/-- Send a hop-control block where a repeat sends it. -/
def sendWhere (g : GalIx) (d : RepTo) (h : Hop) (s : State) : State :=
  match d with
  | .all => sendAll g h s
  | .any => sendAny g h s
  | .lane p => sendHop g (bit8 p) h s

/-- Whether one hop-control block takes the place of another that is repeated: the same subtype, and for EQ_REQ and LANE_CHECK the same lane. -/
def replaces (a b : Hop) : Bool :=
  match a, b with
  | .eqReq p _ _, .eqReq q _ _ => p == q
  | .laneCheck p _ _, .laneCheck q _ _ => p == q
  | _, _ => hopSub a == hopSub b

/-- Send a hop-control block now and again every so many slots, `left` times more or until it is answered; it takes the place of the one repeated before (R93, R125). -/
def sendRep (g : GalIx) (d : RepTo) (every : Nat) (left : Option Nat) (h : Hop) (s : State) : State :=
  if takesHops (galAt s g).tx.ts then
    s |> sendWhere g d h
      |> modTx g (fun x =>
          let due := x.slotNo + every
          { x with repeats := x.repeats.filter (fun r => !(r.dest == d && replaces h r.hop)) ++ [{ dest := d, hop := h, every, due, left }] })
  else s

/-- Something answers a repeated hop-control block: it stops. -/
def stopRep (g : GalIx) (f : Hop → Bool) (s : State) : State := modTx g (fun x => { x with repeats := x.repeats.filter fun r => !f r.hop }) s

/-- Send the repeats that are due, but those of which a copy still waits. -/
def runRepeats (g : GalIx) (s : State) : State :=
  let s := if (galAt s g).tx.repeats.all fun r => live (galAt s g).tx r.hop then s
    else modTx g (fun x => { x with repeats := x.repeats.filter fun r => live x r.hop }) s
  let now := (galAt s g).tx.slotNo
  let due := (galAt s g).tx.repeats.filter fun r => r.due ≤ now
  let s := forAll due (fun r s =>
    let x := (galAt s g).tx
    let waits := x.hopQueue.any fun e => e.2 == r.hop && match r.dest with
      | .lane p => e.1 == some p
      | _ => true
    if waits then s else sendWhere g r.dest r.hop s) s
  let next := fun (r : Repeat) =>
    if r.due ≤ now then
      match r.left with
      | some 0 => none
      | some (n + 1) => if n = 0 then none else some { r with due := now + r.every, left := some n }
      | none => some { r with due := now + r.every }
    else some r
  if due.isEmpty then s else modTx g (fun x => { x with repeats := x.repeats.filterMap next }) s
where
  /-- STEP goes out no more once its boundary has passed. -/
  live (x : TxDir) (h : Hop) : Bool :=
    match h with
    | .step b => modSub 1024 b.boundary.toNat x.seq < 512
    | _ => true

/-- Take a received hop-control block off the queue of those not yet acted on, if it stands there (R92). -/
def takeHop (g : GalIx) (h : Hop) (s : State) : State :=
  modRx g (fun r => { r with hopIn := r.hopIn.eraseP fun e => e.2.2 = h }) s

/-- The period in which a received hop-control block that is not yet acted on came; the one being walked where it is not known. -/
def hopPeriod (r : RxDir) (h : Hop) : Nat := ((r.hopIn.find? fun e => e.2.2 == h).map (·.2.1)).getD r.walkSeq

/-- Send one block on a lane, scrambled (R88). -/
def sendBlk (g : GalIx) (p : Nat) (b : Block) (s : State) : State :=
  let e := scrambleBlk (laneAt s g (laneOf p)).txScram b
  s |> emit (.block g p e.2) |> modLane g (laneOf p) (fun L => { L with txScram := e.1 })

/-- The 6-bit lane position of R104, but for its logical position: the sender's gallery and side. -/
def srcOf (g : GalIx) : BitVec 3 := BitVec.ofNat 3 (g.val % 4 + if isNorth g then 0 else 4)

/-! ## Lane facts -/

/-- Whether a receive lane is in lock: codeword lock at FEC treads, block and marker lock at the others (R111, R112). -/
def inLock (fec : Bool) (L : Lane) : Bool := if fec then L.cw == .locked else L.block == .locked && L.mkLock

/-- The receive lanes in lock, by logical position (R106). -/
def lockMap (G : Gal) : BitVec 8 := bitmap ((List.range 8).filter fun p => inLock G.rx.fec G.lanes[physOf G p])

/-! ## Striping and idle -/

/-- Whether key (s, j) stands at or after key (s0, j0), within half the sequence range. -/
def keyGe (a b : Nat × Nat) : Bool :=
  let d := modSub 1024 a.1 b.1
  if d = 0 then b.2 ≤ a.2 else d < 512

/-- A change of an active set at the start of a period, among the changes announced: `f` gives the set there from the one before, and the later ones change alike (R107). -/
def changeAt (now : BitVec 8) (l : List (Nat × BitVec 8)) (seq : Nat) (f : BitVec 8 → BitVec 8) : List (Nat × BitVec 8) :=
  let before := l.filter fun e => !keyGe (e.1, 0) (seq, 0)
  let after := l.filter fun e => keyGe (e.1, 0) (seq, 0) && e.1 != seq
  let base := match l.find? (·.1 == seq), before.getLast? with
    | some e, _ => e.2
    | none, some e => e.2
    | none, none => now
  before ++ [(seq, f base)] ++ after.map fun e => (e.1, f e.2)

/-- Change the transmit active set from a period on. -/
def txChange (g : GalIx) (seq : Nat) (f : BitVec 8 → BitVec 8) (s : State) : State :=
  modTx g (fun x => { x with nextActive := changeAt x.active x.nextActive (seq % 1024) f }) s

/-- Change the receive active set from a period on. -/
def rxChange (g : GalIx) (seq : Nat) (f : BitVec 8 → BitVec 8) (s : State) : State :=
  modRx g (fun x => { x with nextActive := changeAt x.active x.nextActive (seq % 1024) f }) s

/-- The last period that changes of the transmit active set already announced leave untouched: the one after the present, or the latest change. -/
def settledSeq (x : TxDir) : Nat := ((x.nextActive.getLast?).map (·.1)).getD ((x.seq + 1) % 1024)

/-- IDLE_ENTRY (R73): each lane of the map in striping sends its idle notice and leaves striping at the boundary the notice names; so does a DARNED lane, which sends idle blocks beside the striping, and whose notice goes on a lane in striping as well (R178; note 117). Other lanes are idle at once. With `clk`, clock-stop notices go out on the lanes that were in striping, for the period after the one in which they leave. -/
def idleEnter (g : GalIx) (m : BitVec 8) (clk : Bool) (s : State) : State :=
  let G := galAt s g
  let x := G.tx
  let last := settledSeq x
  let leave := positions (m &&& txSet x)
  let aside := (positions (m &&& ~~~txSet x)).filter fun p => G.lanes[laneOf p].txFailed && !G.lanes[laneOf p].txIdle
  let rest := (positions (m &&& ~~~txSet x)).filter fun p => !G.lanes[laneOf p].txFailed
  let pos := fun (p : Nat) => srcOf g ++ BitVec.ofNat 3 p
  let out := (last + 1) % 1024
  let stop := (last + 2) % 1024
  s |> forAll (leave ++ aside) (fun p => fun s => s
        |> sendHop g (bit8 p) (.idleNotice (BitVec.ofNat 10 last) (pos p))
        |> modLane g (laneOf p) (fun L => { L with txLeaving := some out }))
    |> forAll aside (fun p => sendAny g (.idleNotice (BitVec.ofNat 10 last) (pos p)))
    |> forAll rest (fun p => modLane g (laneOf p) fun L => { L with txIdle := true, txWaking := none })
    |> doIf (!leave.isEmpty) (txChange g out (· &&& ~~~bitmap leave))
    |> doIf clk (fun s => s
        |> forAll leave (fun p => sendHop g (bit8 p) (.clockStop (BitVec.ofNat 10 stop) (pos p)))
        |> modTx g (fun y => { y with clkStopAt := some stop }))

/-- A lane's drive goes off (R73). -/
def driveOff (g : GalIx) (p : Nat) (s : State) : State :=
  s |> modLane g (laneOf p) (fun L => { L with txIdle := true, txWaking := none, txLeaving := none, txDrain := 0 })
    |> emit (.idle g (bit8 p) false)

/-- The first period after a tack burst that begins `wait` bit times from now (R76). -/
def rejoinAfter (x : TxDir) (wait : Nat) : Nat :=
  (x.seq + ceilDiv (x.slot * 66 + wait + 8448) (periodBits x.fec)) % 1024

/-- Lanes whose drivers take `wait` bit times to come on send their tack bursts, 128 scrambled blocks outside codeword framing, and rejoin striping at the first boundary after them (R76, R95). -/
def tackLanes (g : GalIx) (w : List Nat) (wait : Nat) (s : State) : State :=
  let x := (galAt s g).tx
  let r := rejoinAfter x wait
  if w.isEmpty then s
  else
    s |> forAll w (fun p => fun s => s
          |> modLane g (laneOf p) (fun L => { L with txIdle := false, txWaking := some r, txLeaving := none, txDrain := 0, txFailed := false })
          |> emit (.tack g (laneOf p) r)
          |> forAll (List.range 128) (fun k => sendBlk g p (tackBlk (BitVec.ofNat 3 p) (BitVec.ofNat 10 r) (BitVec.ofNat 8 (127 - k)))))
      |> txChange g r (· ||| bitmap w)

/-- A stopped clock lane starts again with its preamble, and the lanes of a map wait for its end (R78). -/
def startPreamble (g : GalIx) (w : List Nat) (s : State) : State :=
  s |> modTx g (fun x => { x with preamble := true, preambleAt := if x.preamble then x.preambleAt else s.now, clkStopAt := none })
    |> forAll w (fun p => modLane g (laneOf p) fun L => { L with txWaking := some 0 })
    |> doIf (!(galAt s g).tx.preamble) (emit (.preamble g))

/-- Wake the lanes of a map that are idle and that a wake can bring back: by tack bursts (R76), after the preamble where the clock lane is stopped (R78). -/
def wakeLanes (g : GalIx) (m : BitVec 8) (s : State) : State :=
  let G := galAt s g
  let w := positions (m &&& wakeable G)
  if w.isEmpty then s
  else if G.tx.clkIdle then startPreamble g w s
  else tackLanes g w (enableBits (G.tx.tread.getD 0)) s

/-- The new idle mask of R72 takes effect at once: lanes it adds go idle, lanes it removes wake, and the clock lane stops or starts. Where every lane is idle already and the clock lane is to stop, the lanes wake first, to carry the clock-stop notices. -/
def applyMask (g : GalIx) (m : BitVec 8) (clk : Bool) (s : State) : State :=
  let G := galAt s g
  if G.tx.ts ≠ .active then s
  else
    let gone := bitmap ((List.range 8).filter fun p => let L := G.lanes[laneOf p]; L.txIdle || L.txLeaving.isSome || L.txDrain != 0)
    let stop := clk && !G.tx.clkIdle && G.tx.clkStopAt.isNone
    let s := doIf (!clk) (modTx g fun x => { x with clkStopAt := none }) s
    let s := doIf (stop && txSet G.tx == 0#8) (wakeLanes g (wakeable G)) s
    s |> doIf (stop || (m &&& ~~~gone) != 0#8) (idleEnter g (if stop && txSet G.tx == 0#8 then m else m &&& ~~~gone) stop)
      |> doIf (!clk && G.tx.clkIdle) (startPreamble g (positions (wakeable G &&& ~~~m)))
      |> doIf (!G.tx.clkIdle) (wakeLanes g (wakeable G &&& ~~~m))

/-! ## Training -/

/-- Whether a direction is part of a training from DETECT rather than a re-step (R142). -/
def fromDetect (G : Gal) : Bool := G.rx.goal.isNone && G.tx.goal.isNone

/-- A training of the receive direction begins: the settings that wait for one come into force (R65); the polarity only in a training from DETECT, since a re-step keeps it (R142). -/
def latchRx (g : GalIx) (s : State) : State :=
  let x := galSet s g
  modGal g (fun G =>
    { G with setRx := x
             lanes := G.lanes.mapIdx fun i L =>
               let v := x.lanes[laneOf i]
               { L with modeNow := v.mode, vgaHoldNow := v.vgaHold
                        inverted := if v.polAuto || G.rx.ts != .detect then L.inverted else v.polInvert } }) s

/-- A training of the transmit direction begins: its settings come into force (R57, R58, R65). -/
def latchTx (g : GalIx) (s : State) : State :=
  let x := galSet s g
  modGal g (fun G => { G with setTx := x }) s

/-- The coefficients a transmit lane starts a tread with: the fixed ones, else the gallery's start preset (R56, R58). -/
def startCoef (G : Gal) (l : LaneIx) (t : Tread) : Coef := (G.setTx.lanes[l].coef).getD (preset (G.setTx.presets.getD t.val 0))

/-- What a receive lane forgets when it hunts for lock again. -/
def unlock (L : Lane) : Lane :=
  { L with block := .hunt, cw := .hunt, mkLock := false, mkCount := 0, mkMiss := 0, mkGap := 0, hdrRun := 0, hdrHist := 0#64, cwHist := [],
           withheld := none, expectSeq := none, seqErr := 0, firstSrc := none, deskew := [], badPeriod := false, startSeq := none }

/-- Both directions of a gallery return to DETECT with every lane awake (R75, R81, R123, R141). -/
def enterDetect (g : GalIx) (s : State) : State :=
  modGal g (fun G =>
    let lanes := G.lanes.map fun L =>
      { unlock L with failed := false, idleNote := none, rxIdle := false, tack := {}, txIdle := false, txWaking := none, txLeaving := none,
                      txDrain := 0, txFailed := false, inverted := false, polSeen := 0, polInv := 0, polNorm := 0, heard := none,
                      heardCap := none, search := .idle, txDone := false, termination := false, nextTry := none, rejoinedAt := none }
    { G with
        lanes := lanes
        rx := { G.rx with ts := .detect, at_ := s.now, tread := none, fec := false, lanes := 0#8, active := 0#8, trained := 0, target := none,
                          goal := none, prev := none, mode := .up, fell := [], first := 0, below := false, clkLock := false,
                          clkStopped := false, clkStopSeq := none, activity := false, stepTo := none, result := none, steppedDown := false,
                          quietSince := none, nextActive := [], held := false, jumps := [], rejoin := none, sentWait := [], open_ := none,
                          basting := [], attempt := {}, prbsOn := false, countdown := 0, qual := [], pass := 0#8, doomed := false,
                          hopIn := [], stepReason := 0#4, oldTread := none }
        tx := { G.tx with ts := .detect, at_ := s.now, started := false, tread := none, fec := false, lanes := 0#8, active := 0#8, trained := 0,
                          target := none, goal := none, prev := none, mode := .up, fell := [], first := 0, below := false,
                          clkIdle := false, clkStopAt := none, preamble := false, selfWoken := false, emptyAt := none, stepTo := none,
                          nextActive := [], ring := [], frozenRing := false, replay := [], superseded := [], lastReport := none,
                          readyWait := none, rejoining := none, hopQueue := [], repeats := [], cur := [], filled := [], lane := 0,
                          sentPeriods := 0, countdown := 0, laneQual := none, prbsUntil := none,
                          reBoundary := none, checkSeen := none, lastReq := none, stepReason := 0#4, oldTread := none }
        farCap := none, farLanding := none, agreedCap := none, heardAt := none, heardRx := false, backoffUntil := none }) s
    |> reportCapacity g

/-- Every transmit lane of a gallery and its clock lane go to electrical idle (R141, R180). -/
def silence (g : GalIx) (s : State) : State :=
  s |> modTx g (fun x => { x with clkIdle := true, started := false })
    |> forAll allLanes (fun l => modLane g l fun L => { L with txIdle := true, txWaking := none, txLeaving := none, txDrain := 0 })
    |> emit (.idle g 0xFF#8 true)

/-- ATTEMPT_FAILED (R141): the failure is counted and reported; both ends go to BACKOFF, but to DETECT at once after a step-down that fails at T0. A receiving end that has found by R138 that the attempt fails for width learns of its end by the loss of the far transmitter: the reason stays 0x7. -/
def failAttempt (g : GalIx) (reason : Nat) (noBackoff : Bool) (s : State) : State :=
  let G := galAt s g
  let reason := if G.rx.doomed then 0x7 else reason
  let noBackoff := noBackoff || (G.rx.doomed && G.rx.goal.isSome && G.rx.mode == .down)
  let n := G.fails + 1
  let s := s
    |> countGal 0x411 g 0
    |> modGal g (fun G => { G with fails := n, rx := { G.rx with lastFail := BitVec.ofNat 4 reason },
                                   tx := { G.tx with lastFail := BitVec.ofNat 4 reason } })
    |> doIf ((n - 1) % 16 == 0) (raise 0x0302 (by8 g.val ++ by8 reason ++ by8 (min n 15)))
    |> switchAway g
  if noBackoff then s |> silence g |> enterDetect g
  else
    s |> enterDetect g
      |> silence g
      |> modGal g (fun G => { G with rx := { G.rx with ts := .backoff }, tx := { G.tx with ts := .backoff },
                                     backoffUntil := some (s.now + 1000000 * min (2 ^ min (n - 1) 6) 64) })

/-- A training from DETECT that the device or the far end orders, without backoff (R144, R147). -/
def retrainFull (g : GalIx) (s : State) : State := s |> switchAway g |> silence g |> enterDetect g

/-! ### The capability exchange begins (R126, R127) -/

/-- The CAP a lane of this device sends (R126). -/
def ownCap (s : State) (g : GalIx) (p : Nat) (heard : Bool) : Cap :=
  let set := (galAt s g).setTx
  { physLane := BitVec.ofNat 3 p, side := BitVec.ofBool (!isNorth g), gallery := BitVec.ofNat 2 g.val, kind := 1#2,
    txCeil := BitVec.ofNat 3 set.txCeil.val, rxCeil := BitVec.ofNat 3 set.rxCeil.val, t3fec := BitVec.ofBool set.t3fec,
    heard := BitVec.ofBool heard, lanes := offered (galAt s g), version := 1#4, floor := BitVec.ofNat 4 set.floor }

/-- Send CAP on every data lane every 16 slots, with `heard` or without (R125). -/
def sendCaps (g : GalIx) (heard : Bool) (s : State) : State :=
  forAll (positions (galAt s g).tx.lanes) (fun p => sendRep g (.lane p) 16 none (.cap (ownCap s g p heard))) s

/-- The North gallery whose flight a gallery carries, itself on the North side (R130). -/
def flightOf (s : State) (g : GalIx) : GalIx := if isNorth g then g else flightSource s g

/-- The LANDING this device sends on a gallery (R127, R130). -/
def ownLanding (s : State) (g : GalIx) : Landing :=
  let src := galAt s (flightOf s g)
  match src.landing with
  | some n => ⟨src.flight, BitVec.ofNat 4 n, 1#1⟩
  | none => ⟨src.flight, 0#4, 0#1⟩

/-- EXCHANGE begins: CAP and LANDING go out every 16 slots on every data lane (R125 to R128). -/
def enterExchange (g : GalIx) (s : State) : State :=
  s |> modRx g (fun r => { r with ts := .exchange, tread := some 0, at_ := s.now })
    |> modTx g (fun x => { x with ts := .exchange, tread := some 0, at_ := s.now })
    |> sendCaps g false
    |> sendRep g .all 16 none (.landing (ownLanding s g))

/-! ### Equalisation (R132 to R134) -/

/-- Announce QUAL once every lane of both directions still stepping has sent done (R133, R135); a receive direction that has not yet come to EQUALISE at its tread still has lanes to come. -/
def tryQual (g : GalIx) (s : State) : State :=
  let G := galAt s g
  let rxDone : Bool := match G.rx.ts with
    | .equalise => (positions G.rx.lanes).all fun p => G.lanes[physOf G p].search == .done
    | .qualify | .report | .settled | .active => true
    | _ => false
  let txDone := (positions G.tx.lanes).all fun p => G.lanes[laneOf p].txDone
  let stands := G.tx.ts == .equalise || (G.tx.mode == .back && (G.tx.ts == .clock || G.tx.ts == .align))
  if stands ∧ rxDone ∧ txDone then
    s |> modTx g (fun x => { x with ts := .qualify, at_ := s.now, countdown := 256 })
      |> emit (.hop g G.tx.lanes (.qual (BitVec.ofNat 3 (G.tx.tread.getD 0).val) (BitVec.ofBool G.tx.fec) 256#16))
  else s

/-- Request a transmit setting of a lane under a new count, every 64 slots until it is acknowledged (R125, R132). -/
def eqRequest (g : GalIx) (p : Nat) (request : Nat) (s : State) : State :=
  let l := physOf (galAt s g) p
  let cnt := ((laneAt s g l).eqCount + 1) % 32
  s |> modLane g l (fun L => { L with eqCount := cnt })
    |> sendRep g .any 64 none (.eqReq (BitVec.ofNat 3 p) (BitVec.ofNat 5 cnt) (BitVec.ofNat 8 request))

/-- Ask for a check of a lane under a new id, every 64 slots until it is answered; retire goes out 16 times (R175). -/
def laneCheck (g : GalIx) (p : Nat) (action : BitVec 3) (s : State) : State :=
  let id := ((galAt s g).rx.checkId + 1) % 65536
  s |> modRx g (fun r => { r with checkId := id })
    |> sendRep g .all 64 (if action = 3#3 then some 15 else none) (.laneCheck (BitVec.ofNat 3 p) action (BitVec.ofNat 16 id))

/-- A lane has equalised and sends done (R133): a background attempt asks for its qualification (R174), and a training may go on to QUALIFY. -/
def eqDone (g : GalIx) (p : Nat) (s : State) : State :=
  let s := s |> modLane g (physOf (galAt s g) p) (fun L => { L with search := .done }) |> eqRequest g p 0x1F
  let a := (galAt s g).rx.attempt
  if (galAt s g).rx.ts = .active ∧ a.step = 2 ∧ a.pos = p then
    s |> modRx g (fun r => { r with attempt := { r.attempt with step := 3, at_ := s.now } }) |> laneCheck g p 1#3
  else tryQual g s

/-- A lane begins to equalise at its tread (R65, R133, R134): a FIXED lane applies the host's values and sends done; one with saved values asks for the coefficients last qualified; another tries its candidates. -/
def beginEq (g : GalIx) (p : Nat) (s : State) : State :=
  let G := galAt s g
  let t := G.rx.tread.getD 0
  let l := physOf G p
  let L := G.lanes[l]
  let v := G.setRx.lanes[l]
  if v.mode = .fixed then
    let host : EqLive :=
      { L.live with ctle := v.ctle.toNat, taps := v.taps.map (sbyte ·.toNat), fpos := v.fpos.map (·.toNat), fval := v.fval.map (sbyte ·.toNat) }
    s |> modLane g l (fun L => { L with live := host }) |> eqDone g p
  else
    match mget? L.saved t.val with
    | some x =>
      s |> modLane g l (fun L => { L with search := .saved, peak := x.ctle, area := 0, live := { L.live with ctle := x.ctle, fpos := x.fpos } })
        |> eqRequest g p 0x0C
    | none =>
      match candidates t (G.setRx.presets.getD t.val 0) with
      | c :: rest => s |> modLane g l (fun L => { L with search := .preset c rest none, peak := 0, area := 0 }) |> eqRequest g p (c + 1)
      | [] => s

/-- Each lane in training begins to equalise. -/
def startEqualise (g : GalIx) (s : State) : State := forAll (positions (galAt s g).rx.lanes) (beginEq g) s

/-- A fall-back qualifies again with the values saved at its tread, without equalising: the lanes apply them and send done (R138). -/
def requalify (g : GalIx) (s : State) : State :=
  let G := galAt s g
  let t := (G.rx.tread.getD 0).val
  s |> modRx g (fun r => { r with ts := .qualify, at_ := s.now, countdown := 0, prbsOn := false })
    |> forAll (positions G.rx.lanes) (fun p => fun s => s
        |> modLane g (physOf G p) (fun L =>
            match mget? L.saved t with
            | some v => { L with live := { L.live with ctle := v.ctle, vga := v.vga, taps := v.taps, fpos := v.fpos } }
            | none => L)
        |> eqDone g p)

/-- The receive lanes go back to hunting, centred seam buffers included (R112, R117, R124). -/
def relockLanes (g : GalIx) (s : State) : State :=
  modGal g (fun G => { G with lanes := G.lanes.map fun L => { unlock L with seam := 16 } }) s

/-- Enter CLOCK at a tread in the receive direction (R124, R139). -/
def rxClock (g : GalIx) (t : Tread) (s : State) : State :=
  let fec := fecAt t (galAt s g).fecT3
  s |> relockLanes g
    |> modRx g (fun r => { r with ts := .clock, at_ := s.now, clkLock := false, tread := some t, fec, stepTo := none, result := none,
                                  qual := [], pass := 0#8 })

/-- Enter CLOCK at a tread in the transmit direction: the lanes that take part send from the start preset or the fixed coefficients, and in a fall-back from the coefficients saved at the tread (R56, R58, R138, R139). -/
def txClock (g : GalIx) (t : Tread) (s : State) : State :=
  let G := galAt s g
  let fec := fecAt t G.fecT3
  s |> modTx g (fun x => { x with ts := .clock, at_ := s.now, tread := some t, fec, stepTo := none, slot := firstSlot fec, lane := 0, cur := [], filled := [],
                                  nextActive := [] })
    |> forAll allLanes (fun l => modLane g l fun L =>
        let start := startCoef G l t
        { L with coef := if G.tx.mode = .back then (G.setTx.lanes[l].coef).getD ((mget? L.txSaved t.val).getD start) else start
                 txDone := false, txIdle := L.txIdle && !G.tx.lanes.getLsbD l.val, txWaking := none, txLeaving := none, txDrain := 0 })
    |> emit (.retune g t)

/-- The end of ALIGN: lanes not in lock drop out, fewer than 2 fail the attempt with reason 0x3; EXCHANGE follows at T0 of a training from DETECT, QUALIFY in a fall-back and EQUALISE otherwise (R124, R138). -/
def endAlign (g : GalIx) (s : State) : State :=
  let G := galAt s g
  let keep := G.rx.lanes &&& lockMap G
  if popcount keep < 2 then failAttempt g 0x3 false s
  else
    let s := modRx g (fun r => { r with lanes := keep, at_ := s.now }) s
    if fromDetect G && G.farCap.isNone then enterExchange g s
    else if G.rx.mode = .back then requalify g s
    else
      s |> modRx g (fun r => { r with ts := .equalise })
        |> modTx g (fun x => if fromDetect G && x.ts == .clock then { x with ts := .equalise, at_ := s.now } else x)
        |> startEqualise g
        |> tryQual g

/-- Send RESULT for the lanes that passed QUALIFY and have locked again in REPORT, every 64 slots until it is answered; the settings of a direction that passes are saved (R125, R134, R137). -/
def sendResult (g : GalIx) (s : State) : State :=
  let G := galAt s g
  let t := G.rx.tread.getD 0
  let pass := positions G.rx.pass
  let low := fun (f : LaneQual → Nat) => (pass.map fun p => ((G.rx.qual[(physOf G p).val]?).map f).getD 0).foldl min 255
  let r : ResultBlk :=
    { tread := BitVec.ofNat 3 t.val, fec := BitVec.ofBool G.rx.fec, passed := G.rx.pass
      eyeWidth := BitVec.ofNat 8 (if pass.isEmpty then 0 else low (·.width)), eyeHeight := BitVec.ofNat 8 (if pass.isEmpty then 0 else low (·.height)) }
  let save := fun (L : Lane) =>
    { L with saved := mput L.saved t.val { ctle := L.live.ctle, vga := L.live.vga, taps := L.live.taps, fpos := L.live.fpos, area := L.area } }
  let d := decide138 t G.rx.first G.rx.mode G.rx.goal G.rx.target G.rx.floor G.rx.prev G.fecT3 pass.length
  s |> doIf (decide (pass.length ≥ max 2 G.rx.floor)) (forAll pass fun p => modLane g (physOf G p) save)
    |> modRx g (fun x => { x with result := some r, doomed := d == .fails })
    |> sendRep g .all 64 none (.result r)

/-- In REPORT, RESULT goes out once every lane that passed QUALIFY is in lock again (R137). -/
def tryResult (g : GalIx) (s : State) : State :=
  let G := galAt s g
  if G.rx.ts = .report ∧ G.rx.result.isNone ∧ (G.rx.pass &&& lockMap G) = G.rx.pass then sendResult g s else s

/-- A lane has come into lock: ALIGN ends once every lane that takes part is in lock (R124), REPORT goes on (R137), and a background attempt in its first step goes on to equalisation (R174). -/
def checkAlign (g : GalIx) (s : State) : State :=
  let G := galAt s g
  let a := G.rx.attempt
  if G.rx.ts = .align ∧ (G.rx.lanes &&& lockMap G) = G.rx.lanes then endAlign g s
  else if G.rx.ts = .report then tryResult g s
  else if G.rx.ts = .active ∧ a.step = 1 ∧ inLock G.rx.fec G.lanes[physOf G a.pos] then
    s |> modRx g (fun r => { r with attempt := { r.attempt with step := 2, at_ := s.now } }) |> beginEq g a.pos
  else s

/-! ## Re-steps (R142, R144, R145) -/

/-- Announce a re-step of the transmit direction: every idle lane wakes (R81), and STEP names a boundary at least 4 periods ahead, later than every change of the active set (R139, R142, R144). With the clock lane stopped the announcement waits for the end of its preamble (R78). -/
def startStep (g : GalIx) (to_ : Tread) (reason : Nat) (s : State) : State :=
  let s := wakeLanes g (wakeable (galAt s g)) s
  let G := galAt s g
  if G.tx.clkIdle then modTx g (fun x => { x with heldStep := some (to_.val, reason) }) s
  else
    let old := G.tx.tread.getD 0
    let up := old.val < to_.val
    let b := (settledSeq G.tx + 4) % 1024
    let lanes := offered G
    let blk : StepBlk := { toTread := BitVec.ofNat 3 to_.val, fec := BitVec.ofBool (fecAt to_ G.fecT3), action := if up then 0#2 else 3#2,
                           boundary := BitVec.ofNat 10 b, lanes }
    s |> modTx g (fun x => { x with stepTo := some blk, goal := some to_, first := to_, mode := if up then .up else .down,
                                    prev := some (old, popcount x.active), fell := [], stepReason := BitVec.ofNat 4 reason,
                                    oldTread := some old, reBoundary := some b, heldStep := none, lanes })
      |> sendRep g .all 64 none (.step blk)
      |> raise 0x0303 (by8 g.val ++ by8 1 ++ by8 old.val ++ by8 to_.val ++ by8 reason)

/-- Answer a RETRAIN: a full training without backoff, a re-step, or nothing for a tread above the target (R144). -/
def answerRetrain (g : GalIx) (r : RetrainBlk) (s : State) : State :=
  let G := galAt s g
  let s := modTx g (fun x => { x with lastReq := some r.reqId.toNat, heldRetrain := none }) s
  if r.full = 1#1 then retrainFull g s
  else if r.tread.toNat > (G.tx.target.getD 5).val then s
  else startStep g (treadOf r.tread.toNat) r.reason.toNat s

/-- Whether neither direction of an ACTIVE gallery re-steps or is about to (R142). -/
def stepFree (G : Gal) : Bool := G.rx.ts == .active && G.tx.ts == .active && G.rx.stepTo.isNone && G.tx.stepTo.isNone

/-- A RETRAIN or a host's STEP that was held is carried out once both directions are ACTIVE and neither re-steps (R142, R144). -/
def answerHeld (g : GalIx) (s : State) : State :=
  let G := galAt s g
  if stepFree G && !G.tx.preamble then
    match G.tx.heldRetrain, G.tx.heldStep with
    | some r, _ => answerRetrain g r s
    | none, some (t, reason) => if t ≤ (G.tx.target.getD 5).val then startStep g (treadOf t) reason s else modTx g (fun x => { x with heldStep := none }) s
    | none, none => s
  else s

/-- Request a re-step of the receive direction by RETRAIN, every 64 slots until the STEP that answers it (R125, R143, R146, R147). -/
def requestStep (g : GalIx) (tread : Nat) (reason : Nat) (s : State) : State :=
  let id := ((galAt s g).rx.reqId + 1) % 65536
  s |> modRx g (fun r => { r with reqId := id, stepReason := BitVec.ofNat 4 reason })
    |> sendRep g .any 64 none (.retrain { tread := BitVec.ofNat 3 tread, full := 0#1, reason := BitVec.ofNat 4 reason, reqId := BitVec.ofNat 16 id })

/-- A trigger of R143 asks for a step down by one tread, where the setting allows it and the direction is above T0. -/
def stepDownTrigger (g : GalIx) (s : State) : State :=
  let G := galAt s g
  let t := (G.rx.tread.getD 0).val
  let s := modRx g (fun r => { r with quietSince := r.quietSince.map fun _ => s.now }) s
  if (galSet s g).stepDown ∧ t > 0 ∧ G.rx.ts = .active ∧ G.rx.stepTo.isNone then
    s |> modRx g (fun r => { r with darnTimes := [] }) |> requestStep g (t - 1) 0x1
  else s

/-! ## Keys (R107) -/

/-- The first key after a slot. -/
def nextKey (fec : Bool) (k : Nat × Nat) : Nat × Nat :=
  if k.2 + 1 < periodSlots fec then (k.1, k.2 + 1) else ((k.1 + 1) % 1024, firstSlot fec)

/-- The last key before a period. -/
def lastBefore (fec : Bool) (seq : Nat) : Nat × Nat := ((seq + 1023) % 1024, periodSlots fec - 1)

/-- The active set at a period, once changes due at it have come (R107). -/
def setAt (r : RxDir) (seq : Nat) : BitVec 8 :=
  match r.nextActive.filter fun e => keyGe (seq, 0) (e.1, 0) with
  | [] => r.active
  | l => (l.getLast?.map (·.2)).getD r.active

/-! ## Darning at the receiving end (R164, R166) -/

/-- A receiving end that reports a loss between the announcement of a re-step and the end of GUARD treats the step as abandoned (R145, R178). -/
def abandonRx (g : GalIx) (l : LaneIx) (s : State) : State :=
  let r := (galAt s g).rx
  if r.stepTo.isSome ∧ (r.ts = .active ∨ r.ts = .guarding) then
    s |> modRx g (fun r => { r with ts := .active, stepTo := none, goal := none, oldTread := none, stepReason := 0#4 })
      |> countGal 0x413 g 0
      |> raise 0x0305 (by8 g.val ++ by8 0 ++ by8 l.val)
      |> reportCapacity g
      |> answerHeld g
  else s

/-- Send the loss report that stands, under its id, every 64 slots until the REPLAY (R166). -/
def sendLoss (g : GalIx) (s : State) : State :=
  let G := galAt s g
  sendRep g .all 64 none (.loss { failed := failedMap G, lastGood := BitVec.ofNat 10 G.rx.lossGood, reportId := BitVec.ofNat 4 G.rx.reportId,
                                  lastSlot := BitVec.ofNat 10 G.rx.lossSlot }) s

/-- Send a new loss report (R166); a step of the direction that has not left GUARD is abandoned (R145). -/
def newLoss (g : GalIx) (s : State) : State :=
  let G := galAt s g
  let low := ((positions (failedMap G)).head?).getD 0
  s |> modRx g (fun r => { r with reportId := (r.reportId + 1) % 16, reportAt := s.now }) |> sendLoss g |> abandonRx g (physOf G low)

/-- A failed rejoin (R177): counted and reported; the next attempt waits, and the third within 10 minutes retires the lane. -/
def failedRejoin (g : GalIx) (pos step : Nat) (s : State) : State :=
  let G := galAt s g
  let l := physOf G pos
  let times := (G.lanes[l].failTimes.filter fun t => s.now < t + 600000000000) ++ [s.now]
  let n := times.length
  let s := s
    |> countLane 0x311 g l
    |> modLane g l (fun L => { L with failTimes := times, rejoinedAt := none, search := .idle,
                                      nextTry := some (s.now + if n = 1 then 1000000000 else 10000000000) })
    |> raise 0x0203 (by8 g.val ++ by8 l.val ++ by8 step ++ by8 n)
    |> modRx g (fun r => { r with attempt := if r.attempt.pos = pos then {} else r.attempt, prbsOn := false })
    |> stepEnd pos
  if n ≥ 3 then
    s |> laneCheck g pos 3#3
      |> modLane g l (fun L => { L with retired := true, nextTry := none })
      |> raise 0x0204 (by8 g.val ++ by8 l.val ++ by8 0)
  else s
where
  /-- The requests of the attempt that has failed stop. -/
  stepEnd (pos : Nat) (s : State) : State :=
    stopRep g (fun h => match h with
      | .eqReq p _ _ => p.toNat == pos
      | .laneCheck p _ _ => p.toNat == pos
      | _ => false) s

/-- Whether a receive lane may still be woken: announced idle, and fit (R79). -/
def idleFit (L : Lane) : Bool := L.rxIdle && !L.failed && !L.retired && !L.miswired

/-- Slots of a lane that stand in its deskew buffer at or after a key leave it; the stream slots among them are counted (R164). -/
def dropHeld (g : GalIx) (k : Nat × Nat) (s : State) : State :=
  let G := galAt s g
  let gone := allLanes.flatMap fun l => G.lanes[l].deskew.filter fun e => keyGe (e.1, e.2.1) k
  let n := (gone.filter fun e => match e.2.2 with
    | .stream _ => true
    | _ => false).length
  s |> modGal g (fun G => { G with lanes := G.lanes.map fun L => { L with deskew := L.deskew.filter fun e => !keyGe (e.1, e.2.1) k } })
    |> countN 0x424 g.val 0 0 n

/-- LANE_FAILED (R114, R164, R180): a lane of an ACTIVE direction is DARNED, the walk is held after its last good point, or that of another lane where it is earlier, and a loss report goes out; fewer than 2 lanes, idle ones that can wake counted, lose the gallery; in training the lane drops out. A lane that has delivered all it announced before its idle does not fail. -/
def laneFail (g : GalIx) (l : LaneIx) (reason : Nat) (s : State) : State :=
  let G := galAt s g
  let L := G.lanes[l]
  let p := posOf G l
  if G.rx.ts = .active ∨ G.rx.ts = .guarding then
    let joining := (G.rx.rejoin.map (·.1)) == some p
    let parted := L.rxIdle && (!(setAt G.rx G.rx.walkSeq).getLsbD p || (L.idleNote == some L.lastGood && L.lastSlot + 1 ≥ periodSlots G.rx.fec))
    if L.retired || (L.failed && !joining) || parted then s
    else
      let s := abandonRx g l s
      let slot := if G.rx.fec then 76 else L.lastSlot
      let key := nextKey G.rx.fec (L.lastGood, slot)
      let earlier := !G.rx.held || keyGe (G.rx.heldSeq, G.rx.heldSlot) key
      let drop := bit8 p ||| ((G.rx.rejoin.map fun e => bit8 e.1).getD 0#8)
      let times := (G.rx.darnTimes.filter fun e => s.now < e.1 + 10000000000) ++ [(s.now, p)]
      let again := joining || match L.rejoinedAt with
        | some t => decide (s.now < t + 1000000000)
        | none => false
      let left := rxSet G.rx &&& ~~~(failedMap G ||| drop)
      let spare := (allLanes.filter fun q => q != l && idleFit G.lanes[q]).length
      let s := s
        |> modLane g l (fun L => { L with failed := true, darnReason := reason, withheld := none, rejoinedAt := none })
        |> modRx g (fun r =>
            let r := { r with held := true, darnTimes := times, rejoin := none, nextActive := r.nextActive.map fun e => (e.1, e.2 &&& ~~~drop),
                              jumps := r.jumps.filter fun j => !keyGe (j.seq, j.slot) key }
            if earlier then { r with heldSeq := key.1, heldSlot := key.2, lossGood := L.lastGood, lossSlot := slot } else r)
        |> dropHeld g (if earlier then key else (G.rx.heldSeq, G.rx.heldSlot))
        |> countN 0x310 g.val l.val 0 1
        |> raise 0x0201 (by8 g.val ++ by8 l.val ++ by8 0 ++ by8 reason ++ by16 L.lastGood ++ by16 slot ++ by16 0xFFFF ++ by8 0xFF ++
             by8 (popcount left) ++ by16 0)
        |> doIf again (failedRejoin g p 5)
      if popcount left + spare < 2 then loseGallery g 0x2 s
      else s |> newLoss g |> reportCapacity g |> doIf (decide (times.length ≥ 4)) (stepDownTrigger g)
  else
    s |> modRx g (fun r => { r with lanes := r.lanes &&& ~~~bit8 p, pass := r.pass &&& ~~~bit8 p })
      |> modLane g l (fun L => { L with darnReason := reason })
      |> tryResult g

/-! ## The transmit side of a replay (R167 to R170) -/

/-- Where a replay resumes: the key after the last good point, or the restart of the replay that superseded it (R168, R170). -/
def resumeKey (x : TxDir) (good slot : Nat) : Nat × Nat :=
  let k := nextKey x.fec (good, if x.fec then 76 else slot)
  match (x.superseded.filter fun r => keyGe k (r.first, 0) && !keyGe k (r.restart, 0)).getLast? with
  | some r => (r.restart, firstSlot x.fec)
  | none => k

/-- The stream blocks of the ring from a key on, oldest first, by the walk of R108. -/
def ringStream (x : TxDir) (k : Nat × Nat) : List Block :=
  (x.ring.reverse.filter fun r => keyGe (r.seq, r.slot) k).flatMap fun r => (r.cells.filter (·.2.2)).map (·.2.1)

/-- Whether the ring still holds every slot from a key on (R168, R170). -/
def ringHolds (x : TxDir) (k : Nat × Nat) : Bool :=
  (k == (x.seq, x.slot)) || x.ring.any fun r => (r.seq, r.slot) == k

end Sys2Proof.Machine
end

