-- ==== Sys2Proof/Machine/Credits.lean ====
section
/-! DEFINITION. Credits: quotas, allowances, commitments, limits, recovery and the round trip (R200 to R211). -/

namespace Sys2Proof.Machine

/-- Whether a message class is busy; PX has no such state (R203). -/
def isBusy (c : CreditRx) (k : Cls) : Bool :=
  match k with
  | .px => true
  | .pm => c.busy.pm
  | .np => c.busy.np
  | .cp => c.busy.cp

/-- The allowance of a class, in credits (R203). -/
def allowance (c : CreditRx) (k : Cls) : Nat :=
  let spare := fun (m : Cls) => if isBusy c m then 0 else (cget c.quotas m) - 4
  if !c.lending then cget c.quotas k
  else match k with
    | .px => c.quotas.px + spare .pm + spare .np + spare .cp
    | m => if isBusy c m then cget c.quotas m else 4

/-- The PX allowance with every message class idle, `reach_px` (R204). -/
def reachPx (c : CreditRx) : Nat :=
  if c.lending then c.quotas.px + (c.quotas.pm - 4) + (c.quotas.np - 4) + (c.quotas.cp - 4) else c.quotas.px

/-- What an advertised limit leaves beyond the bytes credited; negative once more has been credited than it covers (R202, R207). -/
def limitLeft (limit received : Nat) : Int :=
  let d := modSub 1048576 (limit * 256) received
  if d < 524288 then d else (d : Int) - 1048576

/-- The commitment of a class, in bytes: what the advertised limit still allows, and what is stored (R202). -/
def commitment (c : CreditRx) (k : Cls) : Int := limitLeft (cget c.limit k) (cget c.received k) + cget c.stored k

/-- The commitments of all classes (R202). -/
def commitments (c : CreditRx) : Int := (classes.map (commitment c)).foldl (· + ·) 0

/-- Advance one class's limit as far as R202 allows, never back. -/
def advanceOne (k : Cls) (c : CreditRx) : CreditRx :=
  let own : Int := allowance c k * 256 - commitment c k
  let all : Int := 1536 * 256 - commitments c
  { c with limit := cset c.limit k ((cget c.limit k + (min own all).toNat / 256) % 4096) }

/-- LIMIT_ADVANCE (R202): limits advance, CP before PM before NP before PX where the total is short (R218). -/
def advanceLimits (c : CreditRx) : CreditRx := c |> advanceOne .cp |> advanceOne .pm |> advanceOne .np |> advanceOne .px

/-- The demand bits as CREDIT blocks carry them (R204). -/
def demandBits (d : PerClass Bool) : BitVec 4 :=
  BitVec.ofBool d.cp ++ BitVec.ofBool d.np ++ BitVec.ofBool d.pm ++ BitVec.ofBool d.px

/-- Send a credit block on whichever lane may carry one next, in place of an older copy that still waits: its values are cumulative (R205). -/
def sendCredit (g : GalIx) (h : Hop) (s : State) : State :=
  s |> modTx g (fun x => { x with hopQueue := x.hopQueue.filter fun e => !(e.1 == none && hopSub e.2 == hopSub h) }) |> sendAny g h

/-- Send CREDIT_A: PX and PM limits of the receive direction and the demand of the transmit direction (R204, R205). -/
def sendCreditA (g : GalIx) (s : State) : State :=
  let G := galAt s g
  s |> sendCredit g (.creditA (BitVec.ofNat 12 G.crx.limit.px) (BitVec.ofNat 12 G.crx.limit.pm) (demandBits G.ctx.demand))
    |> modGal g (fun G =>
        let sent := cset (cset G.crx.sentLimit .px G.crx.limit.px) .pm G.crx.limit.pm
        { G with crx := { G.crx with sentLimit := sent, advancedA := none } })

/-- Send CREDIT_B: NP and CP limits and the demand (R204, R205). -/
def sendCreditB (g : GalIx) (s : State) : State :=
  let G := galAt s g
  s |> sendCredit g (.creditB (BitVec.ofNat 12 G.crx.limit.np) (BitVec.ofNat 12 G.crx.limit.cp) (demandBits G.ctx.demand))
    |> modGal g (fun G =>
        let sent := cset (cset G.crx.sentLimit .np G.crx.limit.np) .cp G.crx.limit.cp
        { G with crx := { G.crx with sentLimit := sent, advancedB := none } })

/-- Send both credit blocks (R205). -/
def sendCredits (g : GalIx) (s : State) : State := s |> sendCreditA g |> sendCreditB g

/-- After limits may have advanced from `old`: the block of a limit now 16 credits ahead of the last one sent goes out; otherwise the moment of the advance is noted (R205). -/
def creditsAdvanced (g : GalIx) (old : PerClass Nat) (s : State) : State :=
  let c := (galAt s g).crx
  let far := fun (k : Cls) => decide (modSub 4096 (cget c.limit k) (cget c.sentLimit k) ≥ 16)
  let moved := fun (k : Cls) => cget c.limit k != cget old k
  let s := if far .px || far .pm then sendCreditA g s
    else doIf (moved .px || moved .pm) (modGal g fun G => { G with crx := { G.crx with advancedA := some s.now } }) s
  if far .np || far .cp then sendCreditB g s
  else doIf (moved .np || moved .cp) (modGal g fun G => { G with crx := { G.crx with advancedB := some s.now } }) s

/-- Advance the limits of a gallery's receive direction; during an entry to P2 or P3 none advances (R202, R447). -/
def advance (g : GalIx) (s : State) : State :=
  if s.power.entry.isSome then s else modGal g (fun G => { G with crx := advanceLimits G.crx }) s

/-- Advance the limits of a gallery's receive direction and send what R205 asks for. -/
def updateLimits (g : GalIx) (s : State) : State := s |> advance g |> creditsAdvanced g (galAt s g).crx.limit

/-- A parcel's bytes enter the bobbin: `received` and `stored` grow, and a message class turns busy, so that limits may advance (R202, R203). -/
def creditStore (g : GalIx) (k : Cls) (len : Nat) (s : State) : State :=
  s |> modGal g (fun G => { G with crx := { G.crx with received := cset G.crx.received k ((cget G.crx.received k + len) % 1048576)
                                                       stored := cset G.crx.stored k (cget G.crx.stored k + len)
                                                       busy := cset G.crx.busy k true } })
    |> updateLimits g

/-- A parcel's bytes leave the bobbin (R202, R203). -/
def creditFree (g : GalIx) (k : Cls) (len : Nat) (s : State) : State :=
  s |> modGal g (fun G => { G with crx := { G.crx with stored := cset G.crx.stored k (cget G.crx.stored k - len)
                                                       quietAt := if cget G.crx.stored k - len = 0 then cset G.crx.quietAt k s.now else G.crx.quietAt } })
    |> updateLimits g

/-- Room a class still has: what its advertised limit leaves (R207). -/
def roomFor (c : CreditRx) (k : Cls) : Nat := (limitLeft (cget c.limit k) (cget c.received k)).toNat

/-- Whether credits cover a parcel of `len` bytes (R201). -/
def covered (c : CreditTx) (k : Cls) (len : Nat) : Bool := modSub 1048576 (cget c.limit k * 256) (cget c.sent k) ≥ len

/-- Bytes of a class are sent (R201). -/
def creditSend (g : GalIx) (k : Cls) (len : Nat) (s : State) : State :=
  modGal g (fun G => { G with ctx := { G.ctx with sent := cset G.ctx.sent k ((cget G.ctx.sent k + len) % 1048576) } }) s

/-- Set or clear a class's demand bit; a change sends both credit blocks (R201, R205). -/
def setDemand (g : GalIx) (k : Cls) (on : Bool) (s : State) : State :=
  if cget (galAt s g).ctx.demand k = on then s
  else s |> modGal g (fun G => { G with ctx := { G.ctx with demand := cset G.ctx.demand k on } }) |> sendCredits g

/-- At the ACTIVATE of a training from DETECT the transmitting end starts from 0 (R208). The far quota is taken as 1,024, the quota after power-on reset, until the first INFO (R211; DESIGN CHOICE, note 113). -/
def startCreditsTx (g : GalIx) (s : State) : State :=
  modGal g (fun G => { G with ctx := { G.ctx with sent := call 0, limit := call 0, demand := call false, before := call 0, rtt := 0, probeAt := none,
                                                  farQuotaPx := 1024 } }) s

/-- PROBE at ACTIVATE and every 100 ms (R211). -/
def startProbe (g : GalIx) (s : State) : State :=
  let id := ((galAt s g).ctx.probeId + 1) % 256
  s |> modGal g (fun G => { G with ctx := { G.ctx with probeId := id, probeAt := some s.now, probedAt := some s.now } })
    |> sendCredit g (.probe (BitVec.ofNat 8 id))

/-- Send INFO with the split in force, 16 times 1,024 slots apart (R204, R205). -/
def sendInfo (g : GalIx) (s : State) : State :=
  let c := (galAt s g).crx
  sendRep g .any 1024 (some 15) (.info (BitVec.ofNat 12 c.quotas.px) (BitVec.ofNat 12 (reachPx c))) s

/-- Send SENT_A and SENT_B: their values are those of the period that carries them (R206). -/
def sendSent (g : GalIx) (s : State) : State := s |> sendCredit g (.sentA 0#20 0#20) |> sendCredit g (.sentB 0#20 0#20)

/-- A SENT block as the period being sent carries it: parcels that ended in earlier periods (R206). -/
def sentNow (c : CreditTx) (h : Hop) : Hop :=
  match h with
  | .sentA _ _ => .sentA (BitVec.ofNat 20 c.before.px) (BitVec.ofNat 20 c.before.pm)
  | .sentB _ _ => .sentB (BitVec.ofNat 20 c.before.np) (BitVec.ofNat 20 c.before.cp)
  | h => h

/-- At an ACTIVATE of the receive direction: the pending split takes effect; after a training from DETECT the counts start from 0 but for what is still stored, and the first credit blocks go out (R200, R205, R208). -/
def startCreditsRx (g : GalIx) (restep : Bool) (s : State) : State :=
  let set := galSet s g
  let old := (galAt s g).crx.limit
  s |> modGal g (fun G =>
        let c := { G.crx with quotas := set.quotas, lending := set.lending, refreshAt := some s.now }
        { G with crx := if restep then c
                        else { c with received := call 0, limit := call 0, sentLimit := call 0, seenSent := call 0, base := call 0,
                                      advancedA := none, advancedB := none, demand := call false } })
    |> advance g
    |> doIf (!restep) (sendCredits g)
    |> doIf restep (creditsAdvanced g old)
    |> sendInfo g

/-! ## Recovery (R206) -/

/-- The bytes that the parcels, cut marks and gaps walked and not yet taken will add to `received_c`. -/
def walkedBytes (r : RxDir) (k : Cls) : Nat :=
  (r.arrived.map fun i => match i with
    | .item (.parcel p) => if pCls p = k ∧ crcOk p ∧ !p.poisoned then parcelLen p else 0
    | .item _ => if k = .px then 8 else 0
    | .broken _ | .train _ _ => 0).foldl (· + ·) 0

/-- The walk comes to a new period: what the periods before it have credited is noted, for the SENT blocks it carries (R206). -/
def noteBase (g : GalIx) (s : State) : State :=
  modGal g (fun G =>
    let at_ := fun (k : Cls) => (cget G.crx.received k + walkedBytes G.rx k) % 1048576
    { G with crx := { G.crx with base := ⟨at_ .px, at_ .pm, at_ .np, at_ .cp⟩ } }) s

/-- A SENT value recovers what the receiving end never credited (R206). -/
def recover (g : GalIx) (k : Cls) (v : Nat) (s : State) : State :=
  let c := (galAt s g).crx
  let short := modSub 1048576 v (cget c.base k)
  let s := modGal g (fun G => { G with crx := { G.crx with seenSent := cset G.crx.seenSent k v } }) s
  if short = 0 ∨ short ≥ 524288 then s
  else
    s |> modGal g (fun G => { G with crx := { G.crx with received := cset G.crx.received k ((cget G.crx.received k + short) % 1048576)
                                                         base := cset G.crx.base k v } })
      |> countN 0x437 g.val 0 (clsNo k) short
      |> updateLimits g

/-- The values of a SENT block take effect. -/
def recoverSent (g : GalIx) (h : Hop) (s : State) : State :=
  match h with
  | .sentA px pm => s |> recover g .px px.toNat |> recover g .pm pm.toNat
  | .sentB np cp => s |> recover g .np np.toNat |> recover g .cp cp.toNat
  | _ => s

/-- SENT blocks of a period take effect as the walk comes to it (R206, R216). -/
def dueSent (g : GalIx) (seq : Nat) (s : State) : State :=
  let due := (galAt s g).rx.sentWait.filter fun e => e.1 = seq
  s |> modRx g (fun r => { r with sentWait := r.sentWait.filter fun e => e.1 ≠ seq }) |> forAll due (fun e => recoverSent g e.2)

/-- A SENT block has come in a period: it takes effect if the walk has come so far, and waits for it otherwise (R206). -/
def takeSent (g : GalIx) (h : Hop) (s : State) : State :=
  let r := (galAt s g).rx
  let q := hopPeriod r h
  let s := takeHop g h s
  if keyGe (r.walkSeq, 0) (q, 0) then recoverSent g h s else modRx g (fun r => { r with sentWait := r.sentWait ++ [(q, h)] }) s

end Sys2Proof.Machine
end

