-- ==== Sys2Proof/Machine/Receive.lean ====
section
/-! DEFINITION. The receive side of a gallery: polarity, lock, decoding, the seam buffer, deskew and the walk, reassembly, tack bursts and idle notices (R51 to R53, R63, R67, R73 to R79, R100, R105 to R117, R161). -/

namespace Sys2Proof.Machine

/-! ## Reassembly of the stream (R99, R100, R152) -/

/-- Deliver an item of the reassembled stream. -/
def deliverRx (i : RxItem) (r : RxDir) : RxDir := { r with arrived := r.arrived ++ [i] }

/-- A basting train that another stream block or an errored slot broke is delivered as not whole (R152). -/
def breakTrain (r : RxDir) : RxDir :=
  if r.basting.isEmpty then r else deliverRx (.train r.basting false) { r with basting := [] }

/-- The PX parcel of which the header and some bytes had come, as what had begun to leave ends it: poisoned (R191). -/
def brokenPx (bs : List Byte) : Parcel :=
  { hdr := BitVec.ofNat 128 (leNat (bs.take 16)), payload := padTo 4 (bs.drop 16), crc := 0#32, poisoned := true }

/-- Discard the parcel being reassembled as a CRC failure (R100); a PX parcel whose header had come may have begun to leave, and is then ended poisoned (R191, R218). -/
def dropOpen (g : GalIx) (s : State) : State :=
  match (galAt s g).rx.open_ with
  | none => s
  | some o =>
    let k := clsOf (byteAt o.bytes 0)
    s |> modRx g (fun r => { r with open_ := none, arrived := if k = .px ∧ o.bytes.length ≥ 16 then r.arrived ++ [.broken (brokenPx o.bytes)] else r.arrived })
      |> countGal 0x431 g (clsNo k)

/-- A stream framing error with a parcel open: counted, and the parcel discarded (R100). -/
def framing (g : GalIx) (s : State) : State :=
  if (galAt s g).rx.open_.isSome then s |> countGal 0x401 g 0 |> dropOpen g else s

/-- An errored slot takes its place in the walk (R100, R113, R171). -/
def streamErrored (g : GalIx) (s : State) : State := s |> framing g |> modRx g breakTrain

/-- A stream block takes its place in the walk (R99, R100, R152). A parcel end whose count and length pass R100 but whose bytes are too few for header and trailer is counted as a framing error too (DESIGN CHOICE, note 114). -/
def streamBlock (g : GalIx) (b : Block) (s : State) : State :=
  let r := (galAt s g).rx
  match blkKind b with
  | .start bs => s |> framing g |> modRx g (fun r => { breakTrain r with open_ := some ⟨bs⟩ })
  | .data bs =>
    match r.open_ with
    | some o => modRx g (fun r => { r with open_ := some ⟨o.bytes ++ bs⟩ }) s
    | none => s |> countGal 0x401 g 0 |> modRx g breakTrain
  | .fin n poisoned bs =>
    match r.open_ with
    | none => s |> countGal 0x401 g 0 |> modRx g breakTrain
    | some o =>
      let all := o.bytes ++ bs.take n
      if (n = 1 ∨ n = 5) ∧ all.length % 4 = 0 then
        match parcelOf all poisoned with
        | some p => modRx g (fun r => deliverRx (.item (.parcel p)) { r with open_ := none }) s
        | none => s |> countGal 0x401 g 0 |> dropOpen g
      else s |> countGal 0x401 g 0 |> dropOpen g
  | .cut c => s |> framing g |> modRx g fun r => deliverRx (.item (.cut c)) (breakTrain r)
  | .gap x => s |> framing g |> modRx g fun r => deliverRx (.item (.gap x)) (breakTrain r)
  | .basting v =>
    let kind := bits (v.toNat) 3 0
    s |> framing g |> modRx g fun r =>
      let r := if kind = 1 then breakTrain r else r
      let bl := r.basting ++ [v]
      if kind = 4 then deliverRx (.train bl true) { r with basting := [] } else { r with basting := bl }
  | .badStream => countGal 0x402 g 0 s
  | _ => s

/-- One slot's content in the walk of R108. -/
def walkCell (g : GalIx) (c : SlotC) (s : State) : State :=
  match c with
  | .loc => s
  | .stream b => streamBlock g b s
  | .errored => streamErrored g s

/-! ## Deskew and the walk (R107, R108, R115) -/

/-- The slot a lane holds at a key, if it has come. -/
def slotAt (L : Lane) (k : Nat × Nat) : Option SlotC := (L.deskew.find? fun e => (e.1, e.2.1) == k).map (·.2.2)

/-- A REJOIN's lane enters striping with the period that the walk comes to (R176, R182). -/
def rejoinNow (g : GalIx) (pos : Nat) (s : State) : State :=
  let G := galAt s g
  let l := physOf G pos
  s |> modLane g l (fun L => { L with failed := false, rejoinedAt := some s.now, nextTry := none })
    |> modRx g (fun r => { r with rejoin := none })
    |> raise 0x0202 (by8 g.val ++ by8 l.val ++ by8 0 ++ by8 (popcount G.rx.active) ++ by16 G.rx.walkSeq)

/-- The walk comes to the first key of a period: changes of the active set due take effect, and with them the width (R107, R148, R176); what was credited before is noted, and SENT blocks of the period act (R206). -/
def enterPeriod (g : GalIx) (s : State) : State :=
  let r := (galAt s g).rx
  let a := setAt r r.walkSeq
  let s := modRx g (fun r => { r with active := a, nextActive := r.nextActive.filter fun e => !keyGe (r.walkSeq, 0) (e.1, 0) }) s
  let s := match r.rejoin with
    | some (p, q) => if q = r.walkSeq then rejoinNow g p s else s
    | none => s
  s |> noteBase g |> dueSent g r.walkSeq |> doIf (a != r.active || r.rejoin != (galAt s g).rx.rejoin) (reportCapacity g)

/-- The walk goes on at a key. -/
def walkTo (g : GalIx) (k : Nat × Nat) (s : State) : State := modRx g (fun r => { r with walkSeq := k.1, walkSlot := k.2 }) s

/-- The next change of the active set after a period. -/
def nextChange (r : RxDir) (seq : Nat) : Option Nat := (r.nextActive.find? fun e => !keyGe (seq, 0) (e.1, 0)).map (·.1)

/-- Walk keys while every lane of the active set has delivered them and the walk is not held (R108, R115, R164). At a hole that a REPLAY has closed it goes on with the restart period, the hole counting as one errored slot where the replay is not lossless (R169, R171); with no lane in the set it goes on with the next change (R75). -/
def walk (g : GalIx) : Nat → State → State
  | 0, s => s
  | n + 1, s =>
    let G := galAt s g
    let fec := G.rx.fec
    let k := (G.rx.walkSeq, G.rx.walkSlot)
    let ps := positions (setAt G.rx k.1)
    let got := ps.map fun p => slotAt G.lanes[physOf G p] k
    if G.rx.ts ≠ .active then s
    else match G.rx.jumps.find? fun j => (j.seq, j.slot) == k with
      | some j =>
        let s := s
          |> modRx g (fun r => { r with jumps := r.jumps.erase j })
          |> doIf (!j.lossless) (streamErrored g)
          |> walkTo g (j.restart, firstSlot fec)
          |> enterPeriod g
        walk g n s
      | none =>
        if G.rx.held ∧ k = (G.rx.heldSeq, G.rx.heldSlot) then s
        else if ps.isEmpty then
          match nextChange G.rx k.1 with
          | some q => walk g n (s |> enterPeriod g |> walkTo g (q, firstSlot fec) |> enterPeriod g)
          | none => doIf (G.rx.active != 0#8) (enterPeriod g) s
        else if got.any (·.isNone) then s
        else
          let nk := nextKey fec k
          let joins := match G.rx.rejoin with
            | some (_, q) => decide (q = k.1)
            | none => false
          let s := s
            |> doIf (setAt G.rx k.1 != G.rx.active || joins) (enterPeriod g)
            |> modGal g (fun G => { G with lanes := G.lanes.map fun L => { L with deskew := L.deskew.filter fun e => (e.1, e.2.1) != k } })
            |> forAll got (fun c => walkCell g (c.getD .loc))
            |> walkTo g nk
            |> doIf (nk.1 != k.1) (enterPeriod g)
          walk g n s

/-- Whether a key lies in what a replay supersedes or in what the walk has left behind: a stream slot there is discarded and counted (R164, R170). -/
def superseded (r : RxDir) (k : Nat × Nat) : Bool :=
  (r.held && keyGe k (r.heldSeq, r.heldSlot)) || !keyGe k (r.walkSeq, r.walkSlot) ||
    r.jumps.any fun j => keyGe k (j.seq, j.slot) && !keyGe k (j.restart, 0)

/-- A slot of a lane in striping enters its deskew buffer (R115); where the walk is held or has gone on it is discarded, and counted where it is a stream block (R164). -/
def pushSlot (g : GalIx) (l : LaneIx) (k : Nat × Nat) (c : SlotC) (s : State) : State :=
  let G := galAt s g
  let L := G.lanes[l]
  let p := posOf G l
  if G.rx.ts ≠ .active ∨ L.startSeq.isSome ∨ !(setAt G.rx k.1).getLsbD p ∨ (L.failed ∧ (G.rx.rejoin.map (·.1)) ≠ some p) then s
  else if superseded G.rx k then
    match c with
    | .stream _ => countN 0x424 g.val 0 0 1 s
    | _ => s
  else modLane g l (fun L => { L with deskew := L.deskew ++ [(k.1, k.2, c)], lastGood := k.1, lastSlot := k.2 }) s

/-- How many slots a lane may hold beyond the walk: the deskew buffer, with those of the codeword being released at FEC treads (R115, R161). -/
def deskewBound (fec : Bool) : Nat := if fec then 205 else 128

/-- Lanes of the walk's set that have not delivered its key while another lane holds more slots than deskew can fail deskew (R116). -/
def deskewCheck (g : GalIx) (s : State) : State :=
  let G := galAt s g
  let k := (G.rx.walkSeq, G.rx.walkSlot)
  let full := allLanes.any fun l => decide (G.lanes[l].deskew.length > deskewBound G.rx.fec)
  let late := (positions (setAt G.rx k.1)).filter fun p => let L := G.lanes[physOf G p]; !L.failed && (slotAt L k).isNone
  if G.rx.ts = .active ∧ !(G.rx.held ∧ k = (G.rx.heldSeq, G.rx.heldSlot)) ∧ full then
    forAll late (fun p => fun s => s |> countLane 0x30C g (physOf G p) |> laneFail g (physOf G p) 0x7) s
  else s

/-- Slots have come: the walk goes on, and deskew is checked. -/
def walkOn (g : GalIx) (s : State) : State := s |> walk g 2048 |> deskewCheck g |> walk g 2048

/-! ## The seam buffer (R117) -/

/-- The read side takes slots: below a fill of 12 it puts out fillers. -/
def seamReads (g : GalIx) (l : LaneIx) (n : Nat) (s : State) : State :=
  let f := (laneAt s g l).seam
  let taken := min n (f - 11)
  s |> modLane g l (fun L => { L with seam := f - taken }) |> countN 0x30E g.val l.val 0 (n - taken)

/-- A received slot reaches the write side: its content, or errored where the buffer is full. -/
def seamWrite (g : GalIx) (l : LaneIx) (idle : Bool) (c : SlotC) (s : State) : SlotC × State :=
  let f := (laneAt s g l).seam
  if idle && f > 20 then (c, countLane 0x30D g l s)
  else if f ≥ 32 then (.errored, countLane 0x30F g l s)
  else (c, modLane g l (fun L => { L with seam := f + 1 }) s)

/-! ## Replay and rejoin as the receiver takes them (R169, R171, R176) -/

/-- REPLAY with the id of the report that stands ends the discard at the restart period: the walk, once it has come to the held key, goes on there with the set named (R169, R171). Attempts on the lanes still darned start 1 ms later, or when they had to wait longer (R174, R177); an attempt that was about to rejoin is cancelled and not counted (R178). -/
def takeReplay (g : GalIx) (r : ReplayBlk) (s : State) : State :=
  let G := galAt s g
  if G.rx.held ∧ r.reportId.toNat = G.rx.reportId then
    let q := r.restartSeq.toNat
    let fm := failedMap G
    let lossless := r.lossless == 1#1
    let later := (G.rx.nextActive.filter fun e => !keyGe (q, 0) (e.1, 0)).map fun e => (e.1, e.2 &&& ~~~fm)
    let jump : Jump := { seq := G.rx.heldSeq, slot := G.rx.heldSlot, restart := q, lossless }
    s |> modGal g (fun G => { G with
          lanes := G.lanes.map fun L =>
            if L.failed && !L.retired then { L with nextTry := some (max (L.nextTry.getD 0) (s.now + 1000000)) } else L
          rx := { G.rx with held := false, jumps := G.rx.jumps ++ [jump], nextActive := (q, r.active) :: later,
                            attempt := if G.rx.attempt.step ≥ 4 then {} else G.rx.attempt } })
      |> stopRep g (fun h => match h with
          | .loss _ => true
          | _ => false)
      |> doIf (!lossless) (countGal 0x423 g 0)
  else s

/-- REJOIN adds the lane to the active set from its period on (R176). -/
def takeRejoin (g : GalIx) (r : RejoinBlk) (s : State) : State :=
  let G := galAt s g
  let p := r.pos.toNat
  let q := r.rejoinSeq.toNat
  let l := physOf G p
  if G.rx.ts = .active ∧ G.lanes[l].failed ∧ !G.lanes[l].retired ∧ !G.rx.held ∧ G.rx.rejoin.isNone then
    let z := lastBefore G.rx.fec q
    s |> rxChange g q (· ||| bit8 p)
      |> modRx g (fun x => { x with nextActive := x.nextActive.map fun e => if e.1 = q then (q, r.active) else e })
      |> modLane g l (fun L => { L with deskew := [], lastGood := z.1, lastSlot := z.2, startSeq := none })
      |> modRx g (fun x => { x with rejoin := some (p, q), attempt := if x.attempt.pos = p then {} else x.attempt })
      |> stopRep g (fun h => match h with
          | .laneCheck k _ _ => k == r.pos
          | _ => false)
  else s

/-! ## Slots (R89 to R94, R101) -/

/-- Count the faults of a received block (R90, R92, R94, R101). -/
def countFaults (g : GalIx) (l : LaneIx) (kind : BlkKind) (s : State) : State :=
  match kind with
  | .hop (some (.marker ..)) => doIf (galAt s g).rx.fec (countLane 0x302 g l) s
  | .hop none | .badType => countLane 0x302 g l s
  | .badLocal => countLane 0x303 g l s
  | .badHeader => countLane 0x301 g l s
  | _ => s

/-- Act on a hop-control block that came on a lane in a period: REPLAY and REJOIN at once, the others as their commands take them (R92). -/
def takeLocal (g : GalIx) (l : LaneIx) (seq : Nat) (h : Hop) (s : State) : State :=
  match h with
  | .marker .. => s
  | .replay x => takeReplay g x s
  | .rejoin x => takeRejoin g x s
  | h => modRx g (fun r => { r with hopIn := r.hopIn ++ [(posOf (galAt s g) l, seq, h)] }) s

/-- What a received block is in the walk of R108. -/
def slotOf (b : Block) (kind : BlkKind) : SlotC :=
  match kind with
  | .idle | .hop _ | .badLocal | .tack => .loc
  | .badHeader | .badType => .errored
  | _ => .stream b

/-- A received and descrambled block at a key: faults are counted, it passes the seam buffer and enters deskew, and a hop-control block that the buffer has not dropped acts (R117). -/
def takeSlot (g : GalIx) (l : LaneIx) (k : Nat × Nat) (reads : Nat) (b : Block) (s : State) : State :=
  let kind := blkKind b
  let c := slotOf b kind
  let s := s |> countFaults g l kind |> seamReads g l reads
  let full := decide ((laneAt s g l).seam ≥ 32) && !(kind == .idle)
  let w := seamWrite g l (kind == .idle) c s
  let s := match kind with
    | .hop (some h) => if full then w.2 else takeLocal g l k.1 h w.2
    | _ => w.2
  pushSlot g l k w.1 s

/-! ## Codewords (R105, R106, R112 to R114, R161) -/

/-- A lane loses codeword lock and is failed (R112). -/
def cwLose (g : GalIx) (l : LaneIx) (reason : Nat) (s : State) : State :=
  s |> countLane 0x305 g l
    |> modLane g l (fun L => { L with cw := .hunt, mkMiss := 0, withheld := none, expectSeq := none, cwHist := [], firstSrc := none })
    |> laneFail g l reason

/-- The side-band of a trailer or marker: the last value of each code is kept; a lane that a rejoin waits for may now be in lock (R106, R176). -/
def takeSideband (g : GalIx) (v : BitVec 16) (s : State) : State :=
  modGal g (fun G => match (v.extractLsb' 12 4).toNat with
    | 1 => { G with side1 := v.extractLsb' 0 12 }
    | 2 => { G with side2 := v.extractLsb' 0 12 }
    | _ => G) s

/-- A slot whose content is not used passes the seam buffer as errored and takes its place (R113, R114, R117). -/
def errSlot (g : GalIx) (l : LaneIx) (k : Nat × Nat) (reads : Nat) (s : State) : State :=
  let w := s |> seamReads g l reads |> seamWrite g l false .errored
  pushSlot g l k w.1 w.2

/-- A codeword that is uncorrectable, or handled as such: its 77 slots are errored under the sequence expected (R113, R114), none where no codeword since lock has told one; more than 8 among the last 8,192 lose lock (R112). -/
def cwBad (g : GalIx) (l : LaneIx) (next : Option Nat) (reads : List Nat) (s : State) : State :=
  let hist := (true :: (laneAt s g l).cwHist).take 8192
  let s := s
    |> countLane 0x309 g l
    |> modLane g l (fun L => { L with cwHist := hist, expectSeq := next.map fun q => (q + 1) % 1024 })
  let s := match next with
    | some q => forAll (List.range 77) (fun j => errSlot g l (q, j) (reads.getD j 1)) s
    | none => s
  if (hist.filter id).length > 8 then cwLose g l 0x3 s else s

/-- A codeword of a locked lane is decoded, checked for position and sequence, and its slots enter the walk (R105, R113, R114). The first codeword of an announced striping carries its first sequence (R140). -/
def takeCw (g : GalIx) (l : LaneIx) (cw : BitVec 5440) (reads : List Nat) (s : State) : State :=
  let G := galAt s g
  let L := G.lanes[l]
  let resync := modLane g l fun L => { L with scram := (descrambleBlk L.scram (cwSlot cw 76)).1 }
  let bad := fun (s : State) => s |> modLane g l (fun L => { L with seqErr := 0 }) |> resync |> cwBad g l L.expectSeq reads
  match cwDecode cw with
  | none => bad s
  | some (fixed, n) =>
    let t := trailerOf fixed
    let s := s
      |> doIf (n > 0) (fun s => s |> countLane 0x307 g l |> countN 0x308 g.val l.val 0 n
          |> modRx g (fun r => { r with winErr := r.winErr + n })
          |> modGal g (fun G => { G with corrected := min (G.corrected + 1) 0xFFF }))
    if t.lanePos ≠ posOf G l ∨ (L.firstSrc.getD t.src) ≠ t.src then s |> countLane 0x30A g l |> bad
    else
      let s := modLane g l (fun L => { L with firstSrc := some (L.firstSrc.getD t.src) }) s
      let starts := L.startSeq == some t.seq
      let next := if starts then t.seq else L.expectSeq.getD t.seq
      if t.seq ≠ next then
        let s := s |> countLane 0x30B g l |> modLane g l (fun L => { L with seqErr := L.seqErr + 1 }) |> resync |> cwBad g l (some next) reads
        if L.seqErr + 1 ≥ 2 then laneFail g l 0x6 s else s
      else
        s |> modLane g l (fun L => { L with seqErr := 0, expectSeq := some ((t.seq + 1) % 1024), cwHist := (false :: L.cwHist).take 8192
                                            startSeq := if starts then none else L.startSeq })
          |> takeSideband g t.sideband
          |> forAll (List.range 77) (fun j => fun s =>
              let d := descrambleBlk (laneAt s g l).scram (cwSlot fixed j)
              s |> modLane g l (fun L => { L with scram := d.1 }) |> takeSlot g l (t.seq, j) (reads.getD j 1) d.2)

/-- RECEIVE_CODEWORD (R112, R113, R161): polarity, codeword lock, the withheld codeword, and decoding. -/
def receiveCw (g : GalIx) (l : LaneIx) (bits0 : BitVec 5440) (reads : List Nat) (s : State) : State :=
  let L := laneAt s g l
  let t := (galAt s g).rx.tread.getD 0
  let cw := if L.inverted then invertBits (isPam t) 5440 bits0 else bits0
  match L.cw with
  | .hunt => if markerOk cw then modLane g l (fun L => { L with cw := .candidate 1 }) s else s
  | .candidate n =>
    if !markerOk cw then modLane g l (fun L => { L with cw := .hunt }) s
    else if n + 1 < 3 then modLane g l (fun L => { L with cw := .candidate (n + 1) }) s
    else
      s |> modLane g l (fun L => { L with cw := .locked, mkMiss := 0, seam := 16, withheld := none, expectSeq := none, seqErr := 0, firstSrc := none, cwHist := [] })
        |> checkAlign g
  | .locked =>
    if markerOk cw then
      let s := modLane g l (fun L => { L with mkMiss := 0, withheld := none }) s
      let s := match L.withheld with
        | some w => takeCw g l w.1 w.2 s
        | none => s
      s |> takeCw g l cw reads |> walkOn g
    else
      let s := s |> countLane 0x306 g l |> modLane g l (fun L => { L with mkMiss := L.mkMiss + 1 })
      if L.mkMiss + 1 ≥ 4 then s |> cwLose g l 0x2 |> walkOn g
      else if L.withheld.isSome then
        s |> modLane g l (fun L => { L with withheld := none, expectSeq := L.expectSeq.map fun q => (q + 2) % 1024 }) |> laneFail g l 0x1 |> walkOn g
      else modLane g l (fun L => { L with withheld := some (cw, reads) }) s

/-! ## Blocks at treads without FEC (R67, R110, R111) -/

/-- Block lock is lost and the lane is failed; marker lock goes with it (R110, R111). -/
def blockLose (g : GalIx) (l : LaneIx) (s : State) : State :=
  s |> countLane 0x304 g l
    |> doIf (laneAt s g l).mkLock (countLane 0x305 g l)
    |> modLane g l (fun L => { L with block := .hunt, hdrRun := 0, hdrHist := 0#64, mkLock := false, mkCount := 0, mkMiss := 0, expectSeq := none })
    |> laneFail g l 0x4

/-- An expected deskew marker is missing or failed; its period goes on under the next sequence, and four in a row lose marker lock (R111). -/
def markerMissed (g : GalIx) (l : LaneIx) (s : State) : State :=
  let L := laneAt s g l
  let s := s
    |> countLane 0x306 g l
    |> modLane g l (fun L => { L with rxSeq := (L.rxSeq + 1) % 1024, rxSlot := 1, mkMiss := L.mkMiss + 1, seqErr := 0, badPeriod := false
                                      expectSeq := L.expectSeq.map fun e => (e + 1) % 1024 })
    |> modRx g (fun r => { r with winErr := r.winErr + 1 })
  if L.mkMiss + 1 ≥ 4 then
    s |> countLane 0x305 g l |> modLane g l (fun L => { L with mkLock := false, mkCount := 0, mkMiss := 0, expectSeq := none }) |> laneFail g l 0x5
  else s

/-- A deskew marker: marker lock by two of them 1,024 blocks apart, sequence, side-band and the period of the slots that follow (R94, R106, R111, R114). A marker with a wrong sequence is handled as uncorrectable: its period keeps the key expected and its slots are errored. -/
def takeMarker (g : GalIx) (l : LaneIx) (seq : Nat) (lanePos : BitVec 6) (sb : BitVec 16) (s : State) : State :=
  let G := galAt s g
  let L := G.lanes[l]
  if G.rx.fec then countLane 0x302 g l s
  else if L.mkLock then
    let starts := L.startSeq == some seq
    let e := if starts then seq else L.expectSeq.getD seq
    let s := modLane g l (fun L => { L with rxSeq := e, rxSlot := 1, mkGap := 0, mkMiss := 0, badPeriod := decide (e ≠ seq), expectSeq := some ((e + 1) % 1024)
                                            seqErr := if e = seq then 0 else L.seqErr + 1, startSeq := if starts then none else L.startSeq
                                            firstSrc := some (L.firstSrc.getD (lanePos.extractLsb' 3 3)) }) s
    if e = seq then takeSideband g sb s
    else
      let s := s |> countLane 0x30B g l |> countLane 0x309 g l
      if L.seqErr + 1 ≥ 2 then laneFail g l 0x6 s else s
  else if L.block = .locked then
    let n := if L.expectSeq = some seq ∧ L.mkGap = 1024 then L.mkCount + 1 else 1
    s |> modLane g l (fun L => { L with rxSeq := seq, rxSlot := 1, mkGap := 0, mkCount := n, mkLock := n ≥ 2, mkMiss := 0, badPeriod := false
                                        expectSeq := some ((seq + 1) % 1024), seqErr := 0 })
      |> takeSideband g sb
      |> checkAlign g
  else s

/-- POLARITY_DETECT (R67): in a training from DETECT, among the first 64 locked blocks at T0, inverted patterns without a normal one make the lane invert its symbols; a lane that shows neither pattern takes no part in the training. -/
def polarity (g : GalIx) (l : LaneIx) (b : Block) (s : State) : State :=
  let G := galAt s g
  let L := G.lanes[l]
  if G.rx.tread.getD 0 ≠ 0 ∨ G.rx.ts = .active ∨ !fromDetect G ∨ !(G.setRx.lanes[l]).polAuto ∨ L.polSeen ≥ 64 then s
  else
    let y := (blkByte b 0).toNat
    let inv := blkHdr b == dataHdr && (y == 0xE1 || y == 0xD2)
    let nrm := blkHdr b == ctlHdr && (y == 0x1E || y == 0x2D)
    let i := L.polInv + b2n inv
    let n := L.polNorm + b2n nrm
    let last := L.polSeen + 1 == 64
    let s := modLane g l (fun L =>
      { L with polSeen := L.polSeen + 1, polInv := i, polNorm := n, inverted := if last then i ≥ 16 && n == 0 else L.inverted }) s
    if last && n == 0 && i < 16 then s |> modRx g (fun r => { r with lanes := r.lanes &&& ~~~bit8 (posOf G l) }) |> checkAlign g else s

/-- RECEIVE_BLOCK (R110): block lock on sync headers, polarity, descrambling, markers and slots; every fault while in block lock counts. -/
def receiveBlk (g : GalIx) (l : LaneIx) (b0 : Block) (reads : Nat) (s : State) : State :=
  let L := laneAt s g l
  let b := if L.inverted then ~~~b0 else b0
  let valid := blkHdr b == dataHdr || blkHdr b == ctlHdr
  match L.block with
  | .hunt =>
    if !valid then modLane g l (fun L => { L with hdrRun := 0 }) s
    else if L.hdrRun + 1 < 64 then modLane g l (fun L => { L with hdrRun := L.hdrRun + 1, scram := (descrambleBlk L.scram b).1 }) s
    else
      modLane g l (fun L => { L with block := .locked, hdrRun := 0, hdrHist := 0#64, seam := 16, mkLock := false, mkCount := 0, mkGap := 0
                                     scram := (descrambleBlk L.scram b).1, polSeen := if L.polSeen < 64 then 0 else L.polSeen
                                     polInv := 0, polNorm := 0 }) s
  | .locked =>
    let hist := (L.hdrHist <<< 1) ||| BitVec.ofNat 64 (b2n (!valid))
    let bad := ((List.range 64).filter fun k => hist.getLsbD k).length
    let d := descrambleBlk L.scram b
    let kind := blkKind d.2
    let s := s
      |> modLane g l (fun L => { L with hdrHist := hist, scram := d.1, rxSlot := (L.rxSlot + 1) % 1024, mkGap := min (L.mkGap + 1) 2047 })
      |> doIf (!valid) (modRx g fun r => { r with winErr := r.winErr + 1 })
      |> polarity g l d.2
    let mark := fun (s : State) => match kind with
      | .hop (some h) => modRx g (fun r => { r with hopIn := r.hopIn ++ [(posOf (galAt s g) l, L.rxSeq, h)] }) s
      | _ => s
    if bad ≥ 16 then s |> countFaults g l kind |> blockLose g l |> walkOn g
    else if !L.mkLock then s |> countFaults g l kind |> mark
    else if L.rxSlot = 0 then
      match kind with
      | .hop (some (.marker ..)) => mark s
      | _ => s |> countFaults g l kind |> markerMissed g l |> walkOn g
    else if L.badPeriod then s |> countFaults g l kind |> errSlot g l (L.rxSeq, L.rxSlot) reads |> walkOn g
    else s |> takeSlot g l (L.rxSeq, L.rxSlot) reads d.2 |> walkOn g

/-! ## Tack bursts (R76, R77, R95) -/

/-- One block of a tack burst, as it is received: polarity and scrambling undone, a failed CRC-8 counted (R88, R90); 32 to settle, then 32 consecutive valid ones confirm the lane, which rejoins at the announced boundary (R76). A walk that stands with no lane in striping goes on there. -/
def takeTack (g : GalIx) (l : LaneIx) (b0 : Block) (s : State) : State :=
  let G := galAt s g
  let L := G.lanes[l]
  let T := L.tack
  let p := posOf G l
  let d := descrambleBlk L.scram (if L.inverted then invertBits (isPam (G.rx.tread.getD 0)) 66 b0 else b0)
  let ok := match tackOf d.2 with
    | some (q, rem) => if T.rejoinSeq.getD q = q ∧ (T.rejoinSeq.isNone ∨ rem + 1 = T.remaining) then some (q, rem) else none
    | none => none
  let seen := T.seen + 1
  let T' : TackState := match ok with
    | some (q, rem) =>
      { running := true, rejoinSeq := some q, remaining := rem, seen, good := if seen > 32 then T.good + 1 else 0, confirmed := T.confirmed }
    | none => { T with running := true, seen, good := 0 }
  let now := !T.confirmed && decide (T'.good ≥ 32)
  let q := T'.rejoinSeq.getD G.rx.walkSeq
  let z := lastBefore G.rx.fec q
  let stands := setAt G.rx G.rx.walkSeq == 0#8 && (nextChange G.rx G.rx.walkSeq).isNone
  s |> modLane g l (fun L => { L with scram := d.1, tack := { T' with confirmed := T.confirmed || now } })
    |> doIf (blkKind d.2 == .badLocal) (countLane 0x303 g l)
    |> doIf now (fun s => s
        |> modLane g l (fun L => { L with rxIdle := false, idleNote := none, failed := false, nextTry := none, expectSeq := some q, seqErr := 0
                                          cw := .locked, block := .locked, mkLock := true, mkMiss := 0, mkGap := 0, rxSlot := 0, rxSeq := z.1, seam := 16
                                          badPeriod := false, startSeq := none, withheld := none, deskew := [], lastGood := z.1, lastSlot := z.2 })
        |> rxChange g q (· ||| bit8 p)
        |> doIf stands (fun s => s |> walkTo g (q, firstSlot G.rx.fec) |> enterPeriod g))

/-- Hop training sets the sampling phase of a lane and centres its alignment FIFO (R53). -/
def setPhase (phase : Int) (v : EqLive) : EqLive := { v with phase := (phase % 64).toNat, fifo := 0 }

/-- The phase tracker moves the sampling phase, by at most `limit` steps; past a boundary of the unit interval it wraps and the alignment FIFO takes one symbol more or one fewer (R53). -/
def trackPhase (limit : Nat) (drift : Int) (v : EqLive) : EqLive :=
  let p := (v.phase : Int) + max (-(limit : Int)) (min limit drift)
  { v with phase := (p % 64).toNat, fifo := v.fifo + p / 64 }

/-- The end of a burst: the tracker has moved at its fast rate, a step per 16 unit intervals of 128 blocks (R53, R76); an unconfirmed lane raises `lane.wake_failed` and is darned from its rejoin boundary, and a wake of a lane that was DARNED counts as a failed rejoin too (R77, R178). Of a burst in which no tack block decoded the boundary is not known: the lane fails from the period being walked (DESIGN CHOICE, note 115). The failed wake of a DARNED lane carries step 1 (DESIGN CHOICE, note 116). -/
def endTack (g : GalIx) (l : LaneIx) (drift : Int) (s : State) : State :=
  let G := galAt s g
  let L := G.lanes[l]
  let q := L.tack.rejoinSeq.getD G.rx.walkSeq
  let z := lastBefore G.rx.fec q
  let limit := if (G.rx.tread.map isPam).getD false then 264 else 528
  let s := modLane g l (fun L => { L with tack := {}, live := if L.tack.running then trackPhase limit drift L.live else L.live }) s
  if !L.tack.running ∨ L.tack.confirmed then s
  else
    s |> raise 0x0206 (by8 g.val ++ by8 l.val ++ by16 q)
      |> modLane g l (fun L => { L with rxIdle := false, idleNote := none, failed := false, lastGood := z.1, lastSlot := z.2 })
      |> laneFail g l 0x8
      |> doIf L.failed (failedRejoin g (posOf G l) 1)

end Sys2Proof.Machine
end

