-- ==== Sys2Proof/Machine/Transmit.lean ====
section
/-! DEFINITION. The period structure at the transmitter, in striping and in training: slots, periods, codewords, lanes beside the striping, and replay rings (R73, R88, R94, R103, R104, R106 to R109, R124, R135, R145, R149, R167, R168, R174, R176). -/

namespace Sys2Proof.Machine

/-! ## Which block a lane sends -/

/-- Whether a hop-control block is a credit block (R205). -/
def isCreditHop (h : Hop) : Bool := (hopSub h).toNat / 16 == 3

/-- Whether a lane may send a hop-control block in its next slot: at most 3 in 1,024 slots, those of training, darning, idle entry and wake not counted, and one credit block in 512 (R109, R205). -/
def hopMay (L : Lane) (slotNo : Nat) (h : Hop) : Bool :=
  !isCreditHop h || ((L.txHopAt.filter fun a => slotNo < a + 1024).length < 3 && match L.txCreditAt with
    | some a => a + 512 ≤ slotNo
    | none => true)

/-- Whether a hop-control block has its place in the first slot of a period: REPLAY in its restart period, REJOIN in those of R165. -/
def isSlotted (h : Hop) : Bool :=
  match h with
  | .replay _ | .rejoin _ => true
  | _ => false

/-- Whether a slotted block is due in the present slot. -/
def slotDue (x : TxDir) (h : Hop) : Bool :=
  x.slot == firstSlot x.fec && match h with
    | .replay r => r.restartSeq.toNat == x.seq
    | .rejoin _ => true
    | _ => false

/-- The slotted block that a lane sends now (R165, R168). -/
def slottedHop (x : TxDir) (p : Nat) : Option (Option Nat × Hop) := x.hopQueue.find? fun e => e.1 == some p && slotDue x e.2

/-- The first queued hop-control block that a lane may send now (R93, R109, R149). -/
def dueHop (x : TxDir) (L : Lane) (p : Nat) : Option (Option Nat × Hop) :=
  x.hopQueue.find? fun e => (e.1 == some p || e.1.isNone) && !isSlotted e.2 && hopOk x.ts e.2 && hopMay L x.slotNo e.2

/-- Whether the direction sends payload: striping runs, and no boundary of a re-step has passed (R140, R145). -/
def payloadNow (x : TxDir) : Bool := x.ts == .active && !(x.stepTo.isSome && pastBoundary x)

/-- The hop side-band of a period (R106). -/
def sideband (G : Gal) (seq : Nat) : BitVec 16 :=
  if seq % 2 = 0 then 0x1#4 ++ 0#4 ++ lockMap G
  else 0x2#4 ++ BitVec.ofNat 12 (if G.rx.fec then G.corrected else 0)

/-- Lanes that send the period structure with idle blocks beside the striping, while they retrain in the background (R174). -/
def idleSenders (G : Gal) : List Nat :=
  if G.tx.ts = .active ∨ G.tx.ts = .guarding then
    (List.range 8).filter fun p =>
      let L := G.lanes[laneOf p]
      L.txFailed && !L.retired && !L.retiredTx && !L.txIdle && !G.tx.active.getLsbD p && !(G.tx.prbsUntil.isSome && (G.tx.laneQual.map (·.1)) == some p)
  else []

/-! ## Codewords and blocks -/

/-- Scramble blocks one after the other (R88). -/
def scrambleAll (h : BitVec 58) : List Block → BitVec 58 × List Block
  | [] => (h, [])
  | b :: r =>
    let e := scrambleBlk h b
    let q := scrambleAll e.1 r
    (q.1, e.2 :: q.2)

/-- The blocks of a lane in the period that ends, idle where none was placed. -/
def periodBlks (x : TxDir) (p : Nat) : List Block :=
  (List.range 77).map fun j => ((x.filled.find? fun e => e.1 == j && e.2.1 == p).map (·.2.2)).getD idleBlk

/-- Send a lane's codeword of the period that ends (R103, R104). -/
def sendCw (g : GalIx) (p : Nat) (blks : List Block) (s : State) : State :=
  let G := galAt s g
  let e := scrambleAll G.lanes[laneOf p].txScram blks
  s |> emit (.codeword g p (cwEncode e.2 { marker := cwMarker, lanePos := p, src := srcOf g, seq := G.tx.seq, sideband := sideband G G.tx.seq }))
    |> modLane g (laneOf p) (fun L => { L with txScram := e.1 })

/-- A block takes the present slot of a lane: it leaves at once at treads without FEC, and with its codeword otherwise; an idle block is noted for the idle floor (R109). -/
def putBlk (g : GalIx) (p : Nat) (b : Block) (s : State) : State :=
  let s := doIf (b == idleBlk) (modLane g (laneOf p) fun L => { L with txIdleAt := (galAt s g).tx.slotNo }) s
  if (galAt s g).tx.fec then modTx g (fun x => { x with filled := x.filled ++ [(x.slot, p, b)] }) s else sendBlk g p b s

/-! ## Periods -/

/-- Lanes whose announced boundary has come leave for idle, and send 16 idle blocks more (R73). -/
def startDrains (g : GalIx) (s : State) : State :=
  let q := (galAt s g).tx.seq
  forAll allLanes (fun l => modLane g l fun L => if L.txLeaving = some q then { L with txLeaving := none, txDrain := 16, txFailed := false } else L) s

/-- The clock lane stops low at the boundary its notice named (R73). -/
def stopClock (g : GalIx) (s : State) : State :=
  let x := (galAt s g).tx
  if x.clkStopAt = some x.seq then s |> modTx g (fun x => { x with clkIdle := true, clkStopAt := none }) |> emit (.idle g 0#8 true) else s

/-- A lane that rejoins enters striping with this period (R176, R182). -/
def txRejoined (g : GalIx) (s : State) : State :=
  let x := (galAt s g).tx
  match x.rejoining with
  | some (p, q) =>
    if q = x.seq then
      s |> modLane g (laneOf p) (fun L => { L with txFailed := false })
        |> raise 0x0202 (by8 g.val ++ by8 (p % 8) ++ by8 1 ++ by8 (popcount x.active) ++ by16 q)
    else s
  | none => s

/-- REJOIN takes the first slot of the four periods before the rejoin period and of that period itself, on every lane of the new active set (R165). -/
def queueRejoin (g : GalIx) (s : State) : State :=
  let x := (galAt s g).tx
  match x.rejoining with
  | some (p, q) =>
    if modSub 1024 q x.seq ≤ 4 then
      let a := ((x.nextActive.find? (·.1 == q)).map (·.2)).getD x.active
      let h : Hop := .rejoin { pos := BitVec.ofNat 3 p, rejoinSeq := BitVec.ofNat 10 q, active := a }
      s |> emit (.hop g a h)
        |> modTx g (fun x => { x with hopQueue := ((positions a).map fun l => (some l, h)) ++ x.hopQueue,
                                      rejoining := if q = x.seq then none else x.rejoining })
    else s
  | none => s

/-- Changes of the active set due at the present period take effect and are reported (R148), lanes that leave drain, an announced clock stop comes, and REJOIN takes its slot. Queued blocks of lanes that send no more are gone. -/
def enterSet (g : GalIx) (s : State) : State :=
  let x := (galAt s g).tx
  let a := ((x.nextActive.find? (·.1 == x.seq)).map (·.2)).getD x.active
  let s := s
    |> modTx g (fun x => { x with active := a, nextActive := x.nextActive.filter (·.1 != x.seq) })
    |> modGal g (fun G => { G with lanes := G.lanes.map fun L => if L.txWaking = some x.seq then { L with txWaking := none } else L })
    |> startDrains g
    |> stopClock g
    |> txRejoined g
    |> queueRejoin g
    |> doIf (a != x.active) (reportCapacity g)
  let G := galAt s g
  let live := sendLanes G ||| txSet G.tx ||| bitmap (idleSenders G)
  doIf (live != 0#8) (modTx g fun x => { x with hopQueue := x.hopQueue.filter fun e => match e.1 with
    | some p => live.getLsbD p
    | none => true }) s

/-- The start of a period: the active set of the period, and the markers at treads without FEC (R94). What was sent before is noted for the SENT blocks it carries (R206), and slot 0 of a marker period has its place in the rings (R167). -/
def startPeriod (g : GalIx) (s : State) : State :=
  let s := s
    |> modTx g (fun x => { x with slot := firstSlot x.fec, lane := 0, cur := [], filled := [] })
    |> modGal g (fun G => { G with ctx := { G.ctx with before := G.ctx.sent } })
    |> enterSet g
  let G := galAt s g
  let x := G.tx
  if x.fec then s
  else
    let sb := sideband G x.seq
    let lanes := positions (sendLanes G) ++ idleSenders G
    let row : RingRow := { seq := x.seq, slot := 0, active := x.active, cells := [] }
    s |> forAll lanes (fun p => sendBlk g p (encodeHop (.marker (BitVec.ofNat 10 x.seq) (srcOf g ++ BitVec.ofNat 3 p) sb)))
      |> doIf (x.seq % 2 == 1 && !lanes.isEmpty) (modGal g fun G => { G with corrected := 0 })
      |> doIf (payloadNow x && !x.frozenRing) (modTx g fun x => { x with ring := (row :: x.ring).take 4928 })

/-- Where a QUAL countdown has reached 0, the qualification pattern takes the place of the next period for 1.05 ms, on every lane in training, or on the lane that retrains in the background (R135, R174). -/
def startPrbs (g : GalIx) (s : State) : State :=
  let x := (galAt s g).tx
  let run := fun (m : BitVec 8) (s : State) => s |> modTx g (fun x => { x with prbsUntil := some (s.now + 1050000) }) |> emit (.prbs g m)
  if x.prbsUntil.isSome then s
  else if x.ts = .qualify then doIf (x.countdown == 0) (run x.lanes) s
  else match x.laneQual with
    | some (p, n) => doIf (n == 0) (run (bit8 p)) s
    | none => s

/-- The end of a period: its codewords leave at treads with FEC, and the next period starts, or the qualification pattern (R103, R107, R135). -/
def endPeriod (g : GalIx) (s : State) : State :=
  let G := galAt s g
  let x := G.tx
  let lanes := positions (sendLanes G) ++ idleSenders G
  s |> doIf x.fec (fun s => s
        |> forAll lanes (fun p => sendCw g p (periodBlks x p))
        |> doIf (x.seq % 2 == 1 && !lanes.isEmpty) (modGal g fun G => { G with corrected := 0 }))
    |> modTx g (fun x => { x with seq := (x.seq + 1) % 1024, sentPeriods := min (x.sentPeriods + 1) 1023,
                                  superseded := x.superseded.filter fun r => modSub 1024 x.seq r.restart < 512 })
    |> startPrbs g
    |> startPeriod g

/-! ## Slots -/

/-- The QUAL that a lane sends in the present slot, while a countdown runs for it (R135, R174). -/
def qualNow (x : TxDir) (p : Nat) : Option Hop :=
  let q := fun (n : Nat) => Hop.qual (BitVec.ofNat 3 (x.tread.getD 0).val) (BitVec.ofBool x.fec) (BitVec.ofNat 16 n)
  if x.ts = .qualify then (if x.countdown > 0 then some (q x.countdown) else none)
  else match x.laneQual with
    | some (l, n) => if l = p ∧ n > 0 ∧ x.prbsUntil.isNone then some (q n) else none
    | none => none

/-- A hop-control block leaves the queue for a lane; a credit block is noted for the limits of R109 and R205. -/
def hopLeaves (g : GalIx) (p : Nat) (e : Option Nat × Hop) (s : State) : State :=
  let n := (galAt s g).tx.slotNo
  s |> modTx g (fun x => { x with hopQueue := x.hopQueue.erase e })
    |> doIf (isCreditHop e.2) (modLane g (laneOf p) fun L => { L with txHopAt := (n :: L.txHopAt).take 3, txCreditAt := some n })

/-- The lane-local block that is due on a lane in the present slot, and what sending it does: a slotted block before all, an idle block at the idle floor (R109), QUAL while its countdown runs, and what the queue holds for the lane. A SENT block carries the values of the present period (R206). -/
def localNow (g : GalIx) (p : Nat) (s : State) : Option (Block × (State → State)) :=
  let G := galAt s g
  let x := G.tx
  let L := G.lanes[laneOf p]
  match slottedHop x p with
  | some e => some (encodeHop e.2, hopLeaves g p e)
  | none =>
    if payloadNow x && x.slotNo ≥ L.txIdleAt + 1023 then some (idleBlk, id)
    else match qualNow x p with
      | some h => some (encodeHop h, id)
      | none => (dueHop x L p).map fun e => (encodeHop (sentNow G.ctx e.2), hopLeaves g p e)

/-- The lanes beside the striping send what is due on them, else idle (R174). -/
def sendAside (g : GalIx) (s : State) : State :=
  forAll (idleSenders (galAt s g)) (fun p => fun s =>
    match localNow g p s with
    | some (b, f) => s |> f |> putBlk g p b
    | none => putBlk g p idleBlk s) s

/-- The drive of a lane that has sent its idle blocks goes off (R73); where the host has taken the lane out of the mask meanwhile it wakes (R75). -/
def endDrain (g : GalIx) (p : Nat) (s : State) : State :=
  s |> driveOff g p |> doIf (!(galSet s g).idleMask.getLsbD p) (wakeLanes g (bit8 p))

/-- The lanes that have left striping for idle send their idle blocks (R73). -/
def sendDrains (g : GalIx) (s : State) : State :=
  forAll ((List.range 8).filter fun p => (laneAt s g (laneOf p)).txDrain != 0) (fun p => fun s =>
    let n := (laneAt s g (laneOf p)).txDrain
    let s := s |> sendBlk g p idleBlk |> modLane g (laneOf p) (fun L => { L with txDrain := n - 1 })
    doIf (n == 1) (endDrain g p) s) s

/-- The end of a slot: lanes beside the striping take it too, its row enters the rings while payload is sent (R167), countdowns go on, repeats that are due go out, and the next slot follows. -/
def endSlot (g : GalIx) (s : State) : State :=
  let s := s |> sendAside g |> sendDrains g
  let x := (galAt s g).tx
  let row : RingRow := { seq := x.seq, slot := x.slot, active := x.active, cells := x.cur }
  s |> modTx g (fun x =>
        { x with ring := if x.frozenRing || !payloadNow x then x.ring else (row :: x.ring).take 4928, cur := [], lane := 0, slot := x.slot + 1, slotNo := x.slotNo + 1
                 countdown := if x.ts = .qualify then x.countdown - 1 else x.countdown
                 laneQual := if x.prbsUntil.isSome then x.laneQual else x.laneQual.map fun q => (q.1, q.2 - 1) })
    |> runRepeats g
    |> doIf (decide (x.slot + 1 ≥ periodSlots x.fec)) (endPeriod g)

/-- Whether the period structure goes on where no lane sends it: in striping with every lane idle (R75, R107). -/
def keepsTime (x : TxDir) : Bool := x.ts == .active || x.ts == .guarding

/-- Put a block into the next place of the walk order; `after` runs before the slot ends. -/
def putCell (g : GalIx) (p : Nat) (b : Block) (stream : Bool) (after : State → State) (s : State) : State :=
  let ps := positions (sendLanes (galAt s g))
  s |> modTx g (fun x => { x with cur := x.cur ++ [(p, b, stream)], lane := p + 1 })
    |> putBlk g p b
    |> after
    |> doIf ((ps.find? fun q => p < q).isNone) (endSlot g)

/-- Fill the next position in the walk order of R108: a lane-local block where one is due, else the stream block offered, else idle. Answers whether the stream block was taken; `done` is what its leaving does. A period whose marker has not gone out yet, after a qualification pattern, starts first. -/
def placeCell (g : GalIx) (b : Option Block) (done : State → State) (s : State) : Bool × State :=
  let G := galAt s g
  let x := G.tx
  if !x.fec && x.slot == 0 && sendLanes G != 0#8 then (false, startPeriod g s)
  else match (positions (sendLanes G)).find? fun p => x.lane ≤ p with
  | none => (false, if keepsTime x || x.lane != 0 then endSlot g s else s)
  | some p =>
    match localNow g p s, b with
    | some (c, f), _ => (false, s |> f |> putCell g p c false id)
    | none, some c => if payloadNow x then (true, putCell g p c true done s) else (false, putCell g p idleBlk false id s)
    | none, none => (false, putCell g p idleBlk false id s)

/-- Whether no stream block can leave: payload is stopped, or every lane is idle and none wakes. -/
def stalled (G : Gal) : Bool := !payloadNow G.tx || txSet G.tx ||| G.tx.active == 0#8

/-- Send stream blocks in the next positions, with a bound on the positions looked at; `done` runs as the last one leaves. What finds no place waits ahead of all that follows. -/
def sendBlks (g : GalIx) (done : State → State) : Nat → List Block → State → State
  | _, [], s => s
  | 0, bs, s => s |> modTx g (fun x => { x with replay := bs ++ x.replay }) |> done
  | n + 1, b :: r, s =>
    if stalled (galAt s g) then s |> modTx g (fun x => { x with replay := b :: r ++ x.replay }) |> done else
    let q := placeCell g (some b) (if r.isEmpty then done else id) s
    sendBlks g done n (if q.1 then r else b :: r) q.2

/-- Send a list of stream blocks (R108). -/
def sendStream (g : GalIx) (bs : List Block) (done : State → State) (s : State) : State := sendBlks g done (4 * bs.length + 64) bs s

/-- Pass positions that find no stream block ready. -/
def passCells (g : GalIx) : Nat → State → State
  | 0, s => s
  | n + 1, s => passCells g n (placeCell g none id s).2

/-- Let slots pass in which no stream block is ready. -/
def passSlots (g : GalIx) (n : Nat) (s : State) : State :=
  passCells g (n * max 1 (popcount (sendLanes (galAt s g)))) s

/-- Let positions pass while a period lasts. -/
def passWhile (g : GalIx) (seq : Nat) : Nat → State → State
  | 0, s => s
  | n + 1, s => if (galAt s g).tx.seq = seq then passWhile g seq n (placeCell g none id s).2 else s

/-- Let the rest of the period pass without stream blocks, so that the next one starts. -/
def passPeriod (g : GalIx) (s : State) : State := passWhile g (galAt s g).tx.seq 8200 s

/-- Whether nothing has been placed in the present period yet. -/
def atStart (x : TxDir) : Bool := x.slot == firstSlot x.fec && x.cur.isEmpty

/-- Let the rest of a period that has begun pass. -/
def passRest (g : GalIx) (s : State) : State := if atStart (galAt s g).tx then s else passPeriod g s

/-- Let periods pass until one starts. -/
def passTo (g : GalIx) (seq : Nat) : Nat → State → State
  | 0, s => s
  | n + 1, s => if (galAt s g).tx.seq = seq ∨ sendLanes (galAt s g) = 0#8 then s else passTo g seq n (passPeriod g s)

/-- Replayed blocks, and those cut off before, go out first (R168). -/
def sendReplay (g : GalIx) (s : State) : State :=
  let bs := (galAt s g).tx.replay
  s |> modTx g (fun x => { x with replay := [] }) |> sendStream g bs id

/-! ## What waits (R75, R176) -/

/-- Whether a transmit direction has something to send. -/
def txWaiting (G : Gal) : Bool :=
  !(G.egress.px.isEmpty && G.egress.pm.isEmpty && G.egress.np.isEmpty && G.egress.cp.isEmpty && G.tx.hopQueue.isEmpty && G.tx.trains.isEmpty &&
    G.tx.replay.isEmpty)

/-- Answer LANE_CHECK ready with REJOIN once the latest side-band shows the lane in lock; the rejoin period stands at least 4 periods ahead, after every change of the active set already announced (R176). -/
def tryRejoin (g : GalIx) (s : State) : State :=
  let G := galAt s g
  match G.tx.readyWait with
  | some (p, _) =>
    if G.tx.ts = .active ∧ G.side1.getLsbD p ∧ G.tx.rejoining.isNone ∧ (G.lanes[laneOf p]).txFailed ∧ !(G.lanes[laneOf p]).txIdle ∧ G.tx.stepTo.isNone then
      let q := (settledSeq G.tx + 4) % 1024
      s |> modTx g (fun x => { x with readyWait := none, rejoining := some (p, q) }) |> txChange g q (· ||| bit8 p)
    else s
  | none => s

end Sys2Proof.Machine
end

