-- ==== Sys2Proof/Machine/TrainCmds.lean ====
section
/-! DEFINITION. Commands of hop training and re-stepping (chapter 04). -/

namespace Sys2Proof.Machine

/-- Enter CLOCK in the transmit direction and start the period structure at the tread (R124, R139). -/
def txStart (g : GalIx) (t : Tread) (s : State) : State := s |> txClock g t |> startPeriod g

/-- Leave DETECT once the transmitter has started and clock-lane activity was seen; a lane without a far termination takes no part (R123). -/
def leaveDetect (g : GalIx) (s : State) : State :=
  let G := galAt s g
  if G.rx.ts = .detect ∧ G.tx.started ∧ G.rx.activity then
    let part := offered G
    s |> modRx g (fun r => { r with lanes := part, reversed := false })
      |> modTx g (fun x => { x with lanes := part })
      |> rxClock g 0 |> txStart g 0
      |> modRx g (fun r => { r with tread := none })
      |> modTx g (fun x => { x with tread := none })
  else s

/-- DETECT_PROBE (R123): each transmit pair probes; with the clock-lane pair and at least 2 data pairs terminated the transmitter starts at T0 with FP0 on the lanes with a termination, and the settings that wait for a training come into force (R65); it stops again when the clock lane's termination goes. -/
def execDetectProbe (t : Nat) (g : GalIx) (clk : Bool) (found : BitVec 8) (s : State) : Answer :=
  effect t (fun s => hopRuns s g && (galAt s g).tx.ts == .detect) (fun s =>
    let s := forAll allLanes (fun l => modLane g l fun L => { L with termination := found.getLsbD l.val }) s
    let G := galAt s g
    if !G.tx.started ∧ clk ∧ popcount found ≥ 2 then
      s |> latchRx g |> latchTx g
        |> modTx g (fun x => { x with started := true, at_ := s.now, clkIdle := false })
        |> modRx g (fun r => { r with at_ := s.now })
        |> forAll allLanes (fun l => modLane g l fun L =>
            { L with coef := ((galSet s g).lanes[l].coef).getD (preset 0), txIdle := !found.getLsbD l.val || L.retired || L.retiredTx })
        |> emit (.sendAt g 0)
        |> startPeriod g
        |> leaveDetect g
    else if G.tx.started ∧ !clk then silence g s
    else s) s

/-- CLOCK_ACTIVITY_SEEN (R123). -/
def execClockActivitySeen (t : Nat) (g : GalIx) (s : State) : Answer :=
  effect t (fun s => hopRuns s g && (galAt s g).rx.ts == .detect) (fun s =>
    s |> modRx g (fun r => { r with activity := true }) |> leaveDetect g) s

/-- TERMINATION_LOST (R123, R141): in DETECT the transmitter stops again; in training the attempt fails with reason 0x1. -/
def execTerminationLost (t : Nat) (g : GalIx) (s : State) : Answer :=
  effect t (hopRuns · g) (fun s =>
    let G := galAt s g
    if G.rx.ts = .detect then doIf G.tx.started (silence g) s
    else if G.rx.ts = .backoff ∨ (G.rx.ts = .active ∧ G.tx.ts = .active) then s
    else failAttempt g 0x1 false s) s

/-- The maximum of a state in ns, where it has one that can expire (R121). -/
def stateMax (ts : TrainState) (tread : Tread) : Option Nat :=
  match ts with
  | .detect => some 1000000
  | .clock => some 200000
  | .align => some 100000
  | .exchange => some 2000000
  | .equalise => some (equaliseMax tread)
  | .qualify => some 1100000
  | .report => some 100000
  | .switching => some 200000
  | _ => none

/-- The reason code of a maximum that expires (R158). -/
def expiryReason : TrainState → Nat
  | .detect => 0xA
  | .clock => 0x2
  | .align => 0x3
  | .exchange => 0x4
  | .qualify => 0xB
  | .report => 0x8
  | _ => 0xC

/-- The four positions of 13 to 44 with the largest residual magnitude, none below 2 units; 0 disables a tap (R62). Of equal magnitudes the lowest position comes first (DESIGN CHOICE, note 118). -/
def placeFloating (residuals : List Int) : List Nat :=
  let c := (List.range 32).map fun i => (i + 13, (residuals.getD i 0).natAbs)
  let pick := fun (l : List (Nat × Nat)) => l.foldl (fun (b : Nat × Nat) e => if e.2 > b.2 then e else b) (0, 1)
  ((List.range 4).foldl (fun (acc : List Nat × List (Nat × Nat)) _ =>
    let b := pick acc.2
    (acc.1 ++ [b.1], acc.2.filter (·.1 ≠ b.1))) ([], c)).1

/-- A lane ends its search: the best peaking stays, the floating taps are placed by the residuals last measured, and done goes out (R62, R133). -/
def endSearch (g : GalIx) (p : Nat) (peak : Nat) (s : State) : State :=
  s |> modLane g (physOf (galAt s g) p) (fun L => { L with peak := peak, live := { L.live with ctle := peak, fpos := placeFloating L.residuals } })
    |> eqDone g p

/-- The request of R132 that takes a lane back to the best setting its search has found, with its peaking and area; none where it stands there. -/
def bestRequest (L : Lane) : Option (Nat × Nat × Nat) :=
  match L.search with
  | .preset _ _ (some (q, k, m)) => some (q + 1, k, m)
  | .back q k m => some (q + 1, k, m)
  | .step plus up k m => some ((if plus then 0x12 else 0x10) + (if up then 1 else 0), k, m)
  | _ => none

/-- The maximum of EQUALISE has passed: every receive lane goes back to the best setting found and sends done (R121, R133). -/
def forceDone (g : GalIx) (s : State) : State :=
  let G := galAt s g
  forAll ((positions G.rx.lanes).filter fun p => G.lanes[physOf G p].search != .done) (fun p => fun s =>
    let l := physOf G p
    let L := laneAt s g l
    match bestRequest L with
    | some (r, k, m) => s |> modLane g l (fun L => { L with search := .last k m, peak := k, area := m, live := { L.live with ctle := k } }) |> eqRequest g p r
    | none =>
      match L.search with
      | .undo _ _ k m => modLane g l (fun L => { L with search := .last k m }) s
      | _ => endSearch g p L.peak s) s

/-- TRAIN_TIMER_EXPIRY (R121): the maximum of the state of a direction expires. ALIGN ends with the lanes in lock, EQUALISE keeps the best settings found; the others fail the attempt. A transmit direction that re-steps cannot see the far receiver's lock: its CLOCK and ALIGN pass on (note 11). -/
def execTrainTimerExpiry (t : Nat) (g : GalIx) (rx : Bool) (s : State) : Answer :=
  effect t (hopRuns · g) (fun s =>
    let G := galAt s g
    let ts := if rx then G.rx.ts else G.tx.ts
    let at_ := if rx then G.rx.at_ else G.tx.at_
    let tread := if rx then G.rx.tread.getD 0 else G.tx.tread.getD 0
    match stateMax ts tread with
    | none => s
    | some m =>
      if s.now < at_ + m ∨ (ts = .detect ∧ !G.tx.started) then s
      else if ts = .equalise then
        if rx then s |> forceDone g |> tryQual g
        else
          s |> forAll (positions G.tx.lanes) (fun p => modLane g (laneOf p) fun L => { L with txDone := true }) |> tryQual g
      else if rx ∧ ts = .align then endAlign g s
      else if !rx ∧ (ts = .clock ∨ ts = .align) ∧ !(fromDetect G ∧ G.farCap.isNone) then
        modTx g (fun x => { x with ts := if ts = .clock then .align else .equalise, at_ := s.now }) s
      else failAttempt g (expiryReason ts) false s) s

/-- BACKOFF_EXPIRY (R141). -/
def execBackoffExpiry (t : Nat) (g : GalIx) (s : State) : Answer :=
  effect t (hopRuns · g) (fun s =>
    match (galAt s g).backoffUntil with
    | some e => if e ≤ s.now ∧ (galAt s g).rx.ts = .backoff then enterDetect g s else s
    | none => s) s

/-! ## The capability exchange (R126 to R131) -/

/-- The CAP that the reporting lanes of a gallery agree on: the one most lanes sent, but for `phys_lane` and `heard` (R128). Of equally many the one of the lowest lane counts (DESIGN CHOICE, note 119). -/
def agreedOn (G : Gal) : Option (Cap × Nat) :=
  let caps := allLanes.filterMap fun l => G.lanes[l].heardCap.map fun c => { c with physLane := 0#3, heard := 0#1 }
  let best := caps.foldl (fun (b : Option (Cap × Nat)) c =>
    let n := (caps.filter (· = c)).length
    match b with
    | some (_, m) => if n > m then some (c, n) else b
    | none => some (c, n)) none
  best

/-- The landing number a North gallery takes from the far end's LANDING and kind (R130). -/
def landingFrom (kind : BitVec 2) (l : Landing) : Option Nat :=
  if kind = 0#2 then some 0
  else if kind = 1#2 ∧ l.numbered = 1#1 ∧ l.landing.toNat < 15 then some (l.landing.toNat + 1)
  else none

/-- LANDING_CHANGE_SEND (R131): the new LANDING goes out 16 times, 1,024 slots apart, on the ACTIVE South galleries that carry the flight of a North gallery. -/
def passLanding (n : GalIx) (s : State) : State :=
  forAll ((allGals.drop 4).filter fun g => galActive s g && flightSource s g == n) (fun g => fun s =>
    sendRep g .all 1024 (some 15) (.landing (ownLanding s g)) s) s

/-- A North gallery takes its flight and landing number (R130); a number that changes is reported and passed on (R131). -/
def takeLanding (g : GalIx) (kind : BitVec 2) (l : Landing) (s : State) : State :=
  let G := galAt s g
  if isNorth g then
    let n := landingFrom kind l
    let changed := G.landed && (G.landing != n || G.flight != l.flight)
    s |> modGal g (fun G => { G with flight := l.flight, landing := n, landed := true })
      |> doIf (kind == 1#2 && l.numbered == 1#1 && l.landing == 15#4) (raise 0x0307 (by8 g.val ++ by8 0 ++ by16 l.flight.toNat))
      |> doIf changed (fun s => s
          |> raise 0x0306 (by8 g.val ++ by8 (G.landing.getD 0xFF) ++ by8 (n.getD 0xFF) ++ by8 0 ++ by16 l.flight.toNat)
          |> passLanding g)
  else s

/-- The repeats of the exchange end with it (R125). -/
def stopExchange (g : GalIx) (s : State) : State :=
  stopRep g (fun h => match h with
    | .cap _ | .landing _ => true
    | _ => false) s

/-- EXCHANGE_END (R129, R68): version, orientation and lane mapping in this order; then targets, FEC at T3, width floor and the lanes trained, and both directions go on to EQUALISE at T0. A lane whose CAP disagrees with the majority counts as not reporting (R128), and a lane MISWIRED before stays out (R68). -/
def endExchange (g : GalIx) (c : Cap) (l : Landing) (s : State) : State :=
  let G := galAt s g
  let set := G.setTx
  let fits := if isNorth g then c.kind = 0#2 ∨ (c.kind = 1#2 ∧ c.side = 1#1) else c.kind = 2#2 ∨ (c.kind = 1#2 ∧ c.side = 0#1)
  if c.version ≠ 1#4 then failAttempt g 0x6 false s
  else if !fits then failAttempt g 0x5 false s
  else
    let agrees := fun (p : LaneIx) => (G.lanes[p].heardCap.map fun x => { x with physLane := 0#3, heard := 1#1 }) == some { c with physLane := 0#3, heard := 1#1 }
    let rep := allLanes.filter fun p => G.lanes[p].heard.isSome && agrees p && !G.lanes[p].miswired
    let straight := rep.filter fun p => G.lanes[p].heard == some p.val
    let rev := rep.filter fun p => G.lanes[p].heard == some (7 - p.val)
    let reversed := rev.length > straight.length
    let fit := if reversed then rev else straight
    let wrong := rep.filter fun p => G.lanes[p].heard != some p.val && G.lanes[p].heard != some (7 - p.val)
    let s := s
      |> stopExchange g
      |> forAll wrong (fun p => fun s => s
          |> modLane g p (fun L => { L with miswired := true })
          |> raise 0x0205 (by8 g.val ++ by8 p.val ++ by8 ((G.lanes[p].heard).getD 0xFF)))
    if fit.length < 2 then failAttempt g 0xD false s
    else
      let pos := fun (p : LaneIx) => if reversed then 7 - p.val else p.val
      let lanes := bitmap (fit.filterMap fun p =>
        if G.rx.lanes.getLsbD p.val && inLock false G.lanes[p] && c.lanes.getLsbD (pos p) then some (pos p) else none)
      let fl := max set.floor c.floor.toNat
      let tgt := treadOf (min set.txCeil.val c.rxCeil.toNat)
      let rgt := treadOf (min c.txCeil.toNat set.rxCeil.val)
      s |> modGal g (fun G => { G with farCap := some { c with physLane := 0#3 }, farLanding := some l, fecT3 := set.t3fec || c.t3fec == 1#1 })
        |> modRx g (fun r => { r with reversed, lanes, target := some rgt, floor := fl, ts := .equalise, at_ := s.now, first := 0, mode := .up })
        |> modTx g (fun x => { x with lanes := offered (galAt s g), target := some tgt, floor := fl, ts := .equalise, at_ := s.now,
                                      first := 0, mode := .up })
        |> takeLanding g c.kind l
        |> startEqualise g
        |> tryQual g

/-- Progress of the exchange after a CAP or LANDING: `heard` is sent once 2 lanes agree and a LANDING came, and EXCHANGE ends once `heard` has come and been sent for 1,024 slots, 19,224 ns at T0 (R128). -/
def exchange (g : GalIx) (s : State) : State :=
  let G := galAt s g
  match agreedOn G, G.farLanding with
  | some (c, n), some l =>
    if n < 2 then s
    else
      let s := modGal g (fun G => { G with agreedCap := some c }) s
      match G.heardAt with
      | none => s |> modGal g (fun G => { G with heardAt := some s.now }) |> sendCaps g true
      | some h => if G.heardRx ∧ h + 19224 ≤ s.now then endExchange g { c with heard := 1#1 } l s else s
  | _, _ => s

/-- CAP_RECEIVE (R128, R129). -/
def execCapReceive (t : Nat) (g : GalIx) (lane : LaneIx) (c : Cap) (s : State) : Answer :=
  effect t (hopRuns · g) (fun s =>
    let s := takeHop g (.cap c) s
    let G := galAt s g
    if G.rx.ts = .exchange then
      s |> modLane g lane (fun L => { L with heardCap := some c, heard := some c.physLane.toNat })
        |> modGal g (fun G => { G with heardRx := G.heardRx || c.heard == 1#1 })
        |> exchange g
    else s) s

/-- LANDING_RECEIVE (R130, R131). -/
def execLandingReceive (t : Nat) (g : GalIx) (_lane : LaneIx) (l : Landing) (s : State) : Answer :=
  effect t (hopRuns · g) (fun s =>
    let s := takeHop g (.landing l) s
    let G := galAt s g
    match G.rx.ts with
    | .exchange => s |> modGal g (fun G => { G with farLanding := some l }) |> exchange g
    | .active =>
      match G.farCap with
      | some c =>
        s |> doIf (G.farLanding != some l) (takeLanding g c.kind l)
          |> modGal g (fun G => { G with farLanding := some l })
      | none => s
    | _ => s) s

/-! ## Equalisation (R132, R133) -/

/-- The coefficients a request asks for, where the transmitter changes them (R132). -/
def requested (L : Lane) (saved : Option Coef) (request : Nat) : Coef :=
  let c := L.coef
  let try_ := fun (d : Coef) => if coefOk d then d else c
  if 1 ≤ request ∧ request ≤ 11 then preset (request - 1)
  else match request with
    | 0x0C => saved.getD c
    | 0x10 => try_ { c with cm1 := c.cm1 + 1 }
    | 0x11 => try_ { c with cm1 := c.cm1 - 1 }
    | 0x12 => try_ { c with cp1 := c.cp1 + 1 }
    | 0x13 => try_ { c with cp1 := c.cp1 - 1 }
    | _ => c

/-- EQ_REQ_RECEIVE (R132): the transmitter applies a new count once and echoes it with the coefficients now sent, every 64 slots while EQUALISE lasts; fixed coefficients stay. -/
def execEqReqReceive (t : Nat) (g : GalIx) (pos : BitVec 3) (count : BitVec 5) (request : BitVec 8) (s : State) : Answer :=
  effect t (hopRuns · g) (fun s =>
    let s := takeHop g (.eqReq pos count request) s
    let G := galAt s g
    let l := laneOf pos.toNat
    let L := G.lanes[l]
    let busy := G.tx.ts == .clock || G.tx.ts == .align || G.tx.ts == .equalise || (G.tx.ts == .active && L.txFailed)
    if busy then
      let s := if (G.tx.ts = .clock ∨ G.tx.ts = .align) ∧ G.tx.mode ≠ .back then modTx g (fun x => { x with ts := .equalise, at_ := s.now }) s else s
      let c := if count.toNat = L.reqCount then L.coef
        else ((G.setTx.lanes[l]).coef).getD (requested L (mget? L.txSaved (G.tx.tread.getD 0).val) request.toNat)
      s |> modLane g l (fun L => { L with coef := c, reqCount := count.toNat, txDone := L.txDone || request == 0x1F#8 })
        |> sendRep g (.lane l.val) 64 none (.eqAck pos count (ibyte c.cm2) (ibyte c.cm1) (ibyte c.cp1) (ibyte c.cp2))
        |> tryQual g
    else s) s

/-- The index and value of the largest area of a list (R133). -/
def bestArea (areas : List Nat) : Nat × Nat :=
  (areas.zipIdx.foldl (fun (b : Nat × Nat) e => if e.1 > b.2 then (e.2, e.1) else b) (0, 0))

/-- The request code of a step of c(+1) or c(-1), upward or downward (R132). -/
def stepCode (plus up : Bool) : Nat := (if plus then 0x12 else 0x10) + if up then 0 else 1

/-- Coefficients after a step. -/
def stepped (c : Coef) (plus up : Bool) : Coef :=
  let d : Int := if up then 1 else -1
  if plus then { c with cp1 := c.cp1 + d } else { c with cm1 := c.cm1 + d }

/-- What a search asks next: c(-1) up and down, then c(+1) up and down, each while a step stays within R55 (R133). -/
def nextStep (c : Coef) (peak area : Nat) (l : List (Bool × Bool)) : Option (EqSearch × Nat) :=
  (l.find? fun d => coefOk (stepped c d.1 d.2)).map fun d => (.step d.1 d.2 peak area, stepCode d.1 d.2)

/-- The directions that follow one in the search. -/
def afterDir (plus up : Bool) : List (Bool × Bool) :=
  match plus, up with
  | false, true => [(false, false), (true, true), (true, false)]
  | false, false => [(true, true), (true, false)]
  | true, true => [(true, false)]
  | true, false => []

/-- One step of the search of R133: from where it stands, the coefficients echoed and the areas measured, to where it goes, the request it sends (0: none), and the best peaking and area. It ends with 64 training windows of tap adaptation. -/
def searchStep (L : Lane) (c : Coef) (t : Tread) (start : Nat) (areas : List Nat) : EqSearch × Nat × Nat × Nat :=
  let a := areas.getD 0 0
  let go := fun (peak area : Nat) (l : List (Bool × Bool)) =>
    match nextStep c peak area l with
    | some (e, r) => (e, r, peak, area)
    | none => (EqSearch.adapt 64 peak area, 0, peak, area)
  match L.search with
  | .saved =>
    match mget? L.saved t.val with
    | some v =>
      if a * 10 ≥ v.area * 9 then (.adapt 64 v.ctle a, 0, v.ctle, a)
      else match candidates t start with
        | p :: rest => (.preset p rest none, p + 1, L.peak, 0)
        | [] => (.adapt 64 L.peak 0, 0, L.peak, 0)
    | none =>
      match candidates t start with
      | p :: rest => (.preset p rest none, p + 1, L.peak, 0)
      | [] => (.adapt 64 L.peak 0, 0, L.peak, 0)
  | .preset p rest best =>
    let b := bestArea (areas.take 16)
    let nb : Nat × Nat × Nat := match best with
      | some (q, k, m) => if b.2 > m then (p, b.1, b.2) else (q, k, m)
      | none => (p, b.1, b.2)
    match rest with
    | q :: r => (.preset q r (some nb), q + 1, nb.2.1, nb.2.2)
    | [] => (.back nb.1 nb.2.1 nb.2.2, nb.1 + 1, nb.2.1, nb.2.2)
  | .back _ peak area => go peak area [(false, true), (false, false), (true, true), (true, false)]
  | .step plus up peak area =>
    if a > area then
      if coefOk (stepped c plus up) then (.step plus up peak a, stepCode plus up, peak, a) else go peak a (afterDir plus up)
    else (.undo plus up peak area, stepCode plus !up, peak, area)
  | .undo plus up peak area => go peak area (afterDir plus up)
  | _ => (L.search, 0, L.peak, L.area)

/-- EQ_ACK_RECEIVE (R133): the receiver learns the coefficients, and the request outstanding ends; it continues its search. `areas` holds the eye areas measured with them, at peakings 0 to 15 while presets are tried. -/
def execEqAckReceive (t : Nat) (g : GalIx) (_lane : LaneIx) (pos : BitVec 3) (count : BitVec 5) (cm2 cm1 cp1 cp2 : BitVec 8) (areas : List Nat) (s : State) : Answer :=
  effect t (hopRuns · g) (fun s =>
    let s := takeHop g (.eqAck pos count cm2 cm1 cp1 cp2) s
    let G := galAt s g
    let l := physOf G pos.toNat
    let L := G.lanes[l]
    let c : Coef := ⟨sbyte cm2.toNat, sbyte cm1.toNat, sbyte cp1.toNat, sbyte cp2.toNat⟩
    let s := modLane g l (fun L => { L with farCoef := c }) s
    if count.toNat ≠ L.eqCount then s
    else
      let s := stopRep g (fun h => match h with
        | .eqReq p _ _ => p == pos
        | _ => false) s
      let on := G.rx.ts == .equalise || (G.rx.ts == .active && G.rx.attempt.step == 2 && G.rx.attempt.pos == pos.toNat)
      match on, L.search with
      | false, _ | _, .idle | _, .done | _, .adapt .. => s
      | _, .last k _ => endSearch g pos.toNat k s
      | _, _ =>
        let tread := G.rx.tread.getD 0
        let r := searchStep L c tread (G.setRx.presets.getD tread.val 0) areas
        s |> modLane g l (fun L => { L with search := r.1, peak := r.2.2.1, area := r.2.2.2, live := { L.live with ctle := r.2.2.1 } })
          |> doIf (r.2.1 != 0) (eqRequest g pos.toNat r.2.1)) s

/-! ## Qualification (R135 to R137) -/

/-- Requests for coefficients end with EQUALISE. -/
def stopRequests (g : GalIx) (s : State) : State :=
  stopRep g (fun h => match h with
    | .eqReq .. => true
    | _ => false) s

/-- QUAL_RECEIVE (R135): QUALIFY begins with the first copy, and the countdown to the pattern is heard. A fall-back stands in QUALIFY already and times it from there (R138). -/
def execQualReceive (t : Nat) (g : GalIx) (_lane : LaneIx) (tread : BitVec 3) (fec : BitVec 1) (countdown : BitVec 16) (s : State) : Answer :=
  effect t (hopRuns · g) (fun s =>
    let s := takeHop g (.qual tread fec countdown) s
    let r := (galAt s g).rx
    if r.ts = .equalise ∨ (r.ts = .qualify ∧ r.countdown = 0 ∧ !r.prbsOn) then
      s |> modRx g (fun r => { r with ts := .qualify, at_ := s.now, countdown := countdown.toNat, prbsOn := false }) |> stopRequests g
    else if (r.ts = .qualify ∨ (r.ts = .active ∧ r.attempt.step = 3)) ∧ !r.prbsOn then
      modRx g (fun r => { r with countdown := countdown.toNat }) s
    else s) s

/-- QUAL_COUNTDOWN_END (R135): the count has reached 0 and the period ends: at the boundary every lane in training, or the lane that retrains in the background, sends the pattern for 1.05 ms, and the receive lanes check it. -/
def execQualCountdownEnd (t : Nat) (g : GalIx) (rx : Bool) (s : State) : Answer :=
  effect t (hopRuns · g) (fun s =>
    let G := galAt s g
    if rx then
      if G.rx.ts = .qualify ∨ (G.rx.ts = .active ∧ G.rx.attempt.step = 3) then modRx g (fun r => { r with countdown := 0, prbsOn := true }) s else s
    else if G.tx.prbsUntil.isSome then s
    else if G.tx.ts = .qualify then s |> passSlots g G.tx.countdown |> passToPrbs g
    else match G.tx.ts, G.tx.laneQual with
      | .active, some (_, n) => s |> passSlots g n |> passToPrbs g
      | _, _ => s) s
where
  /-- The rest of the period passes, where the pattern has not begun with its end. -/
  passToPrbs (g : GalIx) (s : State) : State := if (galAt s g).tx.prbsUntil.isSome then s else passPeriod g s

/-- QUALIFY_END (R136, R137): each lane passes or fails by what was measured of it, and in REPORT those that passed lock again before RESULT goes out. In a background attempt the lane alone is judged (R174). -/
def execQualifyEnd (t : Nat) (g : GalIx) (results : List LaneQual) (s : State) : Answer :=
  effect t (hopRuns · g) (fun s =>
    let G := galAt s g
    let tread := G.rx.tread.getD 0
    let res := fun (l : LaneIx) => results.getD l.val ⟨false, 0, 0, 0⟩
    if G.rx.ts = .qualify then
      let pass := (positions G.rx.lanes).filter fun p => qualPasses tread G.rx.fec (res (physOf G p))
      s |> relockLanes g
        |> modRx g (fun x => { x with ts := .report, at_ := s.now, qual := results, pass := bitmap pass, result := none, prbsOn := false })
        |> tryResult g
    else if G.rx.ts = .active ∧ G.rx.attempt.step = 3 then
      let p := G.rx.attempt.pos
      if qualPasses tread G.rx.fec (res (physOf G p)) then
        s |> modRx g (fun r => { r with attempt := { r.attempt with step := 4, at_ := s.now }, prbsOn := false }) |> laneCheck g p 2#3
      else failedRejoin g p 3 s
    else s) s

/-! ## Deciding the step (R138, R139) -/

/-- RESULT_RECEIVE (R138, R139): the transmitting end saves the coefficients of a direction that passes (R134), decides, and announces STEP every 64 slots until its boundary, at least 4 periods ahead. -/
def execResultReceive (t : Nat) (g : GalIx) (r : ResultBlk) (s : State) : Answer :=
  effect t (hopRuns · g) (fun s =>
    let s := takeHop g (.result r) s
    let x := (galAt s g).tx
    let t3 := (galAt s g).fecT3
    if x.ts ≠ .qualify ∧ x.ts ≠ .report then s
    else
      let tread := x.tread.getD 0
      let n := popcount r.passed
      let b := (x.seq + 4) % 1024
      let s := s
        |> modTx g (fun x => { x with prbsUntil := none, countdown := 0 })
        |> doIf (decide (n ≥ max 2 x.floor)) (forAll (positions r.passed) fun p =>
            modLane g (laneOf p) fun L => { L with txSaved := mput L.txSaved tread.val L.coef })
      let announce := fun (q : Tread) (action : BitVec 2) (lanes : BitVec 8) =>
        ({ toTread := BitVec.ofNat 3 q.val, fec := BitVec.ofBool (fecAt q t3), action, boundary := BitVec.ofNat 10 b, lanes } : StepBlk)
      match decide138 tread x.first x.mode x.goal x.target x.floor x.prev t3 n with
      | .settle =>
        let below := match x.target with
          | some q => decide (tread.val < q.val)
          | none => false
        s |> sendRep g .all 64 none (.step (announce tread 2#2 r.passed))
          |> modTx g (fun x => { x with ts := .settled, at_ := s.now, lanes := r.passed, below })
      | .goTo q a m =>
        let lanes := if m = .up then r.passed else x.lanes
        s |> sendRep g .all 64 none (.step (announce q a lanes))
          |> modTx g (fun x => { x with ts := .switching, at_ := s.now, stepTo := some (announce q a lanes), mode := m,
                                        fell := if m = .back then x.fell ++ [tread] else x.fell,
                                        prev := if m = .up then some (tread, n) else x.prev })
      | .fails => failAttempt g 0x7 (x.goal.isSome && x.mode == .down) s) s

/-- STEP_RECEIVE (R139, R142, R145): the receive direction settles, or waits for the boundary; on an ACTIVE direction a re-step starts. RESULT and RETRAIN are answered (R125). -/
def execStepReceive (t : Nat) (g : GalIx) (b : StepBlk) (s : State) : Answer :=
  effect t (hopRuns · g) (fun s =>
    let s := takeHop g (.step b) s
    let r := (galAt s g).rx
    let q := treadOf b.toTread.toNat
    match r.ts with
    | .report =>
      let n := (r.result.map fun e => popcount e.passed).getD (popcount r.pass)
      let s := stopRep g (fun h => match h with
        | .result _ => true
        | _ => false) s
      if b.action = 2#2 then
        let below := match r.target with
          | some e => decide (q.val < e.val)
          | none => false
        modRx g (fun r => { r with ts := .settled, at_ := s.now, lanes := b.lanes, tread := some q, below, result := none, doomed := false }) s
      else
        let m : StepMode := if b.action = 0#2 then .up else if b.action = 1#2 then .back else .down
        modRx g (fun r => { r with ts := .switching, at_ := s.now, stepTo := some b, lanes := b.lanes, result := none, doomed := false, mode := m,
                                   fell := if m = .back then r.fell ++ [r.tread.getD 0] else r.fell,
                                   prev := if m = .up then some (r.tread.getD 0, n) else r.prev }) s
    | .active =>
      if r.stepTo = some b then s
      else
        let old := r.tread.getD 0
        s |> stopRep g (fun h => match h with
              | .retrain _ => true
              | _ => false)
          |> modRx g (fun r => { r with stepTo := some b, goal := some q, first := q, oldTread := some old, prev := some (old, popcount r.active), fell := [],
                                        mode := if b.action = 0#2 then .up else .down })
          |> raise 0x0303 (by8 g.val ++ by8 0 ++ by8 old.val ++ by8 q.val ++ by8 r.stepReason.toNat)
    | _ => s) s

/-- An attempt of the background retraining ends where a training begins, and is not counted (R178). -/
def cancelAttempt (g : GalIx) (s : State) : State :=
  s |> modRx g (fun r => { r with attempt := {}, rejoin := none, prbsOn := false, countdown := 0 })
    |> modGal g (fun G => { G with lanes := G.lanes.map fun L => { L with nextTry := none } })
    |> stopRep g (fun h => match h with
        | .eqReq .. | .laneCheck .. => true
        | _ => false)

/-- STEP_BOUNDARY (R139, R145): the boundary period has passed. An ACTIVE direction enters GUARD with its rings frozen and reports a capacity of 0 (R148); a direction in SWITCH retunes, or enters CLOCK at the new tread. -/
def execStepBoundary (t : Nat) (g : GalIx) (rx : Bool) (s : State) : Answer :=
  effect t (hopRuns · g) (fun s =>
    let G := galAt s g
    if rx then
      match G.rx.stepTo, G.rx.ts with
      | some b, .active =>
        s |> walk g 2048
          |> cancelAttempt g
          |> modRx g (fun r => { r with ts := .guarding, at_ := s.now, lanes := b.lanes &&& bitmap ((List.range 8).filter fun p => fit G.lanes[physOf G p]) })
          |> reportCapacity g
          |> switchAway g
      | some b, .switching => rxClock g (treadOf b.toTread.toNat) s
      | _, _ => s
    else
      match G.tx.stepTo, G.tx.ts with
      | some b, .active =>
        s |> passTo g ((b.boundary.toNat + 1) % 1024) 1024
          |> modTx g (fun x => { x with ts := .guarding, at_ := s.now, frozenRing := true, laneQual := none, prbsUntil := none, readyWait := none, checkSeen := none })
          |> reportCapacity g
          |> switchAway g
      | some b, .switching => s |> passTo g ((b.boundary.toNat + 1) % 1024) 1024 |> modTx g (fun x => { x with lanes := b.lanes }) |> txStart g (treadOf b.toTread.toNat)
      | _, _ => s) s
where
  /-- Whether a receive lane trains in a re-step (R142). -/
  fit (L : Lane) : Bool := !L.retired && !L.miswired

/-- GUARD_END (R145): 8 us without a loss report; the rings are discarded, the settings that wait for a training come into force (R65), and SWITCH follows. -/
def execGuardEnd (t : Nat) (g : GalIx) (rx : Bool) (s : State) : Answer :=
  effect t (hopRuns · g) (fun s =>
    let G := galAt s g
    if rx then
      if G.rx.ts = .guarding ∧ G.rx.at_ + 8000 ≤ s.now then s |> latchRx g |> modRx g (fun r => { r with ts := .switching, at_ := s.now }) else s
    else if G.tx.ts = .guarding ∧ G.tx.at_ + 8000 ≤ s.now then
      s |> latchTx g |> modTx g (fun x => { x with ts := .switching, at_ := s.now, frozenRing := false, ring := [], superseded := [] })
    else s) s

/-! ## Activation (R140) -/

/-- What a gallery that is ACTIVE in both directions reports, after a training from DETECT (`fresh`); the count of failed attempts clears, and requests held are answered (R140, R141, R144). -/
def afterActive (g : GalIx) (fresh : Bool) (s : State) : State :=
  let G := galAt s g
  if G.rx.ts = .active ∧ G.tx.ts = .active then
    s |> modGal g (fun G => { G with fails := 0 })
      |> doIf fresh (raise 0x0301 (by8 g.val ++ by8 (G.rx.tread.getD 0).val ++ by8 (popcount G.rx.active) ++
            by8 (G.tx.tread.getD 0).val ++ by8 (popcount G.tx.active) ++ by8 (G.landing.getD 0xFF) ++ by16 G.flight.toNat))
      |> answerHeld g
  else s

/-- Whether the transmit direction can send ACTIVATE: SETTLED, and the other direction SETTLED too after a training from DETECT (R140, R142). -/
def txReady (G : Gal) : Bool :=
  G.tx.ts == .settled && (if G.tx.goal.isSome then G.rx.ts == .active else G.rx.ts == .settled || G.rx.ts == .active)

/-- ACTIVATE goes out on every lane of the new active set for the rest of the period, or for a whole one (R125, R140). -/
def announceStriping (g : GalIx) (first : Nat) (s : State) : State :=
  let x := (galAt s g).tx
  let h : Hop := .activate (BitVec.ofNat 3 (x.tread.getD 0).val) (BitVec.ofBool x.fec) x.lanes (BitVec.ofNat 10 first)
  let mine := fun (h : Hop) => match h with
    | .activate .. => true
    | _ => false
  let s := s |> sendRep g .all 64 none h |> passPeriod g
  let s := if (galAt s g).tx.hopQueue.any fun e => mine e.2 then passPeriod g s else s
  s |> stopRep g mine |> modTx g (fun x => { x with hopQueue := x.hopQueue.filter fun e => !mine e.2 })

/-- A transmit direction starts its striping at period `first`: ACTIVATE has gone out, the rings are empty, and the lanes it did not settle with are DARNED (R138, R140). -/
def startStriping (g : GalIx) (first : Nat) (s : State) : State :=
  let G := galAt s g
  s |> announceStriping g first
    |> modTx g (fun x => { x with ts := .active, at_ := s.now, active := x.lanes, trained := popcount x.lanes, ring := [],
                                  superseded := [], seq := first, nextActive := [], frozenRing := false, sentPeriods := 0, stepTo := none,
                                  reBoundary := none, lastReport := none, goal := none, oldTread := none, stepReason := 0#4 })
    |> (fun s => forAll allLanes (fun l => modLane g l fun L =>
        { L with txFailed := !G.tx.lanes.getLsbD l.val && offers L, txIdleAt := (galAt s g).tx.slotNo, txHopAt := [], txCreditAt := none }) s)

/-- What a re-step reports when its direction is ACTIVE again: a lower tread is counted, and `gallery.step_done` follows (R142, R159). -/
def reportStep (g : GalIx) (dir : Nat) (t : Tread) (old : Option Tread) (width : Nat) (s : State) : State :=
  s |> doIf (match old with | some o => t.val < o.val | none => false) (countGal 0x412 g dir)
    |> raise 0x0304 (by8 g.val ++ by8 dir ++ by8 t.val ++ by8 width)

/-- ACTIVATE_SEND (R140, R142): with both directions SETTLED, or the transmit direction of a re-step, striping starts with empty rings, and the idle mask is applied again (R81). -/
def execActivateSend (t : Nat) (g : GalIx) (s : State) : Answer :=
  effect t (hopRuns · g) (fun s =>
    let G := galAt s g
    if txReady G then
      let re := G.tx.goal.isSome
      let set := galSet s g
      s |> startStriping g (if re then ((G.tx.reBoundary.getD G.tx.seq) + 1) % 1024 else 0)
        |> doIf (!re) (startCreditsTx g)
        |> startPeriod g
        |> startProbe g
        |> doIf (G.rx.ts == .active) (sendCredits g)
        |> reportCapacity g
        |> doIf re (reportStep g 1 (G.tx.tread.getD 0) G.tx.oldTread (popcount G.tx.lanes))
        |> doIf (set.idleMask != 0#8) (idleEnter g set.idleMask set.stopClock)
        |> afterActive g (fromDetect G)
    else s) s

/-- Whether a receive direction counts as stepped down under R143 after a re-step to `t` from `old` for a reason (R146). -/
def stepsDown (r : RxDir) (t : Tread) (old : Option Tread) : Bool :=
  let lower := match old with
    | some o => decide (t.val < o.val)
    | none => false
  let short := match r.target with
    | some q => decide (t.val < q.val)
    | none => false
  ((r.stepReason == 1#4 && lower) || r.steppedDown) && short

/-- A receive direction starts its walk at period `first` with the active set; lanes settled without are DARNED, and their first attempt starts 1 ms later (R138, R140, R174). The windows of R143 start afresh. -/
def startWalk (g : GalIx) (q : Tread) (f : Bool) (active : BitVec 8) (first : Nat) (s : State) : State :=
  let G := galAt s g
  let re := G.rx.goal.isSome
  let z := lastBefore f first
  let down := re && stepsDown G.rx q G.rx.oldTread
  let far := (G.farCap.map (·.lanes)).getD 0xFF#8
  s |> modRx g (fun r => { r with ts := .active, at_ := s.now, active, trained := popcount active, tread := some q, fec := f,
                                  walkSeq := first, walkSlot := firstSlot f, held := false, nextActive := [], jumps := [], rejoin := none,
                                  sentWait := [], open_ := if re then r.open_ else none, basting := if re then r.basting else [],
                                  winErr := 0, winAt := s.now, darnTimes := [], stepTo := none, attempt := {}, goal := none, oldTread := none,
                                  stepReason := 0#4, steppedDown := down, quietSince := if down then some s.now else none })
    |> forAll allLanes (fun l => modLane g l fun L =>
        let p := posOf G l
        let out := !active.getLsbD p && far.getLsbD p && !L.retired && !L.miswired
        { L with failed := out, nextTry := if out then some (s.now + 1000000) else none, deskew := [], lastGood := z.1, lastSlot := z.2,
                 startSeq := if active.getLsbD p then some first else none, rxIdle := false, idleNote := none, rejoinedAt := none })

/-- ACTIVATE_RECEIVE (R140, R142, R208): a receive direction that is SETTLED starts its walk. -/
def execActivateReceive (t : Nat) (g : GalIx) (tread : BitVec 3) (fec : BitVec 1) (active : BitVec 8) (firstSeq : BitVec 10) (s : State) : Answer :=
  effect t (hopRuns · g) (fun s =>
    let s := takeHop g (.activate tread fec active firstSeq) s
    let G := galAt s g
    if G.rx.ts ≠ .settled then s
    else
      let re := G.rx.goal.isSome
      let q := treadOf tread.toNat
      s |> startWalk g q (fec == 1#1) active firstSeq.toNat
        |> startCreditsRx g re
        |> reportCapacity g
        |> doIf re (reportStep g 0 q G.rx.oldTread (popcount active))
        |> afterActive g (fromDetect G)) s

/-! ## Re-stepping (R143, R144, R146) -/

/-- RETRAIN_RECEIVE (R144): a new request is answered while both directions are ACTIVE, and held otherwise; a newer one replaces it. -/
def execRetrainReceive (t : Nat) (g : GalIx) (r : RetrainBlk) (s : State) : Answer :=
  effect t (hopRuns · g) (fun s =>
    let s := takeHop g (.retrain r) s
    let G := galAt s g
    if G.tx.lastReq = some r.reqId.toNat then s
    else if stepFree G then answerRetrain g r s
    else modTx g (fun x => { x with heldRetrain := some r }) s) s

/-- STEP_DOWN_WINDOW (R143): a window of 100 ms closes with `bits` bits received; above the threshold the receiver requests a step down. -/
def execStepDownWindow (t : Nat) (g : GalIx) (bits : Nat) (s : State) : Answer :=
  effect t (fun s => hopRuns s g && (galAt s g).rx.ts == .active) (fun s =>
    let G := galAt s g
    if s.now < G.rx.winAt + 100000000 then s
    else
      let tooMany : Bool := if G.rx.fec then G.rx.winErr * 100000 > 24 * bits else G.rx.winErr > 4
      s |> modRx g (fun r => { r with winErr := 0, winAt := s.now }) |> doIf tooMany (stepDownTrigger g)) s

/-- RECLIMB_TIMER (R146): 10 minutes without a trigger request one re-step up by one tread toward the target. -/
def execReclimbTimer (t : Nat) (g : GalIx) (s : State) : Answer :=
  effect t (fun s => hopRuns s g && (galAt s g).rx.ts == .active) (fun s =>
    let G := galAt s g
    let tr := (G.rx.tread.getD 0).val
    match G.rx.quietSince with
    | some q =>
      if (galSet s g).reclimb ∧ G.rx.steppedDown ∧ q + 600000000000 ≤ s.now ∧ tr < (G.rx.target.getD 5).val then
        s |> modRx g (fun r => { r with quietSince := some s.now }) |> requestStep g (tr + 1) 0x3
      else s
    | none => s) s

end Sys2Proof.Machine
end

