-- ==== Sys2Proof/Machine/DarnCmds.lean ====
section
/-! DEFINITION. Commands of darning (chapter 05): loss reports, replay, background retraining and rejoin. -/

namespace Sys2Proof.Machine

/-- Whether a loss report's last good point lies within what the direction has sent: its last 1,023 periods, or the point just before its first (R166; note 12). -/
def reportFits (x : TxDir) (l : LossBlk) : Bool :=
  let back := modSub 1024 x.seq l.lastGood.toNat
  back ≤ min 1023 (x.sentPeriods + 1) && (back > 0 || (!x.fec && l.lastSlot.toNat < x.slot))

/-- A re-step that has been announced, or stands in GUARD, is abandoned: striping resumes at the old tread and the rings run again (R145, R178). -/
def abandonStep (g : GalIx) (lane : Nat) (s : State) : State :=
  let x := (galAt s g).tx
  if x.stepTo.isSome ∨ x.ts = .guarding then
    s |> modTx g (fun x => { x with ts := .active, stepTo := none, goal := none, oldTread := none, reBoundary := none, frozenRing := false, stepReason := 0#4 })
      |> stopRep g (fun h => match h with
          | .step _ => true
          | _ => false)
      |> countGal 0x413 g 1
      |> raise 0x0305 (by8 g.val ++ by8 1 ++ by8 lane)
  else s

/-- Whether the transmitter has idled a lane, or is about to. -/
def isIdled (L : Lane) : Bool := L.txIdle || L.txLeaving.isSome || L.txDrain != 0

/-- A report names lanes: those that the transmitter has idled stay idle (R74), the others retrain beside the striping from the next period on (R168, R174). What had been announced for them is off, and a REJOIN that was pending is cancelled (R178). -/
def dropLanes (g : GalIx) (failed : BitVec 8) (s : State) : State :=
  let G := galAt s g
  let x := G.tx
  let gone := failed ||| ((x.rejoining.map fun e => bit8 e.1).getD 0#8)
  let hit := (positions failed).filter fun p => let L := G.lanes[laneOf p]; (txSet x ||| x.active).getLsbD p && !isIdled L
  let q := if atStart x then x.seq else (x.seq + 1) % 1024
  let stale := fun (e : Option Nat × Hop) => isSlotted e.2 || match e.1 with
    | some p => failed.getLsbD p
    | none => false
  s |> modTx g (fun x =>
        { x with rejoining := none, readyWait := none, nextActive := changeAt x.active x.nextActive q (· &&& ~~~gone),
                 hopQueue := x.hopQueue.filter fun e => !stale e })
    |> forAll hit (fun p => modLane g (laneOf p) fun L => { L with txFailed := true, txWaking := none })
    |> forAll (positions failed) (fun p => modLane g (laneOf p) fun L => if L.txLeaving.isSome then { L with txLeaving := some q } else L)

/-- The next period starts without the lanes dropped: the rest of the present one passes first, where it has begun. -/
def startNext (g : GalIx) (s : State) : State := if atStart (galAt s g).tx then enterSet g s else passPeriod g s

/-- Lanes that R79 wakes: idle, healthy and not named by the report. -/
def healthy (G : Gal) (failed : BitVec 8) : BitVec 8 :=
  wakeable G &&& ~~~failed &&& ~~~bitmap ((List.range 8).filter fun p => G.lanes[laneOf p].txFailed)

/-- The REPLAY that answers a report (R168 to R170): the restart period is the one that starts now, or the rejoin period of the first woken lane where no lane is left in striping. -/
def replyTo (x : TxDir) (l : LossBlk) : ReplayBlk :=
  let first := (x.nextActive.find? fun e => e.2 != 0#8).getD (x.seq, 0#8)
  let at_ := if x.active != 0#8 then (x.seq, x.active) else first
  { active := at_.2, restartSeq := BitVec.ofNat 10 at_.1, reportId := l.reportId
    lossless := BitVec.ofBool (ringHolds x (resumeKey x l.lastGood.toNat l.lastSlot.toNat)) }

/-- `lane.darned` of a transmit lane (R168, R182). -/
def darnedTx (g : GalIx) (l : LossBlk) (r : ReplayBlk) (width periods : Nat) (p : Nat) (s : State) : State :=
  s |> countN 0x310 g.val (p % 8) 1 1
    |> raise 0x0201 (by8 g.val ++ by8 (p % 8) ++ by8 1 ++ by8 0 ++ by16 l.lastGood.toNat ++ by16 l.lastSlot.toNat ++ by16 r.restartSeq.toNat ++
         by8 r.lossless.toNat ++ by8 width ++ by16 periods)

/-- Send REPLAY, and the stream again from where it stops: without loss the periods superseded count as replayed, otherwise SENT blocks go with it (R168, R169, R182, R216). -/
def sendReplayOf (g : GalIx) (l : LossBlk) (dropped : List Nat) (s : State) : State :=
  let x := (galAt s g).tx
  let r := replyTo x l
  let k := resumeKey x l.lastGood.toNat l.lastSlot.toNat
  let first := (nextKey x.fec (l.lastGood.toNat, if x.fec then 76 else l.lastSlot.toNat)).1
  let ok := r.lossless == 1#1
  let periods := if ok then modSub 1024 r.restartSeq.toNat first else 0
  let on := positions r.active
  s |> modTx g (fun x => { x with
        replay := if ok then ringStream x k ++ x.replay else x.replay
        superseded := x.superseded ++ [{ first, restart := r.restartSeq.toNat }]
        hopQueue := (on.map fun p => (some p, Hop.replay r)) ++ x.hopQueue })
    |> emit (.hop g r.active (.replay r))
    |> doIf ok (countGal 0x421 g 0)
    |> countN 0x422 g.val 0 0 periods
    |> doIf (!ok) (fun s => s |> sendHop g r.active (.sentA 0#20 0#20) |> sendHop g r.active (.sentB 0#20 0#20))
    |> forAll dropped (darnedTx g l r (popcount r.active) periods)
    |> reportCapacity g

/-- The notices of lanes that a report names though the transmitter has idled them go out again, for the period before the one that starts (R74; DESIGN CHOICE, note 117). -/
def renotice (g : GalIx) (ps : List Nat) (s : State) : State :=
  let x := (galAt s g).tx
  forAll ps (fun p => sendAny g (.idleNotice (BitVec.ofNat 10 (x.seq + 1023)) (srcOf g ++ BitVec.ofNat 3 p))) s

/-- The transmit side of a new report (R168, R170): the lanes named leave the active set, with fewer than 2 left every idle lane wakes (R79), and the stream goes out again from the reported point, after REPLAY in the restart period. The gallery is lost where fewer than 2 lanes strip or wake: with cause 0x3 where a REPLAY or REJOIN had still to go out, 0x2 otherwise (R180). While the lanes wait for the preamble of a stopped clock lane, no restart period is known, and a later report is answered (note 117). -/
def answerLoss (g : GalIx) (l : LossBlk) (s : State) : State :=
  let s := abandonStep g (((positions l.failed).head?).getD 0) s
  let G := galAt s g
  let was := txSet G.tx ||| G.tx.active
  let waits := G.tx.rejoining.isSome || G.tx.hopQueue.any fun e => isSlotted e.2
  let idled := (positions l.failed).filter fun p => isIdled G.lanes[laneOf p]
  let dropped := (positions (l.failed &&& was)).filter fun p => p ∉ idled
  let s := s |> dropLanes g l.failed |> startNext g
  let s := if popcount (txSet (galAt s g).tx) < 2 then wakeLanes g (healthy (galAt s g) l.failed) s else s
  let x := (galAt s g).tx
  if x.preamble ∧ txSet x = 0#8 then s
  else if popcount (txSet x) < 2 then loseGallery g (if waits then 0x3 else 0x2) s
  else s |> sendReplayOf g l dropped |> renotice g idled

/-- LOSS_RECEIVE (R166, R168). -/
def execLossReceive (t : Nat) (g : GalIx) (l : LossBlk) (s : State) : Answer :=
  effect t (hopRuns · g) (fun s =>
    let s := takeHop g (.loss l) s
    let x := (galAt s g).tx
    if (x.ts ≠ .active ∧ x.ts ≠ .guarding) ∨ x.lastReport = some l.reportId.toNat then s
    else
      let s := modTx g (fun x => { x with lastReport := some l.reportId.toNat }) s
      if reportFits x l then answerLoss g l s else countGal 0x425 g 0 s) s

/-- LOSS_REPORT_REPEAT (R166): the report goes out again until the REPLAY. -/
def execLossReportRepeat (t : Nat) (g : GalIx) (s : State) : Answer :=
  effect t (hopRuns · g) (fun s => doIf (galAt s g).rx.held (sendLoss g) s) s

/-- LOSS_REPORT_RETRY (R166): 4 us without the REPLAY. -/
def execLossReportRetry (t : Nat) (g : GalIx) (s : State) : Answer :=
  effect t (hopRuns · g) (fun s =>
    let r := (galAt s g).rx
    doIf (r.held && r.reportAt + 4000 ≤ s.now) (newLoss g) s) s

/-- REPLAY_RECEIVE (R169). -/
def execReplayReceive (t : Nat) (g : GalIx) (r : ReplayBlk) (s : State) : Answer :=
  effect t (hopRuns · g) (fun s => s |> takeHop g (.replay r) |> takeReplay g r |> walkOn g) s

/-- Whether a lane is darned and its next attempt is due (R174, R177, R178). -/
def attemptDue (now : Nat) (L : Lane) : Bool :=
  L.failed && !L.retired && !L.miswired && !L.rxIdle && match L.nextTry with
    | some n => decide (n ≤ now)
    | none => false

/-- REJOIN_ATTEMPT_START (R174, R177, R178): the lowest darned lane whose wait is over starts to relock; each lane waits by itself (DESIGN CHOICE, note 120). -/
def execRejoinAttemptStart (t : Nat) (g : GalIx) (s : State) : Answer :=
  effect t (hopRuns · g) (fun s =>
    let G := galAt s g
    match (List.range 8).find? fun p => attemptDue s.now G.lanes[physOf G p] with
    | some p =>
      if G.rx.ts = .active ∧ G.rx.attempt.step = 0 ∧ !G.rx.held ∧ G.rx.rejoin.isNone ∧ G.rx.stepTo.isNone then
        s |> modRx g (fun r => { r with attempt := { pos := p, step := 1, at_ := s.now } })
          |> modLane g (physOf G p) (fun L => { unlock L with nextTry := none, seam := 16 })
      else s
    | none => s) s

/-- REJOIN_ATTEMPT_LIMIT (R174, R177): the limit of the step an attempt is in expires. -/
def execRejoinAttemptLimit (t : Nat) (g : GalIx) (s : State) : Answer :=
  effect t (hopRuns · g) (fun s =>
    let G := galAt s g
    let a := G.rx.attempt
    let lim := match a.step with
      | 1 => 100000
      | 2 => equaliseMax (G.rx.tread.getD 0)
      | 3 => 1400000
      | _ => 100000
    doIf (G.rx.ts == .active && a.step != 0 && a.at_ + lim ≤ s.now) (failedRejoin g a.pos a.step) s) s

/-- LANE_CHECK_QUALIFY (R174, R175): QUAL counts down on that lane alone, in every slot from 256. -/
def execLaneCheckQualify (t : Nat) (g : GalIx) (pos : BitVec 3) (checkId : BitVec 16) (s : State) : Answer :=
  effect t (hopRuns · g) (fun s =>
    let s := takeHop g (.laneCheck pos 1#3 checkId) s
    let x := (galAt s g).tx
    if x.ts ≠ .active ∨ x.checkSeen = some checkId.toNat ∨ !(laneAt s g (laneOf pos.toNat)).txFailed then s
    else
      s |> modTx g (fun x => { x with checkSeen := some checkId.toNat, laneQual := some (pos.toNat, 256), prbsUntil := none })
        |> stopRep g (fun h => match h with
            | .eqAck p .. => p == pos
            | _ => false)
        |> emit (.hop g (bit8 pos.toNat) (.qual (BitVec.ofNat 3 (x.tread.getD 0).val) (BitVec.ofBool x.fec) 256#16))) s

/-- LANE_CHECK_READY (R176): REJOIN once the side-band shows the lane in lock. -/
def execLaneCheckReady (t : Nat) (g : GalIx) (pos : BitVec 3) (checkId : BitVec 16) (s : State) : Answer :=
  effect t (hopRuns · g) (fun s =>
    let s := takeHop g (.laneCheck pos 2#3 checkId) s
    let x := (galAt s g).tx
    if x.ts ≠ .active ∨ x.checkSeen = some checkId.toNat ∨ !(laneAt s g (laneOf pos.toNat)).txFailed then s
    else
      s |> modTx g (fun x => { x with checkSeen := some checkId.toNat, readyWait := some (pos.toNat, s.now) }) |> tryRejoin g) s

/-- LANE_CHECK_RETIRE (R177): the transmitting end retires the lane, which leaves the striping where it stood in it, and idles it. -/
def execLaneCheckRetire (t : Nat) (g : GalIx) (pos : BitVec 3) (checkId : BitVec 16) (s : State) : Answer :=
  effect t (hopRuns · g) (fun s =>
    let s := takeHop g (.laneCheck pos 3#3 checkId) s
    let G := galAt s g
    let p := pos.toNat
    let l := laneOf p
    if G.tx.ts ≠ .active ∨ G.lanes[l].retiredTx then s
    else
      let s := s
        |> modTx g (fun x => { x with checkSeen := some checkId.toNat, readyWait := if (x.readyWait.map (·.1)) = some p then none else x.readyWait
                                      laneQual := if (x.laneQual.map (·.1)) = some p then none else x.laneQual })
        |> modLane g l (fun L => { L with retiredTx := true, txFailed := false })
        |> raise 0x0204 (by8 g.val ++ by8 l.val ++ by8 1)
      if (txSet G.tx ||| G.tx.active).getLsbD p then idleEnter g (bit8 p) false s else driveOff g p s) s

/-- SIDEBAND_WAIT_EXPIRY (R176): 0.1 ms. -/
def execSidebandWaitExpiry (t : Nat) (g : GalIx) (s : State) : Answer :=
  effect t (hopRuns · g) (fun s =>
    match (galAt s g).tx.readyWait with
    | some (_, a) => doIf (a + 100000 ≤ s.now) (modTx g fun x => { x with readyWait := none }) s
    | none => s) s

/-- REJOIN_RECEIVE (R176). -/
def execRejoinReceive (t : Nat) (g : GalIx) (r : RejoinBlk) (s : State) : Answer :=
  effect t (hopRuns · g) (fun s => s |> takeHop g (.rejoin r) |> takeRejoin g r |> walkOn g) s

end Sys2Proof.Machine
end

