-- ==== Sys2Proof/Machine/CreditCmds.lean ====
section
/-! DEFINITION. Commands of the credits (R200 to R211). -/

namespace Sys2Proof.Machine

/-- Whether credit blocks that are received act: the hop engine runs, and the receive direction carries blocks, in striping or before it (R149, R208). -/
def creditsHeard (s : State) (g : GalIx) : Bool := hopRuns s g && takesHops (galAt s g).rx.ts

/-- Whether the transmit direction is in striping and so sends credit blocks by its own timers (R205, R206, R211). -/
def creditsRun (s : State) (g : GalIx) : Bool := hopRuns s g && (galAt s g).tx.ts == .active

/-- Take a received limit: it must advance by less than 2,048, modulo 4,096 (R204). -/
def takeLimit (g : GalIx) (k : Cls) (v : Nat) (s : State) : State :=
  let c := (galAt s g).ctx
  let d := modSub 4096 v (cget c.limit k)
  if d < 2048 then modGal g (fun G => { G with ctx := { G.ctx with limit := cset G.ctx.limit k v } }) s
  else countGal 0x438 g 0 s

/-- Take the demand bits of the far end: a class with its bit set turns busy (R203, R204). -/
def takeDemand (g : GalIx) (d : BitVec 4) (s : State) : State :=
  s |> forAll classes (fun k => modGal g fun G =>
        let on := d.getLsbD (clsNo k)
        { G with crx := { G.crx with demand := cset G.crx.demand k on
                                     busy := if on then cset G.crx.busy k true else G.crx.busy
                                     quietAt := if !on && cget G.crx.demand k then cset G.crx.quietAt k s.now else G.crx.quietAt } })
    |> updateLimits g

/-- CREDIT_A_RECEIVE (R204). -/
def execCreditAReceive (t : Nat) (g : GalIx) (px pm : BitVec 12) (demand : BitVec 4) (s : State) : Answer :=
  effect t (creditsHeard · g) (fun s => s
    |> takeHop g (.creditA px pm demand)
    |> takeLimit g .px px.toNat
    |> takeLimit g .pm pm.toNat
    |> takeDemand g demand) s

/-- CREDIT_B_RECEIVE (R204). -/
def execCreditBReceive (t : Nat) (g : GalIx) (np cp : BitVec 12) (demand : BitVec 4) (s : State) : Answer :=
  effect t (creditsHeard · g) (fun s => s
    |> takeHop g (.creditB np cp demand)
    |> takeLimit g .np np.toNat
    |> takeLimit g .cp cp.toNat
    |> takeDemand g demand) s

/-- INFO_RECEIVE (R204, R211): the far quota enters the credit term of the capacity. -/
def execInfoReceive (t : Nat) (g : GalIx) (quotaPx reachPx : BitVec 12) (s : State) : Answer :=
  effect t (creditsHeard · g) (fun s => s
    |> takeHop g (.info quotaPx reachPx)
    |> modGal g (fun G => { G with ctx := { G.ctx with farQuotaPx := quotaPx.toNat, farReachPx := reachPx.toNat } })
    |> reportAs true g) s

/-- PROBE_RECEIVE (R211): each new probe_id is answered with ECHO. -/
def execProbeReceive (t : Nat) (g : GalIx) (id : BitVec 8) (s : State) : Answer :=
  effect t (creditsHeard · g) (fun s =>
    let s := takeHop g (.probe id) s
    if (galAt s g).ctx.echoedId = some id.toNat then s
    else s |> modGal g (fun G => { G with ctx := { G.ctx with echoedId := some id.toNat } }) |> sendCredit g (.echo id)) s

/-- ECHO_RECEIVE (R211): the time since the PROBE, rounded up to 10 ns. -/
def execEchoReceive (t : Nat) (g : GalIx) (id : BitVec 8) (s : State) : Answer :=
  effect t (creditsHeard · g) (fun s =>
    let s := takeHop g (.echo id) s
    let c := (galAt s g).ctx
    match c.probeAt with
    | some a =>
      if id.toNat = c.probeId then
        s |> modGal g (fun G => { G with ctx := { G.ctx with probeAt := none, rtt := ceilDiv (s.now - a) 10 } }) |> reportAs true g
      else s
    | none => s) s

/-- SENT_A_RECEIVE (R206): the values act when the walk comes to the period that carried them. -/
def execSentAReceive (t : Nat) (g : GalIx) (px pm : BitVec 20) (s : State) : Answer :=
  effect t (creditsHeard · g) (takeSent g (.sentA px pm)) s

/-- SENT_B_RECEIVE (R206): the values act when the walk comes to the period that carried them. -/
def execSentBReceive (t : Nat) (g : GalIx) (np cp : BitVec 20) (s : State) : Answer :=
  effect t (creditsHeard · g) (takeSent g (.sentB np cp)) s

/-- CREDIT_PENDING_TIMEOUT (R205): 1 us since a limit of CREDIT_A or CREDIT_B advanced without the block being sent. -/
def execCreditPendingTimeout (t : Nat) (g : GalIx) (s : State) : Answer :=
  effect t (creditsRun · g) (fun s =>
    let c := (galAt s g).crx
    s |> doIf (c.advancedA.isSome && elapsed s.now 1000 c.advancedA) (sendCreditA g)
      |> doIf (c.advancedB.isSome && elapsed s.now 1000 c.advancedB) (sendCreditB g)) s

/-- CREDIT_REFRESH (R205): both blocks every 10 us. -/
def execCreditRefresh (t : Nat) (g : GalIx) (s : State) : Answer :=
  effect t (creditsRun · g) (fun s =>
    doIf (elapsed s.now 10000 (galAt s g).crx.refreshAt) (fun s => s
      |> advance g
      |> modGal g (fun G => { G with crx := { G.crx with refreshAt := some s.now } })
      |> sendCredits g) s) s

/-- SENT_PERIOD (R206): SENT_A and SENT_B every 100 us. -/
def execSentPeriod (t : Nat) (g : GalIx) (s : State) : Answer :=
  effect t (creditsRun · g) (fun s =>
    doIf (elapsed s.now 100000 (galAt s g).ctx.sentAt) (fun s => s
      |> modGal g (fun G => { G with ctx := { G.ctx with sentAt := some s.now } })
      |> sendSent g) s) s

/-- PROBE_PERIOD (R211): PROBE every 100 ms. -/
def execProbePeriod (t : Nat) (g : GalIx) (s : State) : Answer :=
  effect t (creditsRun · g) (fun s => doIf (elapsed s.now 100000000 (galAt s g).ctx.probedAt) (startProbe g) s) s

/-- CLASS_IDLE_TIMEOUT (R203): 20 us with no demand bit and nothing stored turn a message class idle. -/
def execClassIdleTimeout (t : Nat) (g : GalIx) (c : Cls) (s : State) : Answer :=
  effect t (hopRuns · g) (fun s =>
    let x := (galAt s g).crx
    if c ≠ .px ∧ !cget x.demand c ∧ cget x.stored c = 0 ∧ cget x.quietAt c + 20000 ≤ s.now then
      s |> modGal g (fun G => { G with crx := { G.crx with busy := cset G.crx.busy c false } }) |> updateLimits g
    else s) s

end Sys2Proof.Machine
end

