-- ==== Sys2Proof/Machine/Path.lean ====
section
/-! DEFINITION. The way of stream items from a bobbin to the egress queues: completions, the outputs of a parcel, the order of R192, expected positions, wholeness, and the straight link (R20, R42, R191 to R198, R212, R221, R243, R244, R306 to R315, R322). -/

namespace Sys2Proof.Machine

/-! ## Completions (R322, R323) -/

/-- Who waits for the completion of a request parcel that arrived by a port. -/
def askerOf (p : Parcel) (port : Nat) : Asker := { src := pSrc p, tag := pTag p, e2e := pE2e p, gallery := port }

/-- The gallery of a Hall port number, none for ports 8 and 9. -/
def galPort (n : Nat) : Option GalIx := if h : n < 8 then some ⟨n, h⟩ else none

/-- A completion parcel. -/
def completion (s : State) (a : Asker) (status off : Nat) (data : List Byte) : Parcel :=
  let body := leBytes 2 off ++ leBytes 2 data.length ++ padTo 4 data
  mkParcel (msgHdr .cp false 0x03 body.length a.src (ownNode s) a.tag (BitVec.ofNat 8 status) 0#12 false false a.e2e) body

/-- Send one completion; one for source 0x0000 leaves on the gallery its request came by (R311, R315). -/
def sendCompletion (a : Asker) (status off : Nat) (data : List Byte) (s : State) : State :=
  let p := completion s a status off data
  if a.src = 0#16 then
    match galPort a.gallery with
    | some g => if galActive s g then originate p [g] s else countDev 0x43B 0 s
    | none => (sendRouted p none s).1
  else (sendRouted p (galPort a.gallery) s).1

/-! ## Egress queues (R198) -/

/-- Depth of an egress queue in bytes. -/
def egressDepth : Cls → Nat
  | .px => 65536
  | .pm => 16384
  | .np => 8192
  | .cp => 8192

/-- Bytes that a parcel crossing the Hall still claims of an output's queue. -/
def claimedBy (s : State) (g : GalIx) (k : Cls) : Nat :=
  match s.hall.grants[g.val] with
  | some i =>
    match s.hall.ports[i].cur with
    | some x => if x.cls = k then itemLen x.item.item else 0
    | none => 0
  | none => 0

/-- Whether an egress queue has room for `n` more bytes. -/
def egressRoom (s : State) (g : GalIx) (k : Cls) (n : Nat) : Bool :=
  queueBytes (cget (galAt s g).egress k) + claimedBy s g k + n ≤ egressDepth k

/-! ## Order (R192, R193) -/

/-- Whether an item may leave its bobbin before what stands in the other class queues: an event that waits holds, and NP and CP never pass an earlier PM to an output they share. -/
def mayLeave (pm : List QItem) (k : Cls) (i : QItem) : Bool :=
  !i.waits && (k == .px || k == .pm || !(pm.any fun j => j.arrival < i.arrival && j.targets.any (· ∈ i.targets)))

/-- The head of a class queue of a gallery's bobbin, if it may leave. -/
def bobbinHead (s : State) (g : GalIx) (k : Cls) : Option QItem :=
  let B := (galAt s g).bobbin
  match cget B k with
  | i :: _ => if mayLeave B.pm k i then some i else none
  | [] => none

/-- The head of a bobbin queue leaves; its bytes return as credit (R197, R202). -/
def popBobbin (g : GalIx) (k : Cls) (s : State) : State :=
  match cget (galAt s g).bobbin k with
  | i :: r => s |> modGal g (fun G => { G with bobbin := cset G.bobbin k r }) |> doIf (i.bytes != 0) (creditFree g k i.bytes)
  | [] => s

/-- The open frame of a region on an ingress is not whole (R244). -/
def markBad (g : GalIx) (r : Nat) (s : State) : State :=
  match mget? (galAt s g).whole r with
  | some w => modGal g (fun G => { G with whole := mput G.whole r { w with ok := false } }) s
  | none => s

/-- A PX parcel ends poisoned (R191). -/
def poison (i : Item) : Item :=
  match i with
  | .parcel p => .parcel { p with poisoned := true }
  | i => i

/-- The region of a PX item. -/
def regionOfItem : Item → Nat
  | .parcel p => (pRegion p).toNat
  | .cut c => c.region.toNat
  | .gap b => b.region.toNat

/-- The ECC of a bobbin as a parcel is read out: errors are counted (R27). -/
def countEcc (g : GalIx) (ecc : Nat) (s : State) : State := s |> doIf (ecc == 1) (countGal 0x434 g 0) |> doIf (ecc == 2) (countGal 0x435 g 0)

/-- The head of a class queue crosses the straight link; with an uncorrectable error a PX parcel ends poisoned and a message is discarded (R27, R191). -/
def crossStraight (g : GalIx) (k : Cls) (i : QItem) (s : State) : State :=
  let bad := i.ecc == 2
  let it : QItem := { i with item := if bad then poison i.item else i.item, targets := [], bytes := 0, straight := false, ecc := 0 }
  s |> countEcc g i.ecc
    |> popBobbin g k
    |> (if bad && k != .px then id else pushEgress (pairOf g) k it)
    |> doIf (bad && k == .px) (markBad g (regionOfItem i.item))

/-- Move the head of a class queue over the straight link, where it goes that way, the pair flows and the queue has room (R20, R42). -/
def straightStep (g : GalIx) (k : Cls) (s : State) : State :=
  match bobbinHead s g k with
  | some i => if i.straight && pairFlows s g && egressRoom s (pairOf g) k (itemLen i.item) then crossStraight g k i s else s
  | none => s

/-- Move everything that can move over the straight link from a gallery. -/
def drainStraight (g : GalIx) (s : State) : State :=
  let B := (galAt s g).bobbin
  let n := B.px.length + B.pm.length + B.np.length + B.cp.length
  (List.range n).foldl (fun s _ => s |> straightStep g .px |> straightStep g .pm |> straightStep g .cp |> straightStep g .np) s

/-! ## Queueing -/

/-- The class queue an item stands in. -/
def itemCls : Item → Cls
  | .parcel p => pCls p
  | _ => .px

/-- Append an item to a bobbin. -/
def enqueue (g : GalIx) (i : Item) (targets next : List Nat) (straight : Bool) (bytes origin : Nat) (s : State) : State :=
  let n := s.hall.arrivalSeq
  let w := match i with
    | .parcel p => mustWait s p n
    | _ => false
  let it : QItem := { item := i, port := g.val, arrival := n, targets, next, bytes, straight, waits := w, origin }
  { s with hall := { s.hall with arrivalSeq := n + 1 } }
    |> modGal g (fun G => { G with bobbin := cset G.bobbin (itemCls i) (cget G.bobbin (itemCls i) ++ [it]) })

/-! ## The outputs of PX, cut marks and gaps (R221, R243) -/

/-- Where an item of a region goes: it is discarded, or it goes to outputs, and after port 8 to others. -/
inductive PxWay where
  | discard
  | go (targets next : List Nat) (straight : Bool)
  deriving DecidableEq, Repr

/-- The straight rule: over the straight link, or in PLACED across the Hall; the way to a gallery that is LOST or off is none (R20, R42, R215, R221). -/
def straightWay (s : State) (g : GalIx) : PxWay :=
  let h := pairOf g
  if (galAt s h).lost.isSome || (galAt s h).off then .discard else .go [h.val] [] (!isPlaced s)

/-- Whether a region that switched its input still waits for a cut mark of the other copy (R245). -/
def waitsInput (s : State) (r : Nat) : Bool := (mget? s.cutter.waitKey r).isSome

/-- The way of a region's items from a gallery under its entry. -/
def entryWay (s : State) (g : GalIx) (r : Nat) (e : Entry) : PxWay :=
  if !isPlaced s || !isNorth g || !inUse e then straightWay s g
  else if e.state = .dropped ∨ ingressOf e ≠ g.val ∨ waitsInput s r then .discard
  else
    let l := ((southOf e.egress).filter fun h => (galAt s h).lost.isNone).map (·.val)
    if l.isEmpty then .discard else if e.site = .here then .go [8] l false else .go l [] false

/-- Whether a region's items from a gallery have no way because every egress gallery of its entry is LOST (R215). -/
def egressLost (s : State) (g : GalIx) (r : Nat) (e : Entry) : Bool :=
  isPlaced s && isNorth g && e.state == .placed && ingressOf e == g.val && !waitsInput s r && (southOf e.egress).all fun h => (galAt s h).lost.isSome

/-- Read a region's entry where the device forwards by the table (R241, R243). -/
def wayOf (g : GalIx) (r : Nat) (s : State) : PxWay × State :=
  if isPlaced s && isNorth g then
    let q := readEntry r s
    (entryWay q.2 g r q.1, q.2)
  else (straightWay s g, s)

/-! ## Wholeness (R244) -/

/-- A cut mark closes the open frame and opens the next. -/
def closeFrame (g : GalIx) (r k : Nat) (s : State) : State :=
  let last := match mget? (galAt s g).whole r with
    | some w => w.ok && keyAfter (subsOf s r) w.key == k
    | none => false
  modGal g (fun G => { G with whole := mput G.whole r { ok := true, key := k, lastOk := last } }) s

/-- Whether the last frame that closed on a gallery was whole. -/
def lastWhole (s : State) (g : GalIx) (r : Nat) : Bool :=
  match mget? (galAt s g).whole r with
  | some w => w.lastOk
  | none => false

/-! ## Expected positions (R212) -/

/-- Set the expected position of a region. -/
def setExpect (g : GalIx) (r : Nat) (x : ExpPos) (s : State) : State := modGal g (fun G => { G with expect := mput G.expect r x }) s

/-- The gap to send before a good PX parcel. -/
def gapBefore (x : ExpPos) (p : Parcel) : Option (Nat × Nat) :=
  let beyond := x.line < pLine p || (x.line == pLine p && x.pixel < pPixel p)
  let first := max x.line x.named
  let last := pLine p + b2n (decide (pPixel p > 0))
  if !x.eof && beyond && first < last then some (first, last - first) else none

/-- The position after a PX parcel. -/
def afterPx (x : ExpPos) (p : Parcel) : ExpPos :=
  if pEol p then { x with line := pLine p + 1, pixel := 0 } else { x with line := pLine p, pixel := pPixel p + pPixels p }

/-- The position after a gap. -/
def afterGap (x : ExpPos) (first count : Nat) : ExpPos :=
  if count = 0 then { x with eof := true, named := 65536 } else { x with line := first + count, pixel := 0, named := max x.named (first + count) }

/-- Whether the position has reached the end of a frame of this size. -/
def atEnd (x : ExpPos) (a : AnnRec) : Bool := x.eof || a.height ≤ x.line || (x.line + 1 == a.height && a.width ≤ x.pixel)

/-- A gap originated here takes its place behind what the bobbin holds, on the outputs of its region; the open frame is then not whole (R212, R244). -/
def originGap (g : GalIx) (r : Nat) (w : PxWay) (first count : Nat) (s : State) : State :=
  let s := markBad g r s
  match w with
  | .discard => s
  | .go targets next straight => enqueue g (.gap (mkGap (BitVec.ofNat 12 r) 3 first count)) targets next straight 0 3 s

/-- Track a good PX parcel, with the gap it may show (R212). -/
def trackPx (g : GalIx) (w : PxWay) (p : Parcel) (s : State) : State :=
  let r := (pRegion p).toNat
  match mget? (galAt s g).expect r with
  | none => s
  | some x =>
    match gapBefore x p with
    | some (first, count) => s |> originGap g r w first count |> setExpect g r (afterPx (afterGap x first count) p)
    | none => setExpect g r (afterPx x p) s

/-- Track a cut mark: missing lines of the frame it closes, then line 0, pixel 0. -/
def trackCut (g : GalIx) (w : PxWay) (r : Nat) (s : State) : State :=
  let s := match mget? (galAt s g).expect r, recordOf s r with
    | some x, some a =>
      let first := max x.line x.named
      if !atEnd x a && first < a.height then originGap g r w first 0 s else s
    | _, _ => s
  setExpect g r { line := 0, pixel := 0, eof := false, named := 0 } s

/-- Track a gap block received. -/
def trackGap (g : GalIx) (b : Gap) (s : State) : State :=
  let r := b.region.toNat
  match mget? (galAt s g).expect r with
  | none => s
  | some x => setExpect g r (afterGap x b.firstLine.toNat b.lineCount.toNat) s

/-! ## The outputs of messages (R306 to R314) -/

/-- Where a message goes. -/
inductive MsgWay where
  /-- discarded without a route -/
  | unroutable (answer : Bool)
  /-- discarded as a bad message -/
  | bad
  /-- to outputs, perhaps with another destination -/
  | go (targets : List Nat) (straight : Bool) (p : Parcel)
  deriving DecidableEq, Repr

/-- Whether a parcel is an announcement or claim that follows R226 and R228: of the right kind for its side, broadcast or for this landing. -/
def isPlacementMsg (s : State) (g : GalIx) (p : Parcel) : Bool :=
  pCls p == .pm && (pDest p == 0xFFFF#16 || pDest p == 0#16 || pDest p == s.live.node) && pKind p == (if isNorth g then 0x05 else 0x06)

/-- The straight rule for a message. -/
def straightMsg (s : State) (g : GalIx) (p : Parcel) : MsgWay :=
  match straightWay s g with
  | .go l _ st => .go l st p
  | .discard => .unroutable false

/-- Where a message that arrived on a gallery goes; announcements and claims of R226 and R228 do not come here in PLACED. -/
def msgWay (s : State) (g : GalIx) (p : Parcel) : MsgWay :=
  if pSrc p = 0xFFFF#16 ∨ (pDest p = 0xFFFF#16 ∧ pCls p ≠ .pm) then .bad
  else if isPlacementMsg s g p && pDest p == 0xFFFF#16 then straightMsg s g p
  else match route s (pDest p) with
    | .here => .go [9] false p
    | .broadcast =>
      let here := pKind p != 0x08 && pKind p < 0x10
      let l := (broadcastGals s g).map (·.val) ++ (if here then [9] else [])
      if l.isEmpty then .unroutable false else .go l false p
    | .fwd gals spread nd =>
      let l := (fwdGals s gals spread (some g) (pCls p)).map (·.val)
      let p' := match nd with
        | some d => withDest p d
        | none => p
      if l.isEmpty then .unroutable (pCls p == .np) else .go l false p'
    | .straight => straightMsg s g p

end Sys2Proof.Machine
end

