-- ==== Sys2Proof/Machine/Store.lean ====
section
/-! DEFINITION. The correction store: directory, extents and their allocation, bytes, and the store request queue (R230, R257 to R266, R270 to R274). -/

namespace Sys2Proof.Machine

/-! ## Directory (R259, R265) -/

/-- Whether the correction engine runs: clocked, and so is the DRAM controller. -/
def engineOn (s : State) : Bool := gateOn s 18 && gateOn s 19

/-- The code of a correction state (R265). -/
def corrCode : CorrState → Nat
  | .none => 0
  | .clearing => 1
  | .empty => 2
  | .loaded => 3
  | .unserved => 4

/-- The code that `corr_state` reads. -/
def corrStateOf (d : DirRec) : Nat := if d.unserved then 4 else corrCode d.cstate

/-- The units of one bank. -/
def bankUnits (d : DirRec) : Nat := if d.dbuf then d.units / 2 else d.units

/-! ## Extents (R234, R236, R272) -/

/-- The mask of units of an extent. -/
def unitMask (base units : Nat) : Nat := (2 ^ units - 1) * 2 ^ base

/-- The units held by correction extents in force (R234). -/
def corrMask (s : State) : Nat := s.corr.dir.foldl (fun m e => m ||| unitMask e.2.base e.2.units) 0

/-- The units of a list of extents. -/
def extentsMask (l : List (Nat × Nat)) : Nat := l.foldl (fun m e => m ||| unitMask e.1 e.2) 0

/-- The safe-image extents (R272). -/
def safeExtents (s : State) : List (Nat × Nat) := (s.corr.dir.filter fun e => e.2.sUnits != 0).map fun e => (e.2.sBase, e.2.sUnits)

/-- The units held by correction extents in force and by safe images. -/
def heldMask (s : State) : Nat := corrMask s ||| extentsMask (safeExtents s)

/-- The units held by extents that wait for their entries. -/
def newMask (s : State) : Nat :=
  s.corr.dir.foldl (fun m e => match e.2.newExt with
    | some x => m ||| unitMask x.base x.units
    | none => m) 0

/-- The maximal runs of free units, as base and length. -/
def freeRuns (mask : Nat) : List (Nat × Nat) :=
  let r := (List.range 1024).foldl (fun (a : List (Nat × Nat) × Nat × Nat) u =>
    if mask.testBit u then (if a.2.2 = 0 then a.1 else a.1 ++ [(a.2.1, a.2.2)], 0, 0)
    else (a.1, if a.2.2 = 0 then u else a.2.1, a.2.2 + 1)) ([], 0, 0)
  if r.2.2 = 0 then r.1 else r.1 ++ [(r.2.1, r.2.2)]

/-- The smallest free extent that is large enough, the lowest base among equals. -/
def bestFit (mask need : Nat) : Option Nat :=
  let l := (freeRuns mask).filter fun e => need ≤ e.2
  match l with
  | [] => none
  | a :: r => some (r.foldl (fun b e => if e.2 < b.2 then e else b) a).1

/-- Units free in a mask. -/
def freeUnits (mask : Nat) : Nat := 1024 - ((List.range 1024).filter fun u => mask.testBit u).length

/-! ## Bytes (R257, R260, R264) -/

/-- The bypass record. -/
def bypassRecord : List Byte :=
  let b := leBytes 15 (2 ^ 116)
  b ++ [crc8 b]

/-- What a unit's unlisted byte reads as. -/
def background (f : Fill) (a : Nat) : Byte :=
  match f with
  | .zero => 0#8
  | .bypass => bypassRecord.getD (a % 16) 0#8

/-- The background of the unit of a store byte. -/
def fillAt (c : Correction) (a : Nat) : Fill := mget .zero c.fill (a / 65536)

/-- Read one store byte. -/
def storeByte (c : Correction) (a : Nat) : Byte :=
  match mget? c.cells a with
  | some b => b
  | none => background (fillAt c a) a

/-- Write one byte of the 64 MiB store (R257), keeping the canonical form: a byte equal to its background is not listed. -/
def putByte (a : Nat) (b : Byte) (c : Correction) : Correction :=
  if a < 67108864 then { c with cells := if b = background (fillAt c a) a then merase c.cells a else mput c.cells a b } else c

/-- Read store bytes. -/
def storeBytes (c : Correction) (a n : Nat) : List Byte := (List.range n).map fun k => storeByte c (a + k)

/-- Write store bytes. -/
def putBytes (a : Nat) (bs : List Byte) (c : Correction) : Correction :=
  ((List.range bs.length).zip bs).foldl (fun c e => putByte (a + e.1) e.2 c) c

/-- The canonical form of the store: rising addresses, none beyond the store, no byte equal to its background. -/
def Correction.wf (c : Correction) : Bool :=
  (c.cells.map (·.1)).Pairwise (· < ·) && c.cells.all fun e => e.1 < 67108864 && e.2 != background (fillAt c e.1) e.1

/-- Every unit of an extent gets a background; its listed bytes and errors go. -/
def fillExtent (base units : Nat) (f : Fill) (c : Correction) : Correction :=
  let within := fun a => base * 65536 ≤ a && a < (base + units) * 65536
  { c with cells := c.cells.filter fun e => !within e.1
           fill := (List.range units).foldl (fun m u => mset .zero m (base + u) f) c.fill
           eccBad := c.eccBad.filter fun w => !within (8 * w) }

/-- Copy records from one bank to the other (R266). -/
def copyBytes (src dst n : Nat) (c : Correction) : Correction :=
  let units := n / 65536
  let c1 := (List.range units).foldl (fun c u =>
    fillExtent (dst / 65536 + u) 1 (mget .zero c.fill (src / 65536 + u)) c) c
  let moved := c.cells.filter fun e => src ≤ e.1 && e.1 < src + n
  moved.foldl (fun c e => putByte (dst + (e.1 - src)) e.2 c) c1

/-! ## Errors (R260) -/

/-- The words, by number, that bytes touch. -/
def wordsOf (a n : Nat) : List Nat := if n = 0 then [] else (List.range ((a + n - 1) / 8 - a / 8 + 1)).map fun k => a / 8 + k

/-- Count bytes of store access at a priority 1 to 4 (R261, R275). -/
def storeUse (prio n : Nat) (s : State) : State :=
  let u := s.corr.use_
  let sec := s.now / 1000000000
  let u := if sec = u.second then u
    else { second := sec, bytes := [0, 0, 0, 0], last := if sec = u.second + 1 then u.bytes else [0, 0, 0, 0] }
  modCorr (fun c => { c with use_ := { u with bytes := u.bytes.set (prio - 1) (u.bytes.getD (prio - 1) 0 + n) } }) s

/-- The double-bit errors that a read meets are counted and reported, by reader (R260). -/
def readWords (reader : Nat) (ws : List Nat) (s : State) : State :=
  forAll (ws.filter (· ∈ s.corr.eccBad)) (fun w s => s |> countDev 0x606 0 |> raise 0x0505 (by32 (8 * w) ++ by8 reader)) s

/-- Words in which bit errors show: single ones are corrected and counted, double ones stay until they are written whole. -/
def noteErrors (single double : List Nat) (s : State) : State :=
  let new := (double.filter fun w => w < 8388608 && w ∉ s.corr.eccBad).eraseDups
  s |> countN 0x605 0 0 0 single.length |> modCorr (fun c => { c with eccBad := c.eccBad ++ new })

/-- Whether a read of bytes meets a double-bit error. -/
def badWord (s : State) (a n : Nat) : Bool := (wordsOf a n).any (· ∈ s.corr.eccBad)

/-! ## Writes (R262) -/

/-- A correction extent as writes find it: first unit, units, whether double-buffered, the active bank, and whether writes wait. -/
structure WriteHome where
  base : Nat
  units : Nat
  dbuf : Bool
  bank : Bool
  waits : Bool

/-- The correction extents of a directory record that take writes: the one in force, and one that a run assigned and whose entry is pending; none of an UNSERVED region (R262, R264). -/
def homesOf (d : DirRec) : List WriteHome :=
  if d.unserved then [] else
  let old := if d.cstate == .none then []
    else [{ base := d.base, units := d.units, dbuf := d.dbuf, bank := d.bank,
            waits := d.cstate == .clearing || d.catching || (d.dbuf && d.commitPending && d.drained) }]
  let new := match d.newExt with
    | some x => [{ base := x.base, units := x.units, dbuf := x.dbuf, bank := false, waits := !x.cleared }]
    | none => []
  old ++ new

/-- The correction extent that holds a unit. -/
def extentOwner (s : State) (u : Nat) : Option WriteHome :=
  (s.corr.dir.flatMap fun e => homesOf e.2).find? fun h => h.base ≤ u && u < h.base + h.units

/-- The region whose safe image holds a unit. -/
def safeOwner (s : State) (u : Nat) : Option (Nat × DirRec) :=
  s.corr.dir.find? fun e => e.2.sBase ≤ u && u < e.2.sBase + e.2.sUnits

/-- Whether a byte range lies in units `base` to `base + units`. -/
def inUnits (a n base units : Nat) : Bool := base * 65536 ≤ a && a + n ≤ (base + units) * 65536

/-- Why a store write is refused: 4 no extent, 5 misaligned, 6 bank in use; none where it is accepted (R262, R327). -/
def writeRefused (s : State) (a n : Nat) : Option Nat :=
  match extentOwner s (a / 65536) with
  | some d =>
    if !inUnits a n d.base d.units then some 4
    else if a % 16 ≠ 0 ∨ n % 16 ≠ 0 then some 5
    else
      let half := d.units / 2
      let act := d.base + if d.bank then half else 0
      if d.dbuf && !(a + n ≤ act * 65536 || (act + half) * 65536 ≤ a) then some 6 else none
  | none =>
    match safeOwner s (a / 65536) with
    | some (_, d) => if !inUnits a n d.sBase d.sUnits then some 4 else if a % 4 ≠ 0 ∨ n % 4 ≠ 0 then some 5 else none
    | none => some 4

/-- Where the mark of a region's commit, or of its safe image's, stands in the order of arrival, if it is in the store request queue (R266, R272). -/
def markOf (c : Correction) (safe : Bool) (r : Nat) : Option Nat :=
  c.queue.findSome? fun w => match w with
    | .commit n k => if n = r ∧ !safe then some k else none
    | .safeCommit n k => if n = r ∧ safe then some k else none
    | .write _ _ _ _ _ => none

/-- A mark leaves the store request queue. -/
def dropMark (safe : Bool) (r : Nat) (c : Correction) : Correction :=
  { c with queue := c.queue.filter fun w => match w with
    | .commit n _ => n != r || safe
    | .safeCommit n _ => n != r || !safe
    | .write _ _ _ _ _ => true }

/-- Whether a queued write waits: its extent is being cleared or copied, or a commit of its region stands before it and flips the banks (R264, R266). -/
def writeWaits (s : State) (a : Nat) : Bool :=
  match extentOwner s (a / 65536) with
  | some h => h.waits
  | none => false

/-- Perform an accepted write: the bytes, whole words of it cleared of errors, and a safe image back to ALLOCATED (R260, R272). -/
def storeWrite (a : Nat) (bs : List Byte) (s : State) : State :=
  let whole := (wordsOf a bs.length).filter fun w => a ≤ 8 * w && 8 * w + 8 ≤ a + bs.length
  let s := modCorr (fun c => { putBytes a bs c with eccBad := c.eccBad.filter (· ∉ whole) }) s
  let s := storeUse 3 bs.length s
  match safeOwner s (a / 65536) with
  | some (r, _) => modDir r (fun d => { d with sState := .allocated }) s
  | none => s

/-! ## Extents over time (R264, R274) -/

/-- A pending commit of a region is dropped (R274). -/
def dropCommit (r : Nat) (s : State) : State :=
  if (dirOf s r).commitPending then
    s |> modDir r (fun d => { d with commitPending := false, drained := false })
      |> raiseRegion 0x0503 (BitVec.ofNat 12 r) (by16 r)
  else s

/-- A run assigns an extent: reported, filled with bypass records, and being cleared until EXTENT_CLEARING_DONE (R264). -/
def assignExtent (r base units : Nat) (dbuf : Bool) (s : State) : State :=
  s |> modCorr (fillExtent base units .bypass)
    |> modDir r (fun d => { d with newExt := some { base, units, dbuf, cleared := false } })
    |> raiseRegion 0x0501 (BitVec.ofNat 12 r) (by16 r ++ by8 0 ++ by8 (b2n dbuf) ++ by16 base ++ by16 units)

/-- A region gives up its correction extent. -/
def freeExtent (r : Nat) (s : State) : State :=
  s |> dropCommit r
    |> modDir r (fun d => { d with base := 0, units := 0, dbuf := false, bank := false, cstate := .none, catching := false,
                                   commitBase := 0, newExt := none, leaving := false, unserved := false })

/-- Retained extents that the last run did not keep become free (R259). -/
def freeLeaving (s : State) : State := forAll ((s.corr.dir.filter fun e => e.2.leaving).map (·.1)) freeExtent s

/-- What an entry that takes effect does to its region's extent (R236, R264, R274). -/
def dirEffect (r : Nat) (e : Entry) (s : State) : State :=
  let d := dirOf s r
  match e.state with
  | .placed =>
    if e.site ≠ .here then freeExtent r s
    else match d.newExt with
      | some x =>
        s |> doIf (d.commitBase != x.base) (dropCommit r)
          |> modDir r (fun d => { d with base := x.base, units := x.units, dbuf := x.dbuf, bank := false, catching := false, newExt := none,
                                         unserved := false, cstate := if x.cleared then .empty else .clearing })
      | none => modDir r (fun d => { d with dbuf := e.dbuf, bank := d.bank && e.dbuf, unserved := false }) s
  | .empty => freeExtent r s
  | _ => modDir r (fun d => { d with newExt := none, unserved := false }) s

/-- Whether a region corrected here is served (R267). -/
def served (s : State) (r : Nat) (e : Entry) : Bool :=
  let d := dirOf s r
  let sub := mget [] s.corr.subst r
  let pipesUp := (positions e.pipes).all fun p => !(s.corr.pipes.toList.getD p {}).fenced || sub.any fun x => x.1 == p && x.2.isSome
  e.state == .placed && e.site == .here && d.cstate == .loaded && !d.unserved && pipesUp && !s.corr.storeLost && engineOn s

end Sys2Proof.Machine
end

