-- ==== Sys2Proof/Machine/Subst.lean ====
section
/-! DEFINITION. The safe-image reader: substitute frames of safe state and lock-out, and the safe frame of the drop action (R238, R269, R272, R288). -/

namespace Sys2Proof.Machine

/-! ## Its records -/

/-- The key of a reader record: region, gallery, and which of its two users asks. -/
def readerKey (r : Nat) (g : GalIx) (drop : Bool) : Nat := r * 16 + g.val + if drop then 8 else 0

/-- A reader record, if there is one. -/
def readerAt (s : State) (r : Nat) (g : GalIx) (drop : Bool) : Option SubstState := mget? s.corr.reader (readerKey r g drop)

/-- Set a reader record. -/
def putReader (r : Nat) (g : GalIx) (drop : Bool) (x : SubstState) (s : State) : State :=
  modCorr (fun c => { c with reader := mput c.reader (readerKey r g drop) x }) s

/-- Remove a reader record. -/
def dropReader (r : Nat) (g : GalIx) (drop : Bool) (s : State) : State :=
  modCorr (fun c => { c with reader := merase c.reader (readerKey r g drop) }) s

/-- Whether a frame of a reader is being sent. -/
def sendingFrame (x : Option SubstState) : Bool := (x.bind (·.pos)).isSome

/-! ## Where and how fast (R238, R288) -/

/-- The galleries on which a region's PX leave: `egress` and `drop_egress` of its entry, or the straight-rule galleries of where it arrives. -/
def leavesOn (s : State) (r : Nat) : List GalIx :=
  let e := entryOf s r
  if inUse e then southOf (e.egress ||| e.dropEgress)
  else allGals.filter fun g => (mget? (galAt s (pairOf g)).expect r).isSome || (mget? (galAt s g).lastCut r).isSome

/-- Whether a frame on a gallery is paced at the region's share: on `egress` of its entry. -/
def atShare (s : State) (r : Nat) (g : GalIx) (drop : Bool) : Bool :=
  let e := entryOf s r
  !drop && e.state == .placed && g ∈ southOf e.egress

/-- Whether the pacing lets a frame that began at `start` and has sent `bits_` send more by now. -/
def paced (s : State) (r : Nat) (g : GalIx) (drop : Bool) (start bits_ : Nat) : Bool :=
  let x := (galAt s g).tx
  if atShare s r g drop then bits_ * 10 ≤ (entryOf s r).share.toNat * (s.now - start)
  else bits_ * 100000 ≤ 2 * popcount x.active * payloadRate (x.tread.getD 0) x.fec * (s.now - start)

/-! ## Frames -/

/-- The image of a region is freed: a frame of it in progress continues in black from its next line (R379). -/
def endImage (r : Nat) (s : State) : State :=
  let black := fun (x : SubstState) => { x with blackFrom := x.blackFrom <|> x.pos.map fun p => if p.2 = 0 then p.1 else p.1 + 1 }
  modCorr (fun c => { c with reader := c.reader.map fun e => if e.1 / 16 = r then (e.1, black e.2) else e }) s

/-- The size of a frame, and whether it comes from the safe image; the second flag tells that an image of another size was passed over (R269, R288). Before the firmware has enabled the Cutter no announcement is held, and a valid image is sent at its own size (R37, R259; DESIGN CHOICE, note 124). -/
def frameOf (s : State) (r : Nat) (drop : Bool) : (Nat × Nat) × Bool × Bool :=
  let d := dirOf s r
  let black := !drop && (groupSet s r).substBlack
  let valid := d.sState == .valid && gateOn s 19 && !s.corr.storeLost && !s.corr.selfRefresh && !black
  match recordOf s r with
  | some a =>
    let fits := d.sW == a.width && d.sH == a.height
    ((a.width, a.height), valid && fits, valid && !fits)
  | none => if valid && !gateOn s 17 then ((d.sW, d.sH), true, false) else ((0, 0), false, false)

/-- The key that follows the last key sent for a region on a gallery, 0 where none was (R238, R288). -/
def nextKeySent (s : State) (r : Nat) (g : GalIx) : Nat :=
  match mget? (galAt s g).sentKey r with
  | some k => keyAfter (subsOf s r) k
  | none => 0

/-- The substituted cut mark of a frame. -/
def substCut (r key : Nat) : CutMark :=
  { region := BitVec.ofNat 12 r, uncorrected := false, substituted := true, frame := BitVec.ofNat 24 (key / 16), subframe := BitVec.ofNat 4 key }

/-- An item of the reader enters the output queue of port 8. -/
def pushReader (g : GalIx) (drop : Bool) (i : Item) (s : State) : State :=
  let n := s.hall.arrivalSeq
  { s with hall := { s.hall with arrivalSeq := n + 1 } }
    |> modCorr (fun c => { c with outQ := c.outQ ++ [{ item := i, port := 8, arrival := n, targets := [g.val], sub := !drop }] })

/-- Start a frame: its cut mark leaves, and its pixels follow at the pacing. -/
def startFrame (r : Nat) (g : GalIx) (drop : Bool) (key : Nat) (s : State) : State :=
  let f := frameOf s r drop
  let x := (readerAt s r g drop).getD { since := s.now, drop }
  let x := { x with cutKey := none, started := some s.now, pos := if f.1.1 = 0 ∨ f.1.2 = 0 then none else some (0, 0), width := f.1.1, height := f.1.2,
                    sentBits := 64, key, image := f.2.1, base := (dirOf s r).sBase, blackFrom := none, dropDone := drop }
  s |> putReader r g drop x
    |> pushReader g drop (.cut (substCut r key))
    |> modGal g (fun G => { G with sentKey := mput G.sentKey r key })
    |> doIf f.2.2 (countDev 0x609 0)
    |> doIf (!drop) (countDev 0x702 g.val)

/-- The safe-image bytes of pixels; values in a word with a double-bit error read 0 (R260). -/
def imageBytes (s : State) (base off n : Nat) : List Byte :=
  (List.range n).map fun k =>
    let a := base * 65536 + off + k
    if a / 8 ∈ s.corr.eccBad then 0#8 else storeByte s.corr a

/-- The next parcel of a frame being sent, of up to 682 pixels, where the pacing allows one (R269). -/
def nextFramePart (r : Nat) (g : GalIx) (drop : Bool) (s : State) : State :=
  match readerAt s r g drop with
  | none => s
  | some x =>
    match x.pos, x.started with
    | some (line, pix), some start =>
      if !paced s r g drop start x.sentBits then s
      else
        let n := min 682 (x.width - pix)
        let off := 6 * (line * x.width + pix)
        let img := x.image && (x.blackFrom.map fun b => decide (line < b)).getD true && gateOn s 19 && !s.corr.storeLost && !s.corr.selfRefresh
        let data := if img then imageBytes s x.base off (6 * n) else List.replicate (6 * n) 0#8
        let data := padTo 4 data
        let eol := pix + n ≥ x.width
        let hdr := pxHdr data.length (galAt s (flightSource s g)).flight (BitVec.ofNat 12 r) 0 line pix (x.key % 16) (x.key / 16) eol
        let pos := if !eol then some (line, pix + n) else if line + 1 < x.height then some (line + 1, 0) else none
        s |> doIf img (fun s => s |> readWords 2 (wordsOf (x.base * 65536 + off) (6 * n)) |> storeUse 2 (6 * n))
          |> putReader r g drop { x with pos, sentBits := x.sentBits + 8 * (data.length + 20) }
          |> pushReader g drop (.parcel (mkParcel hdr data))
    | _, _ => s

/-- The readers in the order they are served: descending region priority, then ascending region (R269). -/
def readerOrder (s : State) : List (Nat × GalIx × Bool) :=
  let l := (s.corr.reader.filter fun e => e.2.pos.isSome).map fun e => (e.1 / 16, galOf (e.1 % 16), decide (e.1 % 16 ≥ 8))
  (List.range 4).flatMap fun p => l.filter fun e => (entryOf s e.1).priority.toNat == 3 - p

/-- Each reader with room in its pacing puts its next parcel into the output queue of port 8. Substitution needs no firmware (R2, R303), so the reader serves whether or not the clock enable of the engine's island is set (DESIGN CHOICE, note 124). -/
def fillReaders (s : State) : State :=
  let s := forAll ((s.corr.reader.map fun e => e.1 / 16).eraseDups) audit s
  forAll (readerOrder s) (fun e => nextFramePart e.1 e.2.1 e.2.2) s

/-! ## The drop action (R238) -/

/-- A gallery enters the drop action of a region whose setting is safe image: the reader waits for its first cut mark, or starts at once where no ingress is ACTIVE. -/
def enterDrop (r : Nat) (g : GalIx) (noIngress : Bool) (s : State) : State :=
  let s := putReader r g true { since := s.now, drop := true } s
  if noIngress then startFrame r g true (nextKeySent s r g) s else s

/-- The drop action of a gallery at an incoming cut mark: the safe frame first where one is due, nothing while it is being sent, else the cut mark with its gap (R212, R238). The answer is whether the cut mark and gap go out. -/
def dropAt (r : Nat) (g : GalIx) (key : Nat) (s : State) : Bool × State :=
  match readerAt s r g true with
  | some x => if !x.dropDone then (false, startFrame r g true key s) else (x.pos.isNone, s)
  | none => (true, s)

/-! ## Safe state and lock-out (R288) -/

/-- Whether a substitute frame of a region may start on a gallery now. -/
def substDue (s : State) (r : Nat) (g : GalIx) : Bool :=
  let period := periodOf s r
  match readerAt s r g false with
  | some x =>
    x.pos.isNone && match x.started with
      | some a => x.cutKey.isSome || a + period ≤ s.now
      | none => x.cutKey.isSome || ((mget? (galAt s g).lastCut r).map fun a => decide (a + period ≤ s.now)).getD true
  | none => ((mget? (galAt s g).lastCut r).map fun a => decide (a + period ≤ s.now)).getD true

/-- When a substitute frame came due, for the count of late ones: a period after the one before it, or for the first at the cut mark noted since, or one period after the last cut mark before the entry, or at the entry (R269, R288). -/
def substDueAt (s : State) (r : Nat) (g : GalIx) : Nat :=
  match readerAt s r g false with
  | some x => (x.started.map (· + periodOf s r)).getD x.since
  | none => max (replacedSince s r) (((mget? (galAt s g).lastCut r).map (· + periodOf s r)).getD 0)

/-- An incoming cut mark of a replaced region is noted on its gallery: a frame may start at it. -/
def noteCut (r : Nat) (g : GalIx) (key : Nat) (s : State) : State :=
  let x := (readerAt s r g false).getD { since := s.now }
  s |> putReader r g false { x with cutKey := if x.pos.isNone then some key else x.cutKey }
    |> modGal g (fun G => { G with lastCut := mput G.lastCut r s.now })

end Sys2Proof.Machine
end

