-- ==== Sys2Proof/Machine/Announce.lean ====
section
/-! DEFINITION. Announcement and claim records on the wire, and the parcels of them that the device originates (R222, R223, R226 to R229, R268). -/

namespace Sys2Proof.Machine

/-! ## Payloads (R222, R223, R227) -/

/-- The record bytes of an announcement or claim payload, none where `count` disagrees with the length or the version is not 0x01. -/
def recordsOf (payload : List Byte) : Option (List (List Byte)) :=
  let n := byteAt payload 0
  if n = 0 ∨ byteAt payload 1 ≠ 1 ∨ payload.length ≠ 4 + 16 * n then none else some (chunks 16 (payload.drop 4))

/-- An announcement record: region, whether withdrawn, and its fields; none where a field lies outside its range. -/
def annOf (flight : BitVec 16) (now : Nat) (b : List Byte) : Option (Nat × Bool × AnnRec) :=
  let w := field b 0 2
  let f := bits w 13 12
  let a : AnnRec := { format := BitVec.ofNat 2 f, priority := BitVec.ofNat 2 (bits w 15 14), correct := bitOf (byteAt b 2) 1,
                      subframes := BitVec.ofNat 4 (byteAt b 3), frameRate := field b 4 4, width := field b 8 2, height := field b 10 2, flight, at_ := now }
  if f < 2 ∧ 1 ≤ a.frameRate ∧ a.frameRate ≤ 1000000 ∧ 1 ≤ a.width ∧ 1 ≤ a.height then some (bits w 11 0, bitOf (byteAt b 2) 0, a) else none

/-- The bytes of an announcement record. -/
def annBytes (r : Nat) (a : AnnRec) (correct withdraw : Bool) : List Byte :=
  leBytes 2 (r + a.format.toNat * 4096 + a.priority.toNat * 16384) ++ leBytes 1 (b2n withdraw + 2 * b2n correct) ++ leBytes 1 a.subframes.toNat ++
    leBytes 4 a.frameRate ++ leBytes 2 a.width ++ leBytes 2 a.height ++ List.replicate 4 0#8

/-- A claim record: its region and fields; none where its kind or site is reserved. -/
def claimOf (g : GalIx) (now : Nat) (b : List Byte) : Option (Nat × ClaimRec) :=
  let w := field b 0 2
  let c : ClaimRec := { claimant := BitVec.ofNat 64 (field b 4 8), gallery := g.val, kind := BitVec.ofNat 2 (bits w 13 12),
                        site := BitVec.ofNat 2 (bits w 15 14), siteLanding := BitVec.ofNat 4 (byteAt b 2), at_ := now }
  if bits w 13 12 < 2 ∧ bits w 15 14 ≠ 1 then some (bits w 11 0, c) else none

/-- A payload of records. -/
def recordPayload (l : List (List Byte)) : List Byte := [BitVec.ofNat 8 l.length, 1#8, 0#8, 0#8] ++ l.flatten

/-- A broadcast PM parcel of records. -/
def recordParcel (kind : Nat) (src : BitVec 16) (l : List (List Byte)) : Parcel :=
  let b := recordPayload l
  mkParcel (msgHdr .pm false kind b.length 0xFFFF#16 src 0#8 0#8 0#12 false false 0#32) b

/-! ## Announcements (R226, R268) -/

/-- The record of a region as sent on: `correct` is 0 while the region is served here (R268). -/
def annFor (s : State) (r : Nat) (a : AnnRec) (withdraw : Bool) : List Byte := annBytes r a (a.correct && !served s r (entryOf s r)) withdraw

/-- The regions announced on a South gallery: those whose entry names it, and that have a record. -/
def announcedOn (s : State) (g : GalIx) : List (Nat × AnnRec) :=
  (forcePlane s).filterMap fun e =>
    if inUse e.2 && g ∈ southOf (e.2.egress ||| e.2.dropEgress) then (recordOf s e.1).map fun a => (e.1, a) else none

/-- Send the announcements of a South gallery. -/
def originateAnn (g : GalIx) (s : State) : State :=
  let s := auditAll s
  forAll (chunks 255 (announcedOn s g)) (fun l s =>
    originate (recordParcel 0x05 (galAt s (flightSource s g)).flight (l.map fun e => annFor s e.1 e.2 false)) [g] s) s

/-- Send a region's record, or its withdrawal, on the South galleries that its entry names. -/
def announceRec (r : Nat) (a : AnnRec) (withdraw : Bool) (s : State) : State :=
  let s := audit r s
  let e := entryOf s r
  if isPlaced s && inUse e then
    forAll ((southOf (e.egress ||| e.dropEgress)).filter (galActive s)) (fun g s =>
      originate (recordParcel 0x05 (galAt s (flightSource s g)).flight [annFor s r a withdraw]) [g] s) s
  else s

/-- What a record says of its region, whoever sent it and whenever. -/
def sayOf (a : AnnRec) : AnnRec := { a with at_ := 0, flight := 0#16 }

/-- The galleries of a region hear of a change of its current record, the one of its input; and of its end, where a withdrawal rather than an expiry left none (R226). -/
def announceChange (r : Nat) (before : Option AnnRec) (withdrawn : Bool) (s : State) : State :=
  match before, recordOf s r with
  | some o, none => doIf withdrawn (announceRec r o true) s
  | o, some a => doIf (o.map sayOf != some (sayOf a)) (announceRec r a false) s
  | none, none => s

/-- A gallery newly named by an entry: the record enters its PM queue before the region's first cut mark; where the queue has no room, it waits at Hall port 9 (R198, R226). -/
def announceNew (r : Nat) (g : GalIx) (s : State) : State :=
  match recordOf s r with
  | some a =>
    let p := recordParcel 0x05 (galAt s (flightSource s g)).flight [annFor s r a false]
    let n := s.hall.arrivalSeq
    if egressRoom s g .pm (parcelLen p) then
      pushEgress g .pm { item := .parcel p, port := 9, arrival := n, targets := [] } { s with hall := { s.hall with arrivalSeq := n + 1 } }
    else originate p [g] s
  | none => s

/-! ## Claims (R228) -/

/-- The claim that this device sends for a region. -/
def ownClaim (s : State) (r : Nat) (e : Entry) : List Byte :=
  let site := match e.site with
    | .none => (0, 0)
    | .here => (2, ((galAt s (galOf e.ingressA.toNat)).landing).getD 0)
    | .landing n => (2, n.toNat)
    | .driver => (3, 0)
  leBytes 2 (r + site.1 * 16384) ++ [BitVec.ofNat 8 site.2, 0#8] ++ leBytes 8 s.otp.serial.toNat ++ List.replicate 4 0#8

/-- The regions this device claims: those with an entry in use and a claimant below. -/
def claimed (s : State) : List (Nat × Entry) := (forcePlane s).filter fun e => inUse e.2 && !(regionIn s e.1).claims.isEmpty

/-- Send claims of regions on every ACTIVE North gallery. -/
def originateClaims (l : List (Nat × Entry)) (s : State) : State :=
  forAll (chunks 255 l) (fun c s =>
    forAll ((allGals.take 4).filter (galActive s)) (fun g s => originate (recordParcel 0x06 (ownNode s) (c.map fun e => ownClaim s e.1 e.2)) [g] s) s) s

/-! ## Claimant groups (R229) -/

/-- The groups of a region in their order: the galleries of each claimant that are ACTIVE, with its first claim; the default group where no claim is current. -/
def groupsOf (claims : List ClaimRec) (active : BitVec 8) (ingressA : Nat) : List (List Nat × Option ClaimRec) :=
  if claims.isEmpty then [([ingressA + 4], none)]
  else
    let ids := (claims.map (·.claimant)).eraseDups
    let grp := fun (c : BitVec 64) => (List.range 8).filter fun g => active.getLsbD g && claims.any fun x => x.claimant == c && x.gallery == g
    let l := (ids.map fun c => (grp c, c)).filter fun e => !e.1.isEmpty
    let before := fun (a b : List Nat × BitVec 64) => a.1.headD 8 < b.1.headD 8 || (a.1.headD 8 == b.1.headD 8 && a.2.toNat < b.2.toNat)
    let sorted := l.foldl (fun acc x => (acc.filter fun y => before y x) ++ [x] ++ (acc.filter fun y => !before y x)) []
    sorted.map fun e => (e.1, claims.find? fun x => x.claimant == e.2)

end Sys2Proof.Machine
end

