-- ==== Sys2Proof/Machine/Placement.lean ====
section
/-! DEFINITION. The placement run, and an entry that takes effect (R230 to R247). -/

namespace Sys2Proof.Machine

/-! ## A run (R230 to R238) -/

/-- The rate of a record in units of 0.001 pixels a second. -/
def rateOf (a : AnnRec) : Nat := a.width * a.height * a.frameRate * (a.subframes.toNat + 1)

/-- The need of a region at `b` bits a pixel, in 0.1 Gb/s (R231). -/
def needUnits (a : AnnRec) (b : Nat) : Nat := ceilDiv (rateOf a * b * 4116) (4096 * 100000000000)

/-- Bits a pixel of a format. -/
def formatBits (a : AnnRec) : Nat := if a.format = 0#2 then 48 else 36

/-- Store units a record needs (R236). -/
def storeNeed (a : AnnRec) (dbuf : Bool) : Nat := ceilDiv (a.width * a.height) 4096 * if dbuf then 2 else 1

/-- The scale in which pipe rates stay whole: kpixel/s times 840 times 10^6. -/
def pipeScale : Nat := 840000000

/-- Pipes a record needs (R236). -/
def pipeCount (a : AnnRec) : Nat := ceilDiv (rateOf a) (248320 * 1000000)

/-- What a run keeps while it places regions: free units of S0 to S3, free scaled rate of the pipes, units in use, refusals counted, and its results, each with the pins it could not meet. -/
structure RunSt where
  freeS : List Nat
  pipes : List Nat
  mask : Nat
  refused : Nat := 0
  results : List (Nat × Entry × Bool × List Nat) := []
  deriving DecidableEq, Repr

/-- The lowest-indexed pipes that each have `share` free, `k` of them. -/
def pickPipes (pipes : List Nat) (k share : Nat) : Option (List Nat) :=
  let l := ((List.range 8).filter fun p => share ≤ pipes.getD p 0).take k
  if l.length = k then some l else none

/-- The pipes and extent of a correction here, if R236 finds room: the pipes, the share taken from each, the first unit and whether the extent is new. -/
def roomHere (i : RunInputs) (d : DirRec) (x : RunSt) (a : AnnRec) (dbuf : Bool) : Option (List Nat × Nat × Nat × Bool) :=
  let k := pipeCount a
  let units := storeNeed a dbuf
  let share := rateOf a * 840 / k
  if k > 8 ∨ !i.storeUp then none
  else match pickPipes x.pipes k share with
    | none => none
    | some ps =>
      if d.units = units ∧ d.units ≠ 0 then some (ps, share, d.base, false)
      else (bestFit x.mask units).map fun b => (ps, share, b, true)

/-- Any pin set (R232). -/
def isPinned (c : RegionSet) : Bool := c.egressPin.isSome || c.sitePin != .none || c.noMirror

/-- The site chosen for a region, what it takes here, whether a site pin is unmet, and whether a refusal is counted (R235). -/
def chooseSite (i : RunInputs) (d : DirRec) (x : RunSt) (c : RegionSet) (a : AnnRec) (dbuf : Bool) (ia : Nat) (claims : List (Option ClaimRec)) :
    Site × Option (List Nat × Nat × Nat × Bool) × Bool × Bool :=
  let room := if i.engine then roomHere i d x a dbuf else none
  match c.sitePin with
  | .nothing => (.none, none, false, false)
  | .landing n => (.landing n, none, false, false)
  | .driver => (.driver, none, false, false)
  | .here => if room.isSome then (.here, room, false, false) else (.none, none, true, false)
  | .none =>
    if !a.correct || !i.engine then (.none, none, false, false)
    else match (claims.filterMap id).find? fun k => k.site == 2#2 || k.site == 3#2 with
      | some k => (if k.site = 2#2 then .landing k.siteLanding else .driver, none, false, false)
      | none => if (i.landing.getD ia none).isSome && room.isSome then (.here, room, false, false) else (.none, none, false, true)

/-- The galleries of a region's groups: those that carry it, those that get the drop action, and the free units left (R234). -/
def placeGroups (need : Nat) (active : BitVec 8) (groups : List (List Nat)) (free : List Nat) : List Nat × List Nat × List Nat :=
  groups.foldl (fun (acc : List Nat × List Nat × List Nat) grp =>
    if grp.any (· ∈ acc.1) then acc
    else match grp.find? fun g => need ≤ acc.2.2.getD (g - 4) 0 with
      | some g => (acc.1 ++ [g], acc.2.1, acc.2.2.set (g - 4) (acc.2.2.getD (g - 4) 0 - need))
      | none =>
        match grp.find? fun g => active.getLsbD g with
        | some g => (acc.1, if g ∈ acc.2.1 then acc.2.1 else acc.2.1 ++ [g], acc.2.2)
        | none => acc) ([], [], free)

/-- Whether the ingress a region may take is ACTIVE (R234, R245). -/
def ingressUp (i : RunInputs) (c : RegionSet) (ia : Nat) (ib : Option Nat) : Bool :=
  let up := fun g => i.active.getLsbD g
  match ib with
  | none => up ia
  | some b => if c.selMode = 1#2 then up ia else if c.selMode = 2#2 then up b else up ia || up b

/-- The copy selected by a new entry: kept where the pair stays and the mode is automatic, else the forced one, or the lower ACTIVE one. -/
def selFor (i : RunInputs) (old : Entry) (c : RegionSet) (ia : Nat) (ib : Option Nat) : Bool :=
  match ib with
  | none => false
  | some b =>
    if c.selMode = 1#2 then false
    else if c.selMode = 2#2 then true
    else if inUse old && old.dual && old.ingressA.toNat == ia && old.ingressB.toNat == b then old.selNow
    else !(i.active.getLsbD ia)

/-- Place one region (R234 to R239). -/
def placeOne (i : RunInputs) (s : State) (x : RunSt) (r : Nat) (ia : Nat) (ib : Option Nat) (a : AnnRec) (epoch : Nat) : RunSt :=
  let c := mget {} i.set r
  let dbuf := mget false i.appMode r
  let d := dirOf s r
  let old := entryOf s r
  let claims := (mget {} i.regions r).claims
  let groups := groupsOf claims i.active ia
  let all := match c.egressPin with
    | some m => ((List.range 4).filter fun k => m.getLsbD k).map fun k => [k + 4]
    | none => groups.map (·.1)
  let kept := if c.noMirror then all.take 1 else all
  let up := ingressUp i c ia ib
  let site := chooseSite i d x c a dbuf ia (groups.map (·.2))
  let need := needUnits a (if site.1 = .here then 48 else formatBits a)
  let room := fun (g : Nat) => decide (need ≤ x.freeS.getD (g - 4) 0)
  let free0 := if up then x.freeS else [0, 0, 0, 0]
  let q := placeGroups need i.active kept free0
  let dropped := q.1.isEmpty
  let gone := (southOf old.egress).any fun g => !i.active.getLsbD g.val
  let taken := if dropped then none else site.2.1
  let ext := match taken with
    | some (_, _, b, _) => (b, storeNeed a dbuf, dbuf)
    | none => if dropped then (d.base, d.units, d.dbuf) else (0, 0, false)
  let pins := (if c.egressPin.isSome && kept.any (fun g => !g.all room) then [1] else []) ++ (if site.2.2.1 then [2] else []) ++
    (if c.noMirror && kept.any (fun g => !g.any room) && (all.drop 1).any (fun g => g.any room) then [3] else [])
  let e : Entry := {
    state := if dropped then .dropped else .placed, priority := a.priority, format := a.format, ingressA := BitVec.ofNat 2 ia,
    ingressB := BitVec.ofNat 2 (ib.getD 0), dual := ib.isSome, selMode := c.selMode, selNow := selFor i old c ia ib,
    egress := southMap q.1, dropEgress := southMap q.2.1, share := BitVec.ofNat 16 (min 65535 (if dropped then needUnits a (formatBits a) else need)),
    site := if dropped then .none else site.1,
    pipes := match taken with
      | some (ps, _, _, _) => bitmap ps
      | none => 0#8,
    storeBase := BitVec.ofNat 10 ext.1, storeUnits := BitVec.ofNat 11 ext.2.1, dbuf := ext.2.2, group := BitVec.ofNat 4 (mget 0 i.groupOf r),
    dropTo := c.dropTo, dropCause := gone && (dropped || !q.2.1.isEmpty), pinned := isPinned c, epoch := BitVec.ofNat 8 epoch }
  let pipes := match taken with
    | some (ps, share, _, _) => ps.foldl (fun l p => l.set p (l.getD p 0 - share)) x.pipes
    | none => x.pipes
  let fresh : Bool := match taken with
    | some (_, _, _, n) => n
    | none => false
  { x with freeS := if up then q.2.2 else x.freeS, pipes, mask := if fresh then x.mask ||| unitMask ext.1 ext.2.1 else x.mask,
           refused := x.refused + b2n site.2.2.2, results := x.results ++ [(r, e, fresh, pins)] }

/-- The order of placement: pinned, priority, need, region (R234). -/
def placeBefore (a b : Nat × Bool × AnnRec) : Bool :=
  let key := fun (x : Nat × Bool × AnnRec) => (b2n x.2.1, x.2.2.priority.toNat, needUnits x.2.2 (formatBits x.2.2))
  let x := key a
  let y := key b
  if x.1 ≠ y.1 then x.1 > y.1 else if x.2.1 ≠ y.2.1 then x.2.1 > y.2.1 else if x.2.2 ≠ y.2.2 then x.2.2 > y.2.2 else a.1 < b.1

/-- Insert a region in the order of placement. -/
def insertPlace (a : Nat × Bool × AnnRec) : List (Nat × Bool × AnnRec) → List (Nat × Bool × AnnRec)
  | [] => [a]
  | b :: r => if placeBefore a b then a :: b :: r else b :: insertPlace a r

/-- The announced regions of frozen inputs in the order of placement. -/
def placeOrder (i : RunInputs) : List (Nat × Bool × AnnRec) :=
  (i.regions.filterMap fun e => (inputOf e.2).map fun x => (e.1, isPinned (mget {} i.set e.1), x.2.2)).foldr insertPlace []

/-- The run itself, on frozen inputs and the extents held (R234). -/
def runOn (i : RunInputs) (s : State) (epoch : Nat) : RunSt :=
  let start : RunSt := {
    freeS := i.caps,
    pipes := (List.range 8).map fun p => if i.engine && !i.pipeDown.getLsbD p then 248320 * pipeScale else 0,
    mask := corrMask s ||| extentsMask i.safeHeld }
  (placeOrder i).foldl (fun x e =>
    match inputOf (mget {} i.regions e.1) with
    | some (ia, ib, a) => placeOne i s x e.1 ia ib a epoch
    | none => x) start

/-- The inputs of a run, frozen (R233). -/
def freezeInputs (s : State) : RunInputs :=
  { regions := s.cutter.regions, set := s.live.regions, appMode := s.live.appMode, groupOf := s.safety.record.groupOf,
    caps := (allGals.drop 4).map fun g => if galActive s g then (galAt s g).capTx else 0,
    active := bitmap ((allGals.filter (galActive s)).map (·.val)),
    landing := (allGals.take 4).map fun g => (galAt s g).landing,
    pipeDown := bitmap ((List.range 8).filter fun p => (s.corr.pipes.toList.getD p {}).fenced),
    engine := engineOn s, storeUp := !s.corr.storeLost, safeHeld := safeExtents s }

/-- BOOT_MODE straight-only (R41). -/
def straightOnly (s : State) : Bool := s.power.sampled.bootMode.getLsbD 1

/-- Whether the Cutter makes runs at all (R41, R241, R246, R450). -/
def mayRun (s : State) : Bool :=
  let wait := match s.power.cutterHold with
    | some _ => !allGals.all fun g => !s.power.heldGalleries.getLsbD g.val || galActive s g
    | none => false
  active s && gateOn s 17 && s.cutter.enabled && s.live.cutMode != .off && !s.cutter.tableLost && !wait && s.power.entry.isNone && !straightOnly s

/-- Start a run, or note one more while a run is in progress (R233). -/
def startRun (s : State) : State :=
  if !mayRun s then s
  else if s.cutter.running.isSome then { s with cutter := { s.cutter with again := true } }
  else { s with cutter := { s.cutter with running := some (freezeInputs s), discard := false } }

/-- Whether a forced trigger of R233 holds: an egress or ingress gallery of an entry is not ACTIVE, or a capacity is below the shares placed on it. -/
def forcedHolds (s : State) : Bool :=
  let f := forcePlane s
  f.any (fun e => inUse e.2 && ((southOf e.2.egress).any (fun g => !galActive s g) || !galActive s (galOf e.2.ingressA.toNat) ||
      (e.2.dual && !galActive s (galOf e.2.ingressB.toNat)))) ||
    (allGals.drop 4).any fun g => (galAt s g).capTx < (f.map fun e => if inUse e.2 && g ∈ southOf e.2.egress then e.2.share.toNat else 0).foldl (· + ·) 0

/-! ## The end of a run (R242) -/

/-- Two entries as a run compares them: the live fields, the epoch and the check do not count. -/
def sameEntry (a b : Entry) : Bool :=
  let z := fun (e : Entry) => { e with selNow := e.selNow && e.selMode != 0#2, bank := false, epoch := 0#8, check := 0#8 }
  z a == z b

/-- Write the result of a run for one region: removed where it equals what is in force, kept where it equals what is pending, else written; an extent new in this run is assigned. -/
def writeResult (r : Nat) (e : Entry) (fresh : Bool) (pins : List Nat) (s : State) : State :=
  let d := dirOf s r
  let same := match d.newExt with
    | some x => x.base == e.storeBase.toNat && x.units == e.storeUnits.toNat && x.dbuf == e.dbuf
    | none => false
  let s := if fresh && !same then assignExtent r e.storeBase.toNat e.storeUnits.toNat e.dbuf s
    else if !fresh then modDir r (fun d => { d with newExt := none }) s
    else s
  if sameEntry e (entryOf s r) && !fresh then putPend r none s
  else if (match mget? (pendPlane s) r with
    | some x => sameEntry e x.e
    | none => false) then s
  else s |> putPend r (some { e, at_ := s.now })
    |> forAll pins (fun p s => s |> countDev 0x50B 0 |> raiseRegion 0x0405 (BitVec.ofNat 12 r) (by16 r ++ by8 p))

/-- The pending EMPTY entry of a region that is no longer announced; it takes effect at a cut mark of the input that the entry in force selects. -/
def emptyEntry (e : Entry) : Entry := { ingressA := e.ingressA, ingressB := e.ingressB, dual := e.dual, selMode := e.selMode, selNow := e.selNow }

/-- An entry in force whose region is no longer announced gets a pending EMPTY entry, unless it has one (R242). -/
def writeEmptyOne (r : Nat) (s : State) : State :=
  let e := emptyEntry (entryOf s r)
  let same := match mget? (pendPlane s) r with
    | some x => sameEntry e x.e
    | none => false
  if same then s else putPend r (some { e, at_ := s.now }) s

/-- A region that is no longer announced and has no entry in force: a pending entry and the extent assigned to it go; an extent kept over a reset is free at once, or with the entries of this run (R242, R259). -/
def writeGone (r : Nat) (s : State) : State :=
  let s := s |> putPend r none |> modDir r (fun d => { d with newExt := none })
  if (dirOf s r).units = 0 then s
  else if (pendPlane s).isEmpty then freeExtent r s
  else modDir r (fun d => { d with leaving := true }) s

/-- Regions no longer announced: an entry in force becomes EMPTY, and an extent without an entry is free (R242, R259). -/
def writeEmpty (done : List Nat) (s : State) : State :=
  let gone := fun (r : Nat) => decide (r ∉ done)
  let s := forAll ((forceRegions s).filter gone) writeEmptyOne s
  let rest := ((pendPlane s).map (·.1) ++ s.corr.dir.map (·.1)).eraseDups.filter fun r => gone r && (mget? (forcePlane s) r).isNone
  forAll rest writeGone s

/-- A fenced copy is rebuilt from the other; it rejoins when an entry of this run takes effect (R28, R241). -/
def rebuildCopies (epoch : Nat) (s : State) : State :=
  let c := s.cutter
  let a := if c.copyA.fenced then { c.copyB with fenced := true, rejoin := some epoch } else c.copyA
  let b := if c.copyB.fenced then { c.copyA with fenced := true, rejoin := some epoch } else c.copyB
  { s with cutter := { c with copyA := a, copyB := b } }

/-- Start the run that a trigger asked for meanwhile (R233). -/
def runAgain (s : State) : State :=
  if s.cutter.again then startRun { s with cutter := { s.cutter with again := false } } else s

/-- The end of a run: counted, its entries written to the pending plane of both copies, what is left free noted, and `cutter.committed` raised where entries are pending (R242, R248, R249). -/
def endRun (i : RunInputs) (s : State) : State :=
  let s := countDev 0x501 0 { s with cutter := { s.cutter with running := none } }
  let s := forAll (s.corr.dir.map (·.1)) (fun r => modDir r fun d => { d with leaving := false }) s
  let epoch := ctrAt s 0x501 0 0 0 % 256
  let x := runOn i s epoch
  let s := { s with cutter := { s.cutter with freeS := x.freeS, freePipe := x.pipes.map (· / pipeScale), freeStore := if i.storeUp then freeUnits x.mask else 0 } }
  let s := countN 0x50A 0 0 0 x.refused s
  let s := forAll x.results (fun e => writeResult e.1 e.2.1 e.2.2.1 e.2.2.2) s
  let s := writeEmpty (x.results.map (·.1)) s
  let s := rebuildCopies epoch s
  let p := pendPlane s
  s |> doIf (!p.isEmpty) (raise 0x0401 (by8 epoch ++ by8 0 ++ by16 p.length ++ by16 (p.filter fun e => e.2.e.state == .dropped).length))
    |> runAgain

/-! ## An entry takes effect (R242, R247) -/

/-- The galleries that carry a region under an entry. -/
def carriers (e : Entry) : List GalIx := if inUse e then southOf (e.egress ||| e.dropEgress) else []

/-- Fenced copies that were rebuilt rejoin the comparison (R28). -/
def rejoinCopies (s : State) : State :=
  let f := fun (p : CopyPlane) => if p.fenced && p.rejoin.isSome then { p with fenced := false, rejoin := none } else p
  { s with cutter := { s.cutter with copyA := f s.cutter.copyA, copyB := f s.cutter.copyB } }

/-- LANDING goes out on South galleries whose flight a new entry changed, 16 times (R130, R131). -/
def passChanged (before : List GalIx) (s : State) : State :=
  forAll (((allGals.drop 4).zip before).filter fun e => flightSource s e.1 != e.2 && galActive s e.1) (fun e s =>
    sendRep e.1 .all 1024 (some 15) (.landing (ownLanding s e.1)) s) s

/-- Whether a copy that an entry may take has an ACTIVE ingress (R238, R245). -/
def entryUp (s : State) (e : Entry) : Bool :=
  let a := galActive s (galOf e.ingressA.toNat)
  let b := galActive s (galOf e.ingressB.toNat)
  if !e.dual then a else if e.selMode = 1#2 then a else if e.selMode = 2#2 then b else a || b

/-- Whether items of a region that arrived before a point are at port 8, or in a bobbin on their way there. -/
def olderAtPort8 (s : State) (r first : Nat) : Bool :=
  let old := fun (i : QItem) => regionOfItem i.item == r && decide (i.arrival < first)
  s.corr.inQ.any old || allGals.any fun g => (galAt s g).bobbin.px.any fun i => decide (8 ∈ i.targets) && old i

/-- What a region corrected here had stays for its items that have arrived already and have not passed port 8 (R242). -/
def keepPrev (r : Nat) (s : State) : State :=
  let old := entryOf s r
  let n := s.hall.arrivalSeq
  if old.state = .placed ∧ old.site = .here ∧ olderAtPort8 s r n then
    let p : PrevEntry := { first := n, entry := old, dir := { dirOf s r with commitPending := false, drained := false }, subst := mget [] s.corr.subst r }
    modCorr (fun c => { c with prev := mput c.prev r (mget [] c.prev r ++ [p]) }) s
  else s

/-- A new entry that selects the other copy of the same pair is a switch, reported with the first cut mark forwarded (R245, R249; DESIGN CHOICE, note 126: a forced `sel_mode` counts like a switch of its own). -/
def noteForced (r : Nat) (s : State) : State :=
  let s := countDev 0x504 0 s
  { s with cutter := { s.cutter with switched := if r ∈ s.cutter.switched then s.cutter.switched else s.cutter.switched ++ [r] } }

/-- A pending entry takes effect; one that names a gallery that is not ACTIVE is removed instead (R242, R247). -/
def applyEntry (r : Nat) (pe : PendEntry) (s : State) : State :=
  let s := s |> audit r |> putPend r none
  let named := carriers pe.e
  if named.any fun g => !galActive s g then modDir r (fun d => { d with newExt := none }) s
  else
    let old := entryOf s r
    let placed0 := isPlaced s
    let flights := (allGals.drop 4).map (flightSource s)
    let samePair := inUse old && inUse pe.e && old.dual == pe.e.dual && old.ingressA == pe.e.ingressA && (!old.dual || old.ingressB == pe.e.ingressB)
    let sel := if samePair && pe.e.selMode == 0#2 then old.selNow else pe.e.selNow
    let e := if pe.e.state = .empty then {} else { pe.e with selNow := sel, bank := (dirOf s r).bank && pe.e.dbuf && (dirOf s r).newExt.isNone }
    let dropped := e.state == .dropped
    let stays := if inUse e then named else [pairOf (galOf (ingressOf old))]
    let s := s
      |> keepPrev r
      |> putForce r e
      |> rejoinCopies
      |> countDev 0x502 0
      |> dirEffect r e
      |> freeLeaving
      |> fun s => { s with corr := { s.corr with subst := merase s.corr.subst r } }
      |> doIf (!samePair || sel != old.selNow) (fun s => { s with cutter := { s.cutter with waitKey := merase s.cutter.waitKey r } })
      |> doIf (samePair && old.dual && sel != old.selNow) (noteForced r)
    let s := forAll ((carriers old).filter fun g => g ∉ stays) (fun g s => s |> resetMons r g |> dropReader r g true) s
    let new := named.filter fun g => g ∉ carriers old || !placed0
    let s := forAll new (announceNew r) s
    let noIn := !entryUp s e
    let s := if e.dropTo then
        forAll ((southOf e.dropEgress).filter fun g => inUse old = false ∨ g ∉ southOf old.dropEgress) (fun g => enterDrop r g noIn) s
      else s
    s |> doIf dropped (fun s => s |> countDev 0x503 0 |> raiseRegion 0x0402 (BitVec.ofNat 12 r) (by16 r ++ by8 (b2n e.dropCause) ++ by8 (b2n e.dropTo)))
      |> doIf (old.state == .dropped && !dropped) (raiseRegion 0x0403 (BitVec.ofNat 12 r) (by16 r ++ by8 e.egress.toNat))
      |> doIf (inUse e && !(regionIn s r).claims.isEmpty) (originateClaims [(r, e)])
      |> passChanged flights

/-- A change of mode to OFF: the pending plane is discarded, and every entry in use gets a pending STRAIGHT entry (R246). -/
def modeOff (s : State) : State :=
  let s := s |> discardPending |> auditAll
  let s := { s with cutter := { s.cutter with discard := s.cutter.running.isSome, again := false } }
  forAll ((forcePlane s).filter fun e => inUse e.2) (fun e s =>
    putPend e.1 (some { e := { ingressA := e.2.ingressA, ingressB := e.2.ingressB, dual := e.2.dual, selMode := e.2.selMode, selNow := e.2.selNow,
                               state := .straight, priority := e.2.priority, format := e.2.format, group := e.2.group, epoch := e.2.epoch },
                        at_ := s.now }) s) s

end Sys2Proof.Machine
end

