-- ==== Sys2Proof/Machine/Monitors.lean ====
section
/-! DEFINITION. The region monitors of a transmit island: what it emits, measured before substitution (R278 to R285). -/

namespace Sys2Proof.Machine

/-! ## Pixels (R186, R252, R283) -/

/-- A 12-bit value widened to 16 bits by bit replication (R252). -/
def widen12 (v : Nat) : Nat := v * 16 + v / 256

/-- The pixels of an RGB48 payload. -/
def pixels48 (b : List Byte) : List (Nat × Nat × Nat) :=
  (List.range (b.length / 6)).map fun i => (field b (6 * i) 2, field b (6 * i + 2) 2, field b (6 * i + 4) 2)

/-- The pixels of an RGB36 payload, widened. -/
def pixels36 (b : List Byte) : List (Nat × Nat × Nat) :=
  (List.range (b.length * 2 / 9)).map fun i =>
    let v := field b (9 * i / 2) 5 / (if i % 2 = 0 then 1 else 16)
    (widen12 (v % 4096), widen12 (v / 4096 % 4096), widen12 (v / 16777216 % 4096))

/-- The pixels of a PX parcel as RGB48 values; none where its kind or format is reserved, which has no effect (R10). -/
def pixelsOf (p : Parcel) : List (Nat × Nat × Nat) :=
  if !pxKnown p then [] else if pFormat p = 0 then pixels48 p.payload else pixels36 p.payload

/-- The luminance of a pixel (R283). -/
def luma (p : Nat × Nat × Nat) : Nat := (54 * p.1 + 183 * p.2.1 + 19 * p.2.2 + 128) / 256

/-! ## Frames (R281 to R284) -/

/-- The drive ceiling at the close of a frame: the average of the means of the last second, those of frames that had one; with none the verdict holds (R284). -/
def checkDrive (r : Nat) (g : GalIx) (s : State) : State :=
  let recent := (monAt s r g).recent
  let sum := (recent.map (·.2)).foldl (· + ·) 0
  if recent.isEmpty then s else if sum > par1 s r 4 * recent.length then tripMon 4 r g s else clearMon 4 r g s

/-- The mean of a frame that closes: a step against the mean before it of the same sub-frame, and its place in the last second (R283, R284). -/
def closeMean (r : Nat) (g : GalIx) (mean : Nat) (s : State) : State :=
  let m := monAt s r g
  let stepped := match mget? m.means m.sub with
    | some o => decide ((if mean > o then mean - o else o - mean) > par1 s r 3)
    | none => false
  let steps := (if stepped then [s.now] else []) ++ (m.steps.filter fun a => s.now < a + 1000000000)
  let tooMany := steps.length > par2 s r 3
  let until_ := if tooMany then some ((steps.getD (par2 s r 3) s.now) + 1000000000) else m.overAt
  s |> modMon r g (fun m => { m with means := mput m.means m.sub mean, steps, overAt := until_, recent := m.recent ++ [(s.now, mean)] })
    |> doIf tooMany (tripMon 3 r g)

/-- A frame closes: its losses against the threshold, its mean, if it emitted a pixel, against the mean before it, and the average of the last second against the ceiling. -/
def closeMon (r : Nat) (g : GalIx) (s : State) : State :=
  let m := monAt s r g
  if !m.open_ then s
  else
    s |> (if m.losses > par1 s r 2 then tripMon 2 r g else clearMon 2 r g)
      |> modMon r g (fun m => { m with recent := m.recent.filter fun e => s.now < e.1 + 1000000000 })
      |> doIf (m.pixels != 0) (closeMean r g (m.sumY / m.pixels))
      |> checkDrive r g

/-- A cut mark is emitted: the frame before it closes, a new one opens, and an advancing key restarts freshness. -/
def measureCut (r : Nat) (g : GalIx) (key : Nat) (s : State) : State :=
  let m := monAt s r g
  let adv := match m.key with
    | some k => keyLater key k
    | none => true
  s |> closeMon r g
    |> modMon r g (fun m => { m with open_ := true, losses := 0, sumY := 0, pixels := 0, sub := key % 16,
                                     key := if adv then some key else m.key, freshAt := if adv then some s.now else m.freshAt })
    |> doIf adv (clearMon 1 r g)

/-- A PX parcel is emitted. -/
def measurePx (r : Nat) (g : GalIx) (p : Parcel) (s : State) : State :=
  let px := pixelsOf p
  modMon r g (fun m => { m with losses := m.losses + b2n p.poisoned, sumY := m.sumY + (px.map luma).foldl (· + ·) 0, pixels := m.pixels + px.length }) s

/-- An item of a region is emitted. -/
def measure (g : GalIx) (i : Item) (s : State) : State :=
  match i with
  | .cut c => measureCut c.region.toNat g (cutKeyOf c) s
  | .gap b => if b.reason = 3#4 then modMon b.region.toNat g (fun m => { m with losses := m.losses + 1 }) s else s
  | .parcel p => if pCls p = .px then measurePx (pRegion p).toNat g p s else s

/-- An announcement parcel is emitted: a withdrawn region disarms its freshness monitor on that gallery (R281). -/
def measureAnn (g : GalIx) (p : Parcel) (s : State) : State :=
  if pCls p = .pm ∧ pKind p = 0x05 then
    forAll ((recordsOf p.payload).getD []) (fun b s =>
      match annOf (pSrc p) s.now b with
      | some (r, true, _) => if (mget? s.safety.mon (monKey r g)).isSome then modMon r g (fun m => { m with freshAt := none }) s else s
      | _ => s) s
  else s

end Sys2Proof.Machine
end

