-- ==== Sys2Proof/Machine/Hall.lean ====
section
/-! DEFINITION. What arrives on a gallery, the Hall, and what a transmit island sends (R151 to R156, R183 to R199, R201, R207, R212, R213, R242 to R245, R278, R288). -/

namespace Sys2Proof.Machine

/-! ## Arrival -/

/-- Take an item from what the walk has delivered, if it is there. -/
def takeItem (g : GalIx) (i : Item) (s : State) : State := modRx g (fun r => { r with arrived := r.arrived.erase (.item i) }) s

/-- Whether a receive direction delivers stream items. -/
def rxRuns (s : State) (g : GalIx) : Bool := hopRuns s g && (galAt s g).rx.ts == .active

/-- A stored item is discarded at once: its bytes come and go as credit (R197). -/
def storeDiscard (g : GalIx) (k : Cls) (n : Nat) (s : State) : State := s |> creditStore g k n |> creditFree g k n

/-- A PX parcel is forwarded or discarded under its entry; `n` is how many bytes of credit it holds (R221, R243). -/
def forwardPx (g : GalIx) (w : PxWay) (e : Entry) (p : Parcel) (n : Nat) (s : State) : State :=
  let byTable := isPlaced s && isNorth g && inUse e
  let s := s
    |> doIf (isPlaced s && !byTable) (countDev 0x506 0)
    |> doIf (byTable && e.dual && isIngress e g && (ingressOf e != g.val || waitsInput s (pRegion p).toNat)) (countDev 0x505 g.val)
  match w with
  | .go targets next straight => s |> doIf (n != 0) (creditStore g .px n) |> enqueue g (.parcel p) targets next straight n 0
  | .discard => s |> doIf (n != 0) (storeDiscard g .px n) |> doIf (!byTable || egressLost s g (pRegion p).toNat e) (countDev 0x43B 0)

/-- Whether a PX parcel goes to the engine, which takes it however it ends (R191, R252). -/
def goesHere (w : PxWay) : Bool :=
  match w with
  | .go [8] _ _ => true
  | _ => false

/-- A bad PX parcel that had begun to leave, or that goes to the engine, ends poisoned; its place in the frame counts as taken, so no gap stands for it here (R191, R212). -/
def endPoisoned (g : GalIx) (w : PxWay) (e : Entry) (p : Parcel) (s : State) : State :=
  let r := (pRegion p).toNat
  let s := match mget? (galAt s g).expect r with
    | some x => doIf (pxKnown p) (setExpect g r (afterPx x { p with payload := fit (pLength p) p.payload })) s
    | none => s
  forwardPx g w e { p with poisoned := true } 0 s

/-- A PX parcel has arrived (R190, R191, R207, R212, R252). One that fails its CRC after its forwarding had begun counts in `gallery.crc_discards` like one that is discarded (DESIGN CHOICE, note 121). -/
def receivePx (g : GalIx) (p : Parcel) (begun : Bool) (s : State) : State :=
  let r := (pRegion p).toNat
  let q := wayOf g r s
  let e := entryOf q.2 r
  let s := q.2
  if p.poisoned || !crcOk p then
    s |> (if p.poisoned then countGal 0x432 g 0 else countGal 0x431 g 0)
      |> markBad g r
      |> doIf (begun || goesHere q.1) (endPoisoned g q.1 e p)
  else s |> doIf (pxKnown p) (trackPx g q.1 p) |> forwardPx g q.1 e p (parcelLen p)

/-- A PX parcel has broken off after its header, which R100 has counted as a CRC failure: what had begun to leave, or goes to the engine, ends poisoned (R191, R218). -/
def receiveBroken (g : GalIx) (p : Parcel) (begun : Bool) (s : State) : State :=
  let r := (pRegion p).toNat
  let q := wayOf g r s
  q.2 |> markBad g r |> doIf (begun || goesHere q.1) (endPoisoned g q.1 (entryOf q.2 r) p)

/-- Queue a message by its way (R311 to R315). -/
def forwardMsg (g : GalIx) (w : MsgWay) (p : Parcel) (s : State) : State :=
  let k := pCls p
  let n := parcelLen p
  match w with
  | .go targets straight p' => s |> creditStore g k n |> enqueue g (.parcel p') targets [] straight n 0
  | .bad => s |> storeDiscard g k n |> countDev 0x802 0
  | .unroutable answer => s |> storeDiscard g k n |> countDev 0x43B 0 |> doIf answer (sendCompletion (askerOf p g.val) 0x09 0 [])

/-- A copy of a message that the Cutter or the safety monitors read (R226, R228, R285). -/
def copyIn (g : GalIx) (p : Parcel) (s : State) : State := modGal g (fun G => { G with toCutter := G.toCutter ++ [p] }) s

/-- A message parcel has arrived whole and good. -/
def receiveMsg (g : GalIx) (p : Parcel) (s : State) : State :=
  let s := doIf (!isNorth g && pCls p == .pm && pKind p == 0x07) (copyIn g p) s
  if isPlacementMsg s g p then
    let s := doIf (gateOn s 17) (copyIn g p) s
    if isPlaced s then storeDiscard g .pm (parcelLen p) s else forwardMsg g (msgWay s g p) p s
  else forwardMsg g (msgWay s g p) p s

/-- An upset that the lookups of a parcel meet: a routing entry counts as invalid until it is written again (R316); the check byte of a table entry no longer holds (R241). -/
def strike (x : Option Upset) (s : State) : State :=
  match x with
  | none | some (.bobbin _) => s
  | some (.route n) =>
    if n < 2048 ∧ n ∉ s.hall.routeBad then countDev 0x806 0 { s with hall := { s.hall with routeBad := n :: s.hall.routeBad } } else s
  | some (.entry copyB r flip) =>
    let w := fun (p : CopyPlane) => { p with inForce := mmod {} p.inForce r fun e => { e with check := e.check ^^^ flip } }
    if r < 4096 then
      { s with cutter := if copyB then { s.cutter with copyB := w s.cutter.copyB } else { s.cutter with copyA := w s.cutter.copyA } }
    else s

/-- What the read of an item's bobbin words will meet. -/
def eccOf (x : Option Upset) : Nat :=
  match x with
  | some (.bobbin hard) => if hard then 2 else 1
  | _ => 0

/-- Mark the item that has just entered a class queue, if one has since a count of arrivals, with what the read of its words will meet. -/
def markEcc (g : GalIx) (k : Cls) (ecc seq : Nat) (s : State) : State :=
  doIf (ecc != 0 && s.hall.arrivalSeq > seq) (modGal g fun G =>
    { G with bobbin := cset G.bobbin k ((cget G.bobbin k).map fun i => if i.arrival + 1 = s.hall.arrivalSeq ∧ i.bytes > 0 then { i with ecc := ecc } else i) }) s

/-- What becomes of a parcel as it arrives (R100, R190, R191, R207). -/
def takeParcel (g : GalIx) (p : Parcel) (begun : Bool) (s : State) : State :=
  let k := pCls p
  if RxItem.broken p ∈ (galAt s g).rx.arrived then
    s |> modRx g (fun r => { r with arrived := r.arrived.erase (.broken p) }) |> receiveBroken g p begun
  else
    let s := takeItem g (.parcel p) s
    if roomFor (galAt s g).crx k < parcelLen p then s |> countGal 0x436 g 0 |> doIf (k == .px) (markBad g (pRegion p).toNat)
    else if k = .px then receivePx g p begun s
    else if p.poisoned then countGal 0x432 g 0 s
    else if !crcOk p then countGal 0x431 g (clsNo k) s
    else receiveMsg g p s

/-- PARCEL_RECEIVE (R191, R207): a parcel has arrived whole, or a PX parcel has broken off. `begun` tells whether its forwarding had begun when it ended, and `upset` an error of the tables that its lookups meet, or of the bobbin words that hold it. -/
def execParcelReceive (t : Nat) (g : GalIx) (p : Parcel) (begun : Bool) (upset : Option Upset) (s : State) : Answer :=
  effect t (rxRuns · g) (fun s =>
    let n := s.hall.arrivalSeq
    s |> strike upset |> takeParcel g p begun |> markEcc g (pCls p) (eccOf upset) n |> drainStraight g) s

/-! ## Cut marks and gaps (R213, R242 to R245) -/

/-- The selected copy is judged at its cut mark: the device switches where the frame it closes is not whole and the other's last frame was (R245). -/
def judgeCopy (g : GalIx) (r : Nat) (s : State) : State :=
  let e := entryOf s r
  let other := galOf (if e.selNow then e.ingressA.toNat else e.ingressB.toNat)
  if inUse e && e.dual && e.selMode == 0#2 && ingressOf e == g.val && !waitsInput s r && (mget? s.cutter.lastKey r).isSome &&
      !lastWhole s g r && lastWhole s other r && galActive s other then switchInput r s else s

/-- After a switch, the first later cut mark of the other copy is forwarded, and reported; after a new entry that selects the other copy, its first one (R245, R249). -/
def takeSwitch (g : GalIx) (r key : Nat) (s : State) : State :=
  let e := entryOf s r
  let waited : Bool := match mget? s.cutter.waitKey r with
    | some k => keyLater key k
    | none => decide (r ∈ s.cutter.switched)
  if inUse e && ingressOf e == g.val && waited then
    raiseRegion 0x0404 (BitVec.ofNat 12 r) (by16 r ++ by8 (b2n e.selNow) ++ by8 0 ++ by32 key)
      { s with cutter := { s.cutter with waitKey := merase s.cutter.waitKey r, switched := s.cutter.switched.erase r } }
  else s

/-- The drop action of an entry at a cut mark of the copy it takes: on each gallery of `drop_egress` the cut mark and its gap, or the safe frame (R238, R239). -/
def dropGalleries (g : GalIx) (r : Nat) (e : Entry) (c : CutMark) (s : State) : State :=
  forAll ((southOf e.dropEgress).filter fun h => (galAt s h).lost.isNone) (fun h s =>
    let q := if e.dropTo then dropAt r h (cutKeyOf c) s else (true, s)
    if q.1 then
      q.2 |> enqueue g (.cut c) [h.val] [] false 0 0
        |> enqueue g (.gap (mkGap c.region (if e.dropCause then 2 else 1) 0 0)) [h.val] [] false 0 (if e.dropCause then 2 else 1)
    else q.2) s

/-- A cut mark is forwarded under the entry now in force. -/
def forwardCut (g : GalIx) (c : CutMark) (s : State) : State :=
  let r := c.region.toNat
  let q := wayOf g r s
  let s := q.2
  let e := entryOf s r
  let taken := isPlaced s && isNorth g && inUse e && ingressOf e == g.val && !waitsInput s r
  let s := doIf taken (fun s => { s with cutter := { s.cutter with lastKey := mput s.cutter.lastKey r (cutKeyOf c), selCutAt := mput s.cutter.selCutAt r s.now } }) s
  let s := match q.1 with
    | .go targets next straight => s |> creditStore g .px 8 |> enqueue g (.cut c) targets next straight 8 0
    | .discard => storeDiscard g .px 8 s
  doIf taken (dropGalleries g r e c) s

/-- CUT_MARK_RECEIVE (R212, R242, R244, R245): missing lines of the frame it closes are named, a pending entry of this ingress takes effect, the copy is judged, and the cut mark goes by the entry then in force. -/
def execCutMarkReceive (t : Nat) (g : GalIx) (c : CutMark) (s : State) : Answer :=
  effect t (rxRuns · g) (fun s =>
    let r := c.region.toNat
    let s := takeItem g (.cut c) s
    let q := wayOf g r s
    let s := q.2 |> trackCut g q.1 r |> closeFrame g r (cutKeyOf c)
    let s := match mget? (pendPlane s) r with
      | some pe => doIf (isNorth g && ingressOf pe.e == g.val) (applyEntry r pe) s
      | none => s
    s |> judgeCopy g r |> takeSwitch g r (cutKeyOf c) |> forwardCut g c |> drainStraight g) s

/-- GAP_RECEIVE (R212, R213, R244). -/
def execGapReceive (t : Nat) (g : GalIx) (b : Gap) (s : State) : Answer :=
  effect t (rxRuns · g) (fun s =>
    let r := b.region.toNat
    let s := takeItem g (.gap b) s
    let q := wayOf g r s
    let s := q.2 |> markBad g r |> trackGap g b
    let s := match q.1 with
      | .go targets next straight => s |> creditStore g .px 8 |> enqueue g (.gap b) targets next straight 8 0
      | .discard => storeDiscard g .px 8 s
    drainStraight g s) s

/-! ## The Hall (R194 to R197) -/

/-- The queue of a Hall input for a class. With the Hall lost, the substitute frames of safe state alone still reach the egress queues (R27, R286; DESIGN CHOICE, note 125). -/
def inputQueue (s : State) (i : Fin 10) (k : Cls) : List QItem :=
  match galPort i.val with
  | some g => cget (galAt s g).bobbin k
  | none => (if i.val = 8 then s.corr.outQ else s.hall.mgmtOut).filter fun x => itemCls x.item == k && (x.sub || !s.hall.lost)

/-- The head of a Hall input's class queue that may cross: not one of the straight link, and not one that waits. -/
def inputHead (s : State) (i : Fin 10) (k : Cls) : Option QItem :=
  match inputQueue s i k with
  | x :: _ => if !x.straight && mayLeave (inputQueue s i .pm) k x then some x else none
  | [] => none

/-- Whether an item is a posted write (R326). -/
def postedWrite (i : Item) : Bool :=
  match i with
  | .parcel p => pCls p == .pm && pKind p == 0x02
  | _ => false

/-- Whether an output has room for an item (R196, R198). A posted write waits in its bobbin, and holds its credits, while 256 are outstanding or on their way into the bridge (R261, R326). -/
def outRoom (s : State) (o : Nat) (k : Cls) (i : Item) : Bool :=
  match galPort o with
  | some g => (galAt s g).lost.isNone && queueBytes (cget (galAt s g).egress k) + itemLen i ≤ egressDepth k
  | none => o != 9 || !postedWrite i || s.bridge.posted.length + (s.hall.mgmtIn.filter fun e => postedWrite (.parcel e.2.2)).length < 256

/-- Whether an input has a cell for an output, with room there. -/
def wants (s : State) (o : Nat) (i : Fin 10) : Bool :=
  match s.hall.ports[i].cur with
  | some x => o ∈ x.todo && outRoom s o x.cls x.item.item
  | none => classes.any fun k =>
      match inputHead s i k with
      | some x => o ∈ x.targets && outRoom s o k x.item
      | none => false

/-- The input whose turn an output's round robin gives (R196). -/
def turnOf (s : State) (o : Fin 10) : Option (Fin 10) :=
  ((List.finRange 10).map fun k => (⟨(s.hall.rr[o] + k.val) % 10, Nat.mod_lt _ (by decide)⟩ : Fin 10)).find? (wants s o.val)

/-- Change a Hall input port. -/
def modPort (i : Fin 10) (f : PortState → PortState) (s : State) : State :=
  { s with hall := { s.hall with ports := s.hall.ports.set i.val (f s.hall.ports[i]) i.isLt } }

/-- Set or release an output's grant. -/
def setGrant (o : Fin 10) (v : Option (Fin 10)) (s : State) : State :=
  { s with hall := { s.hall with grants := s.hall.grants.set o.val v o.isLt } }

/-- Whether a kind may be delivered to this landing in its class (R308). -/
def deliverable (p : Parcel) : Bool :=
  match pKind p with
  | 1 => pCls p == .np
  | 2 => pCls p == .pm || pCls p == .np
  | 3 => pCls p == .cp
  | n => 4 ≤ n && n ≤ 7 && pCls p == .pm

/-- A message is delivered to this landing: into the port 9 queue for the bridge; one whose kind or class is not for it is discarded, and an NP answered BAD_REQUEST (R308, R310). Announcements, claims and driver faults have been read by the Cutter and the monitors on their arrival. -/
def deliver (port arrival : Nat) (p : Parcel) (s : State) : State :=
  if !deliverable p then s |> countDev 0x802 0 |> doIf (pCls p == .np) (sendCompletion (askerOf p port) 3 0 [])
  else if pKind p ≤ 4 then intoMgmt port arrival p s
  else s

/-- A whole parcel has reached an output: an egress queue, port 8, or port 9. -/
def arriveAt (o : Fin 10) (x : HallXfer) (s : State) : State :=
  match galPort o.val with
  | some g => pushEgress g x.cls { x.item with targets := [], bytes := 0, straight := false, waits := false, ecc := 0 } s
  | none =>
    if o.val = 8 then modCorr (fun c => { c with inQ := c.inQ ++ [{ x.item with bytes := 0, ecc := 0 }] }) s
    else match x.item.item with
      | .parcel p => deliver x.item.port x.item.arrival p s
      | _ => s

/-- The parcel of an input leaves its queue; its bytes return as credit (R197). -/
def leaveInput (i : Fin 10) (x : HallXfer) (s : State) : State :=
  let s := modPort i (fun _ => { cur := none }) s
  match galPort i.val with
  | some g => popBobbin g x.cls s
  | none =>
    let same := fun (y : QItem) => y.arrival == x.item.arrival
    if i.val = 8 then modCorr (fun c => { c with outQ := c.outQ.eraseP same }) s
    else { s with hall := { s.hall with mgmtOut := s.hall.mgmtOut.eraseP same } }

/-- The current cell of an input crosses to one output that grants it (R195, R196). -/
def crossTo (i : Fin 10) (o : Fin 10) (s : State) : State :=
  match s.hall.ports[i].cur with
  | none => s
  | some x =>
    let mine := s.hall.grants[o] == some i || (s.hall.grants[o].isNone && turnOf s o == some i)
    if mine && o.val ∈ x.todo then
      let last := x.cells = 1
      let s := modPort i (fun p => { p with cur := some { x with todo := x.todo.filter (· ≠ o.val) } }) s
      if last then s |> setGrant o none |> (fun s => { s with hall := { s.hall with rr := s.hall.rr.set o.val ((i.val + 1) % 10) o.isLt } }) |> arriveAt o x
      else s |> setGrant o (some i) |> fun s => { s with hall := { s.hall with rr := s.hall.rr.set o.val ((i.val + 1) % 10) o.isLt } }
    else s

/-- An uncorrectable bobbin error: a PX parcel ends poisoned, a message is discarded (R27, R191). -/
def eccBad (i : Fin 10) (s : State) : State :=
  match s.hall.ports[i].cur with
  | none => s
  | some x =>
    if x.cls = .px then
      s |> (match galPort x.item.port with
          | some g => markBad g (regionOfItem x.item.item)
          | none => id)
        |> modPort i (fun q => { q with cur := some { x with item := { x.item with item := poison x.item.item } } })
    else s |> forAll ((List.finRange 10).filter fun o => s.hall.grants[o] == some i) (fun o => setGrant o none) |> leaveInput i x

/-- An input without a parcel crossing takes up the head of a class queue; with what the read of its words meets. -/
def presentCell (i : Fin 10) (k : Cls) (s : State) : Nat × State :=
  match s.hall.ports[i].cur with
  | some _ => (0, s)
  | none =>
    match inputHead s i k with
    | some x => (x.ecc, modPort i (fun _ => { cur := some { item := x, cls := k, cells := ceilDiv (itemLen x.item) 128, outs := x.targets, todo := x.targets } }) s)
    | none => (0, s)

/-- A cell that has reached all its outputs makes room for the next one; after the last one the parcel leaves its queue (R195, R197). -/
def nextCell (i : Fin 10) (s : State) : State :=
  match s.hall.ports[i].cur with
  | some x =>
    if x.todo.isEmpty then
      if x.cells ≤ 1 then leaveInput i x s else modPort i (fun _ => { cur := some { x with cells := x.cells - 1, todo := x.outs } }) s
    else s
  | none => s

/-- HALL_CELL_TRANSFER (R195, R196): an input presents its next cell of a class, to the outputs it has not reached and that grant it. `met` is what its reads met: those of the bobbin, and for port 8 the safe-image reads of the store (R191, R260). -/
def execHallCellTransfer (t : Nat) (input : Fin 10) (cls : Cls) (met : ReadErrs) (s : State) : Answer :=
  effect t (fun s => active s && gateOn s 16 && (!s.hall.lost || input.val == 8)) (fun s =>
    let s := doIf (input.val == 8) (fun s => s |> noteErrors met.single met.double |> fillReaders) s
    let q := presentCell input cls s
    let e := max met.cell.val q.1
    let s := match galPort input.val with
      | some g => q.2 |> countEcc g e |> doIf (e == 2) (eccBad input)
      | none => q.2
    s |> forAll (List.finRange 10) (crossTo input) |> nextCell input) s

/-- EVENT_RELEASE (R193): an event that waited at a Hall input leaves once what it waited for has left. -/
def execEventRelease (t : Nat) (port : Fin 10) (s : State) : Answer :=
  effect t active (fun s =>
    let free := fun (i : QItem) => match i.item with
      | .parcel p => { i with waits := i.waits && mustWait s p i.arrival }
      | _ => i
    match galPort port.val with
    | some g => s |> modGal g (fun G => { G with bobbin := { G.bobbin with pm := G.bobbin.pm.map free } }) |> drainStraight g
    | none => if port.val = 9 then { s with hall := { s.hall with mgmtOut := s.hall.mgmtOut.map free } } else s) s

/-! ## The transmit island (R199, R201, R278, R288) -/

/-- Whether a region's own items wait for its next cut mark on a gallery (R36, R288). -/
def muted (s : State) (g : GalIx) (r : Nat) : Bool :=
  let G := galAt s g
  r ∈ G.mute || (G.muteAll && r ∉ G.unmuted)

/-- Whether an own item of a region is a cut mark. -/
def isCut : Item → Bool
  | .cut _ => true
  | _ => false

/-- Whether the head of the PX queue is discarded: replaced, or waiting for a cut mark after a replacement. -/
def discards (s : State) (g : GalIx) (i : QItem) : Bool :=
  let r := regionOfItem i.item
  !i.sub && (replaced s r || (if isCut i.item then sendingFrame (readerAt s r g false) else muted s g r))

/-- An item is discarded before it is sent; a cut mark of a replaced region lets a substitute frame start. -/
def discardItem (g : GalIx) (i : QItem) (s : State) : State :=
  match i.item with
  | .cut c => doIf (replaced s c.region.toNat) (noteCut c.region.toNat g (cutKeyOf c)) s
  | _ => s

/-- An own cut mark is sent: the region's PX pass again, and its key is the last one sent (R36, R288). -/
def passCut (g : GalIx) (sub : Bool) (c : CutMark) (s : State) : State :=
  let r := c.region.toNat
  let s := modGal g (fun G => { G with sentKey := mput G.sentKey r (cutKeyOf c) }) s
  if sub then s
  else s
    |> modGal g (fun G => { G with mute := G.mute.filter (· ≠ r), unmuted := if G.muteAll && r ∉ G.unmuted then G.unmuted ++ [r] else G.unmuted,
                                   lastCut := mput G.lastCut r s.now })
    |> dropReader r g false

/-- Send an item: its blocks go out, its bytes count as sent with the last of them (R206), and what it carries is noted. -/
def sendItem (g : GalIx) (i : QItem) (s : State) : State :=
  let s := s |> emit (.item g i.item) |> sendStream g (itemBlks i.item) (creditSend g (itemCls i.item) (itemLen i.item))
  match i.item with
  | .cut c => passCut g i.sub c s
  | .gap b => doIf (i.origin != 0) (countGal 0x439 g b.reason.toNat) s
  | .parcel p => s |> doIf p.poisoned (countGal 0x433 g 0) |> measureAnn g p

/-- Take the head of an egress queue. -/
def popEgress (g : GalIx) (k : Cls) (s : State) : State :=
  modGal g (fun G => { G with egress := cset G.egress k ((cget G.egress k).drop 1) }) s

/-- Whether the head of a message queue may go: covered by credits, and no earlier PM of its port stands before an NP or CP (R192, R201). -/
def msgReady (s : State) (g : GalIx) (k : Cls) : Option QItem :=
  let G := galAt s g
  match cget G.egress k with
  | i :: _ =>
    let behind := k != .pm && G.egress.pm.any fun j => j.port == i.port && j.arrival < i.arrival
    if covered G.ctx k (itemLen i.item) && !behind then some i else none
  | [] => none

/-- The message class that goes next: PM, then CP, then NP (R199). -/
def nextMsg (s : State) (g : GalIx) : Option (Cls × QItem) := [Cls.pm, .cp, .np].findSome? fun k => (msgReady s g k).map fun i => (k, i)

/-- Discard what stands at the head of the PX queue and is not sent; it is measured as it goes (R278). -/
def skimPx (g : GalIx) : Nat → State → State
  | 0, s => s
  | n + 1, s =>
    match (galAt s g).egress.px with
    | i :: _ => if discards s g i then skimPx g n (s |> popEgress g .px |> doIf (!i.sub) (measure g i.item) |> discardItem g i) else s
    | [] => s

/-- Send the head of the PX queue, measured first; a trip that it causes replaces it (R278). -/
def sendPx (g : GalIx) (s : State) : State :=
  match (galAt s g).egress.px with
  | i :: _ =>
    let s := s |> popEgress g .px |> doIf (!i.sub) (measure g i.item)
    if discards s g i then discardItem g i s else sendItem g i s
  | [] => s

/-- Whether the head of the PX queue is covered by credits. -/
def pxReady (s : State) (g : GalIx) : Bool :=
  let G := galAt s g
  match G.egress.px with
  | i :: _ => covered G.ctx .px (itemLen i.item)
  | [] => false

/-- Send one message. -/
def sendMsg (g : GalIx) (k : Cls) (i : QItem) (ahead : Bool) (s : State) : State :=
  let n := itemLen i.item
  s |> popEgress g k
    |> modGal g (fun G => { G with ctx := { G.ctx with budgetUsed := if ahead then G.ctx.budgetUsed + n else G.ctx.budgetUsed, alternate := ahead } })
    |> sendItem g i

/-- Set the demand bits of the classes whose heads lack credit (R201). -/
def demands (g : GalIx) (s : State) : State :=
  forAll classes (fun k s =>
    let G := galAt s g
    setDemand g k (match cget G.egress k with
      | i :: _ => !covered G.ctx k (itemLen i.item)
      | [] => false) s) s

/-! ## Basting (R151 to R156) -/

/-- Byte `k` of a basting block, 1 to 6. -/
def bastByte (b : BitVec 48) (k : Nat) : Nat := (b.extractLsb' (8 * (k - 1)) 8).toNat

/-- Kind of a basting block. -/
def bastKind (b : BitVec 48) : Nat := bastByte b 1 % 16

/-- Tag of a basting block. -/
def bastTag (b : BitVec 48) : Nat := bastByte b 1 / 16

/-- Whether landing records stand in order: groups of 5 with index 0 to 4. -/
def landingsOk (l : Train) : Bool :=
  l.length % 5 == 0 && (l.zip (List.range l.length)).all fun e => bastKind e.1 == 3 && bastByte e.1 2 % 8 == e.2 % 5

/-- Whether a train is valid (R152). -/
def trainOk (l : Train) : Bool :=
  match l, l.getLast? with
  | a :: rest, some z =>
    let n := bastByte z 2 + 256 * bastByte z 3
    let mid := rest.dropLast
    bastKind a == 1 && bastKind z == 4 && !rest.isEmpty && n ≤ 400 && l.length ≤ 512 && (l.all fun b => bastTag b == bastTag a) &&
      bastByte a 4 == bastByte z 4 && n ≤ mid.length && ((mid.take n).all fun b => bastKind b == 2) && landingsOk (mid.drop n)
  | _, _ => false

/-- The galleries a train is sent on (R153). -/
def trainGals (s : State) (g : GalIx) : List GalIx :=
  let f := (forcePlane s).filter fun e => e.2.state == .placed
  let l := if !isPlaced s then []
    else if isNorth g then allGals.filter fun h => f.any fun e => isIngress e.2 g && h ∈ southOf e.2.egress
    else allGals.filter fun h => isNorth h && f.any fun e => isIngress e.2 h && g ∈ southOf e.2.egress
  (if l.isEmpty then [pairOf g] else l).filter fun h => h != g && galActive s h

/-- The landing record of a copy (R155). SAFE is set in LOCKOUT too, and STRAIGHT whenever the device is not PLACED (DESIGN CHOICE, note 122). -/
def landingRecord (s : State) (entry exit : GalIx) (num : Nat) : List Byte :=
  let a := galAt s entry
  let b := galAt s exit
  let fw := fwRuns s
  let rate := if fw then min 2048 ((s.cutter.freePipe.foldl (· + ·) 0) / 1000) else 0
  let flags := b2n (engineOn s) + 2 * b2n (devSafe s || devLocked s) + 4 * b2n (devLocked s) + 8 * b2n (!isPlaced s) + 16 * b2n b.tx.fec
  leBytes 8 s.otp.serial.toNat ++ [BitVec.ofNat 8 (num % 16 + 0x20), BitVec.ofNat 8 (entry.val + 16 * exit.val),
    BitVec.ofNat 8 (((a.rx.tread.map (·.val)).getD 0) + 8 * ((b.tx.tread.map (·.val)).getD 0)),
    BitVec.ofNat 8 (popcount a.rx.active + 16 * popcount b.tx.active)] ++ leBytes 2 rate ++
    leBytes 2 (if fw then s.cutter.freeStore else 0) ++ [BitVec.ofNat 8 flags, if fw then 0x04#8 else 0#8] ++ leBytes 2 (if fw then s.live.node.toNat else 0)

/-- The five LANDING blocks of a record (R151). -/
def landingBlks (tag num : Nat) (rec : List Byte) : Train :=
  (List.range 5).map fun i => BitVec.ofNat 48 (leNat ([BitVec.ofNat 8 (3 + 16 * tag), BitVec.ofNat 8 (i + 16 * num)] ++ (rec.drop (4 * i)).take 4))

/-- A train as a copy sends it: the device's record before END, where it has a number in the flight of the copy's North gallery (R154). -/
def withLanding (s : State) (entry exit : GalIx) (l : Train) : Train :=
  let north := if isNorth entry then entry else exit
  match (galAt s north).landing, l.getLast? with
  | some n, some z => l.dropLast ++ landingBlks (bastTag z) n (landingRecord s entry exit n) ++ [z]
  | _, _ => l

/-- Send the oldest released train whole (R156). -/
def sendTrain (g : GalIx) (s : State) : State :=
  match (galAt s g).tx.trains with
  | [] => s
  | (e, l) :: r =>
    let l' := withLanding s (galOf e) g l
    s |> modTx g (fun x => { x with trains := r })
      |> sendStream g (l'.map bastingBlk) id
      |> emit (.train g l')
      |> countGal 0x414 g 1

/-- BASTING_TRAIN_RECEIVE (R152, R153, R156): a train that the walk delivered, with whether no errored slot and no other block fell into it. -/
def execBastingTrainReceive (t : Nat) (g : GalIx) (blocks : Train) (whole : Bool) (s : State) : Answer :=
  effect t (rxRuns · g) (fun s =>
    let s := s |> auditAll |> modRx g (fun r => { r with arrived := r.arrived.erase (.train blocks whole) })
    if inBoot s || !whole || !trainOk blocks then countGal 0x415 g 0 s
    else forAll (trainGals s g) (fun h s =>
      if (galAt s h).tx.trains.length < 4 then modTx h (fun x => { x with trains := x.trains ++ [(g.val, blocks)], emptyAt := none }) s
      else countGal 0x415 h 1 s) s) s

/-- Since when the direction has nothing to send (R75). -/
def noteEmpty (g : GalIx) (s : State) : State :=
  modTx g (fun x => { x with emptyAt := if txWaiting (galAt s g) then none else some (x.emptyAt.getD s.now) }) s

/-- BASTING_TRAIN_SEND (R154, R156). -/
def execBastingTrainSend (t : Nat) (g : GalIx) (s : State) : Answer :=
  effect t (creditsRun · g) (fun s => doIf (!stalled (galAt s g)) (fun s => s |> sendReplay g |> sendTrain g |> noteEmpty g) s) s

/-- What the transmit island sends next: a released train, a message within the budget or where no PX can go, or PX (R199). -/
def sendNext (g : GalIx) (s : State) : State :=
  let G := galAt s g
  let px := pxReady s g
  let viaPx := fun (s : State) => s |> sendPx g |> modGal g (fun G => { G with ctx := { G.ctx with alternate := false } })
  if !G.tx.trains.isEmpty then sendTrain g s
  else match nextMsg s g with
    | some (k, i) =>
      let spent := G.ctx.budgetUsed + itemLen i.item > 65536
      if px && spent && G.ctx.alternate then viaPx s else sendMsg g k i px s
    | none => doIf px viaPx s

/-- PARCEL_TRANSMIT (R199): after `idle` slots without a stream block, the transmit island sends what comes next, replayed blocks before all. In a training the slots alone pass, with what is due in them (R124, R125, R128). -/
def execParcelTransmit (t : Nat) (g : GalIx) (idle : Nat) (s : State) : Answer :=
  effect t (hopRuns · g) (fun s =>
    let s := passSlots g idle s
    let G := galAt s g
    if G.tx.ts = .exchange ∨ G.rx.ts = .exchange then exchange g s
    else if G.tx.ts ≠ .active then s
    else if stalled G then demands g s
    else s |> sendReplay g |> skimPx g ((galAt s g).egress.px.length) |> sendNext g |> demands g |> noteEmpty g |> drainStraight (pairOf g)) s

/-- MESSAGE_BUDGET_WINDOW (R199): a window of 100 us ends and the next begins. -/
def execMessageBudgetWindow (t : Nat) (g : GalIx) (s : State) : Answer :=
  effect t active (fun s =>
    doIf (decide ((galAt s g).ctx.budgetAt + 100000 ≤ s.now)) (modGal g fun G =>
      { G with ctx := { G.ctx with budgetUsed := 0, budgetAt := s.now, alternate := false } }) s) s

end Sys2Proof.Machine
end

