-- ==== Sys2Proof/Machine/Late.lean ====
section
/-! DEFINITION. Posted writes that complete or fail: the late-error log, the failure counts of `bridge.sync`, and `bridge.posted_error` (R326 to R328). -/

namespace Sys2Proof.Machine

/-- The 32 bytes of a late-error entry (R327). -/
def lateBytes (e : LateErr) : List Byte :=
  leBytes 2 e.src.toNat ++ leBytes 4 e.e2e.toNat ++ leBytes 6 e.address ++ leBytes 1 e.reason ++ leBytes 1 e.gallery ++ leBytes 2 e.count ++
    leBytes 8 e.uptimeUs ++ List.replicate 8 0#8

/-- Count a failed write of a source; a 33rd source takes the place of the one least recently synced (R328). -/
def countFailure (src : BitVec 16) (b : Bridge) : Bridge :=
  if b.syncs.any fun x => x.src == src then
    { b with syncs := b.syncs.map fun x => if x.src = src then { x with failures := min 65535 (x.failures + 1) } else x }
  else
    let new : SyncRec := { src, failures := 1, evicted := src ∈ b.evicted }
    let b := { b with evicted := b.evicted.filter (· ≠ src) }
    if b.syncs.length < 32 then { b with syncs := b.syncs ++ [new] }
    else match b.syncs.getLast? with
      | some x => { b with syncs := b.syncs.dropLast ++ [new], evicted := b.evicted ++ [x.src] }
      | none => b

/-- Send `bridge.posted_error` to the source of a write: routed, or on the gallery the write arrived on (R311, R327). -/
def sendPostedError (e : LateErr) (logSeq : Nat) (s : State) : State :=
  let p := eventParcel s e.src none false (eventPayload s 0x0701 3 logSeq 0 (lateBytes e))
  if e.src = 0#16 then
    match galPort e.gallery with
    | some g => if galActive s g then originate p [g] s else countDev 0x43B 0 s
    | none => s
  else (sendRouted p (galPort e.gallery) s).1

/-- A posted write fails (R327). -/
def lateError (a : Asker) (address count reason : Nat) (s : State) : State :=
  let e : LateErr := { src := a.src, e2e := a.e2e, address, reason, gallery := a.gallery, count, uptimeUs := uptime s / 1000 }
  let seq := s.log.next.toNat
  s |> modBridge (fun b => countFailure a.src { b with lateLog := (e :: b.lateLog).take 16 })
    |> countDev 0x801 0
    |> raiseTo false 0x0701 (lateBytes e) none
    |> sendPostedError e seq

/-- A posted write leaves the list of those outstanding: it completed, or it failed for a reason. -/
def endPosted (id : Nat) (reason : Option Nat) (s : State) : State :=
  match s.bridge.posted.find? fun w => w.id == id with
  | none => s
  | some w =>
    let s := modBridge (fun b => { b with posted := b.posted.erase w }) s
    match reason with
    | some r => lateError w.asker w.address w.count r s
    | none => s

end Sys2Proof.Machine
end

