-- ==== Sys2Proof/Machine/PortL.lean ====
section
/-! DEFINITION. Port L as a controller: byte lanes, the sequence of an access on the bus, recovery and the fence, locked sequences, and how a request ends (R322, R329 to R332, R416 to R421). -/

namespace Sys2Proof.Machine

/-! ## Byte lanes (R330) -/

/-- The target address of the byte at an address: address-invariant swapping moves elements, data-invariant reverses their bytes. -/
def swapAddr (swap unit elem a : Nat) : Nat :=
  let off := a % elem
  match swap with
  | 1 => ((a - off) ^^^ (unit - elem)) + off
  | 2 => a - off + (elem - 1 - off)
  | _ => a

/-- Insert by key, keys rising. -/
def insertKey (x : Nat × α) : List (Nat × α) → List (Nat × α)
  | [] => [x]
  | y :: r => if x.1 ≤ y.1 then x :: y :: r else y :: insertKey x r

/-- The bytes of an access by target address, rising. -/
def toTarget (swap unit elem a : Nat) (data : List Byte) : List (Nat × Byte) :=
  (((List.range data.length).map fun k => swapAddr swap unit elem (a + k)).zip data).foldr insertKey []

/-- Bytes read at rising target addresses, back in the order of the request. -/
def fromTarget (swap unit elem a : Nat) (data : List Byte) : List Byte :=
  let order := ((List.range data.length).map fun k => (swapAddr swap unit elem (a + k), k)).foldr insertKey []
  (((order.map (·.2)).zip data).foldr insertKey []).map (·.2)

/-- Bytes at rising addresses cut into runs of consecutive ones. -/
def runsOf (l : List (Nat × Byte)) : List (Nat × List Byte) :=
  l.foldr (fun e acc => match acc with
    | (a, bs) :: r => if e.1 + 1 = a then (e.1, e.2 :: bs) :: r else (e.1, [e.2]) :: (a, bs) :: r
    | [] => [(e.1, [e.2])]) []

/-! ## The end of a request (R322, R327) -/

/-- Change port L. -/
def modPortL (f : PortL → PortL) (s : State) : State := { s with portL := f s.portL }

/-- The completions of a read, at most 2,048 bytes each (R322). -/
def sendData (a : Asker) (data : List Byte) (s : State) : State :=
  let l := chunks 2048 data
  forAll ((List.range l.length).zip l) (fun e s => sendCompletion a 0 (2048 * e.1) e.2 s) s

/-- A port L request ends: a read with its data, a write, or a failure with its status and, for a posted write, its reason. -/
def endReq (r : PlReq) (status reason : Nat) (data : List Byte) (s : State) : State :=
  match r.posted with
  | some id => endPosted id (if status = 0 then none else some reason) s
  | none => if r.read ∧ status = 0 then sendData r.asker data s else sendCompletion r.asker status 0 [] s

/-- Every waiting request fails while port L is fenced (R329, R420). -/
def failFenced (s : State) : State :=
  if s.portL.fenced then
    forAll s.portL.waiting (fun r => endReq r 0x0A 9 []) (modPortL (fun p => { p with waiting := [] }) s)
  else s

/-- Conditions on the bus as they stand among the bytes of the output: START, STOP and repeated START. -/
def busStart : BitVec 9 := 0x100#9

/-- STOP. -/
def busStop : BitVec 9 := 0x101#9

/-- Repeated START. -/
def busAgain : BitVec 9 := 0x102#9

/-! ## Recovery (R418 to R420) -/

/-- Port L is fenced for a stuck bus (R418). -/
def fenceBus (s : State) : State :=
  let s := s |> modPortL (fun p => { p with fenced := true }) |> countDev 0x903 0
  raise 0x0801 (by32 (ctrAt s 0x903 0 0 0)) s

/-- The nine-clock recovery (R418). -/
def nineClocks (s : State) : State :=
  let n := s.portL.hold
  let s := modPortL (fun p => { p with recoverDue := false }) s
  if n ≤ 9 then
    s |> doIf (n != 0) (emit (.portLPulses n)) |> emit (.portL [busStop]) |> modPortL fun p => { p with hold := 0, fenced := false }
  else s |> emit (.portLPulses 9) |> modPortL (fun p => { p with hold := n - 9 }) |> fenceBus

/-! ## Locked sequences (R331, R332, R421) -/

/-- A locked sequence is lost: the bus is released, and the lost state begins (R332, R417). -/
def loseLock (s : State) : State :=
  match s.portL.lock with
  | some l => modPortL (fun p => { p with lock := none, lostFor := some (l.src, s.now), filter := s.live.twFilter }) s
  | none => s

/-- A locked sequence times out (R332). -/
def timeoutLock (s : State) : State :=
  match s.portL.lock with
  | some l => s |> emit (.portL [busStop]) |> loseLock |> countDev 0x804 0 |> raise 0x0702 (by16 l.src.toNat ++ leBytes 6 l.address)
  | none => s

/-- Recovery where it is due: a locked sequence ends first, and on a bus still stuck everything that waits fails (R419, R422). -/
def recoverIfDue (s : State) : State :=
  if s.portL.recoverDue then s |> timeoutLock |> nineClocks |> failFenced else s

/-! ## An access on the bus (R329) -/

/-- Whether the bus takes a transaction: port L clocked and not fenced. -/
def busReady (s : State) : Bool := gateOn s 23 && !s.portL.fenced

/-- What port L drives for an access, and how many bytes must be acknowledged; `go` is START or repeated START. -/
def busSyms (r : PlReq) (go : BitVec 9) : List (BitVec 9) × Nat :=
  let target := r.address / 65536 % 128
  let l := toTarget r.swap r.unit r.elem r.address (if r.read then List.replicate r.count 0#8 else r.data)
  let ptr := (l.headD (r.address, 0#8)).1 % 65536
  let ptrBytes : List Nat := if r.ptrWidth = 0 then [] else if r.ptrWidth = 1 then [ptr % 256] else [ptr / 256, ptr % 256]
  let b := fun (n : Nat) => BitVec.ofNat 9 n
  if r.read then
    if r.ptrWidth = 0 then ([go, b (2 * target + 1)], 1)
    else (go :: b (2 * target) :: (ptrBytes.map b ++ [busAgain, b (2 * target + 1)]), 2 + ptrBytes.length)
  else (go :: b (2 * target) :: (ptrBytes.map b ++ l.map fun e => e.2.zeroExtend 9), 1 + ptrBytes.length + l.length)

/-- The symbols up to byte number `n`, counted from 0. -/
def symsTo (n : Nat) : List (BitVec 9) → List (BitVec 9)
  | [] => []
  | x :: r => if x.toNat ≥ 0x100 then x :: symsTo n r else if n = 0 then [x] else x :: symsTo (n - 1) r

/-- What an access found on its bus: driven symbols, whether every byte was acknowledged, and the data read, in the order of the request; a target that sends fewer bytes reads as ones. -/
def runBus (r : PlReq) (go : BitVec 9) (stop : Bool) (acked : Nat) (data : List Byte) : List (BitVec 9) × Bool × List Byte :=
  let x := busSyms r go
  if x.2 ≤ acked then
    (x.1 ++ (if stop then [busStop] else []), true, fromTarget r.swap r.unit r.elem r.address (data.take r.count ++ List.replicate (r.count - data.length) 0xFF#8))
  else (symsTo acked x.1 ++ [busStop], false, [])

/-- The request whose turn it is: while a sequence holds the bus its holder's locked ones, else the oldest (R331). -/
def nextReq (s : State) : Option PlReq :=
  match s.portL.lock with
  | some l => s.portL.waiting.find? fun r => r.lock && r.asker.src == l.src
  | none => s.portL.waiting.head?

/-- A waiting request leaves the queue. -/
def takeReq (r : PlReq) (s : State) : State := modPortL (fun p => { p with waiting := p.waiting.erase r }) s

/-- Run a plain access (R329, R417). -/
def runPlain (r : PlReq) (acked : Nat) (data : List Byte) (s : State) : State :=
  let x := runBus r busStart true acked data
  let s := s |> takeReq r |> emit (.portL x.1) |> modPortL fun p => { p with filter := s.live.twFilter }
  if x.2.1 then endReq r 0 0 x.2.2 s else s |> countDev 0x904 0 |> endReq r 5 7 []

/-- Locked reads of other sources that wait are answered RETRY once a sequence holds the bus (R331). -/
def retryOthers (src : BitVec 16) (s : State) : State :=
  forAll (s.portL.waiting.filter fun r => r.lock && r.read && r.asker.src != src)
    (fun r s => s |> takeReq r |> countDev 0x803 0 |> endReq r 8 0 []) s

/-- Run a locked read: it starts or continues the sequence of its source (R331). -/
def runLocked (r : PlReq) (acked : Nat) (data : List Byte) (s : State) : State :=
  let x := runBus r (if s.portL.lock.isSome then busAgain else busStart) false acked data
  let s := s |> takeReq r |> emit (.portL x.1)
  if x.2.1 then
    let since := match s.portL.lock with
      | some l => l.since
      | none => some s.now
    s |> modPortL (fun p => { p with lock := some { src := r.asker.src, address := r.address, since }, lostFor := if (p.lostFor.map (·.1)) = some r.asker.src then none else p.lostFor })
      |> endReq r 0 0 x.2.2
      |> retryOthers r.asker.src
  else s |> loseLock |> countDev 0x904 0 |> endReq r 5 7 []

/-- An unlocking write: it ends its source's sequence with STOP, or is answered LOCK_LOST without touching the bus (R331, R332, R421). -/
def runUnlock (r : PlReq) (acked : Nat) (s : State) : State :=
  let s := takeReq r s
  if (s.portL.lock.map (·.src)) = some r.asker.src then
    let x := runBus r busAgain true acked []
    let s := s |> emit (.portL x.1) |> modPortL fun p => { p with lock := none, filter := s.live.twFilter }
    if x.2.1 then endReq r 0 0 [] s else s |> countDev 0x904 0 |> endReq r 5 7 []
  else
    s |> modPortL (fun p => { p with lostFor := if (p.lostFor.map (·.1)) = some r.asker.src then none else p.lostFor })
      |> endReq r 7 0 []

/-- A transaction ends by a limit: the bus is released, a sequence ends with STOP and is lost, and recovery is due (R417). -/
def timeoutReq (r : PlReq) (s : State) : State :=
  s |> takeReq r |> doIf s.portL.lock.isSome (emit (.portL [busStop])) |> loseLock |> countDev 0x905 0 |> modPortL (fun p => { p with recoverDue := true }) |> endReq r 6 8 []

end Sys2Proof.Machine
end

