-- ==== Sys2Proof/Machine/Prbs.lean ====
section
/-! DEFINITION. Pattern checkers and loops of a gallery under test: what a lane does with the bits its receiver decides (R485 to R487, R504). -/

namespace Sys2Proof.Machine

/-- The taps of a pattern: the degree of its polynomial, and the places in the register whose bits add up to the next one (R486). -/
def prbsTaps (code : Nat) : Nat × List Nat :=
  match code with
  | 1 => (7, [6, 5])
  | 2 => (9, [8, 4])
  | 3 => (15, [14, 13])
  | 4 => (23, [22, 17])
  | 5 => (31, [30, 27])
  | 6 => (13, [12, 11, 1, 0])
  | _ => (31, [30, 27])

/-- Patterns sent inverted, as ITU-T O.150 and IEEE 802.3 have them (PRESUMED, note 13). -/
def prbsInverted (code : Nat) : Bool := code == 3 || code == 4 || code == 5 || code == 7

/-- The bit that a register predicts. -/
def prbsNext (code reg : Nat) : Bool := ((prbsTaps code).2.foldl (fun b k => b != reg.testBit k) false) != prbsInverted code

/-- One more bit into a register of a pattern's degree. -/
def prbsShift (code reg : Nat) (b : Bool) : Nat := (2 * reg + b2n b) % 2 ^ (prbsTaps code).1

/-- A checker starts to seek synchronisation again. -/
def unsync (p : Prbs) : Prbs := { p with locked := false, filled := 0, run := 0, errAt := [] }

/-- A checker takes one bit (R487). -/
def checkBit (p : Prbs) (b : Bool) : Prbs :=
  let want := prbsNext p.pattern p.reg
  if p.locked then
    let errs := (if b == want then p.errAt else p.run :: p.errAt).filter fun k => p.run < k + 1024
    let q := { p with reg := prbsShift p.pattern p.reg want, run := p.run + 1, errAt := errs, bits := satAdd 64 p.bits 1,
                      errors := satAdd 64 p.errors (b2n (b != want)) }
    if errs.length > 256 then unsync q else q
  else
    let q := { p with reg := prbsShift p.pattern p.reg b }
    if p.filled < (prbsTaps p.pattern).1 then { q with filled := p.filled + 1 }
    else if b == want then (if p.run + 1 = 1024 then { q with locked := true, run := 0, errAt := [] } else { q with run := p.run + 1 })
    else { q with filled := 0, run := 0 }

/-- The bits of a vector, first in bit 0. -/
def bitsOf (n : Nat) (v : BitVec n) : List Bool := (List.range n).map v.getLsbD

/-- A gallery under test hands what a lane receives to its checker (R487). -/
def checkBits (g : GalIx) (l : LaneIx) (bits : List Bool) (s : State) : State :=
  if (laneAt s g l).prbs.chk then modLane g l (fun L => { L with prbs := bits.foldl checkBit L.prbs }) s else s

/-- Whether a gallery is LOST and so open to loops and patterns (R390). -/
def underTest (s : State) (g : GalIx) : Bool := active s && (galAt s g).lost.isSome && gateOn s g.val

/-- What a gallery under test does with a codeword's time of bits: its checker looks, and the far-end loop returns them (R485, R487). -/
def testCodeword (g : GalIx) (l : LaneIx) (bits : BitVec 5440) (s : State) : State :=
  s |> checkBits g l (bitsOf 5440 bits)
    |> doIf ((laneAt s g l).loop == 3) (emit (.codeword g l.val bits))

/-- The same for the time of a block. -/
def testBlock (g : GalIx) (l : LaneIx) (b : Block) (s : State) : State :=
  s |> checkBits g l (bitsOf 66 b)
    |> doIf ((laneAt s g l).loop == 3) (emit (.block g l.val b))

/-- A side without a reference stops the generators of its galleries, and their checkers lose synchronisation (R504). -/
def stopTests (g : GalIx) (s : State) : State :=
  forAll allLanes (fun l => modLane g l fun L => { L with prbs := { unsync L.prbs with gen := false } }) s

end Sys2Proof.Machine
end

