-- ==== Sys2Proof/Machine/Correct.lean ====
section
/-! DEFINITION. The correction engine and its store: correction of a parcel, commits, fenced pipes, scrubbing, clearing, catch-up copies and the loss of the store (R251 to R274). -/

namespace Sys2Proof.Machine

/-! ## Arithmetic (R254 to R256) -/

/-- A signed 12-bit coefficient at a bit position of a record. -/
def coefAt (v lo : Nat) : Int :=
  let n := v / 2 ^ lo % 4096
  if n < 2048 then (n : Int) else (n : Int) - 4096

/-- The exponent of a record. -/
def expOf (v : Nat) : Int := sbyte (v / 2 ^ 108)

/-- `n / 2^k` to the nearest integer, an exact half to the even neighbour. -/
def roundHalfEven (n : Int) (k : Nat) : Int :=
  let d : Int := 2 ^ k
  let q := n / d
  let r := n % d
  if 2 * r < d then q else if d < 2 * r then q + 1 else if q % 2 = 0 then q else q + 1

/-- One output channel before clamping (R256). -/
def channelRaw (v lo : Nat) (p : Nat × Nat × Nat) : Int :=
  let acc := coefAt v lo * p.1 + coefAt v (lo + 12) * p.2.1 + coefAt v (lo + 24) * p.2.2
  let e := expOf v
  if 0 ≤ e then roundHalfEven (acc * 2 ^ e.toNat) 10 else roundHalfEven acc (10 + (-e).toNat)

/-- A channel clamped to 16 bits. -/
def clamp16 (x : Int) : Nat := if x < 0 then 0 else min x.toNat 65535

/-- Whether clamping changes a channel. -/
def clamps (x : Int) : Bool := x < 0 || 65535 < x

/-- Whether a record's check and exponent hold (R255). -/
def recordOk (bs : List Byte) : Bool :=
  let e := expOf (leNat bs)
  crc8 (bs.take 15) == bs.getD 15 0 && -16 ≤ e && e ≤ 8

/-- What a record does to a pixel: the output, how many channels were clamped, and whether the record was invalid; `prev` is the output that `hold` repeats (R255). -/
def applyRecord (rec : Option (List Byte)) (prev : Nat × Nat × Nat) (p : Nat × Nat × Nat) : (Nat × Nat × Nat) × Nat × Bool :=
  match rec with
  | none => (p, 0, true)
  | some bs =>
    let v := leNat bs
    if !recordOk bs then (p, 0, true)
    else if v.testBit 117 then ((0, 0, 0), 0, false)
    else if v.testBit 116 then (p, 0, false)
    else if v.testBit 118 then (prev, 0, false)
    else
      let r := channelRaw v 0 p
      let g := channelRaw v 36 p
      let b := channelRaw v 72 p
      ((clamp16 r, clamp16 g, clamp16 b), b2n (clamps r) + b2n (clamps g) + b2n (clamps b), false)

/-! ## A parcel in a pipe (R251, R252, R258) -/

/-- The store address of a pixel's record. -/
def recordAddr (d : DirRec) (a : AnnRec) (line pixel : Nat) : Nat :=
  let h := ceilDiv (a.width * a.height) 4096
  (d.base + if d.dbuf && d.bank then h else 0) * 65536 + 16 * (line * a.width + pixel)

/-- How many pixels of a line from a pixel on, of `n`, have a record: those below the announced width, on lines below the announced height (R255, R258). -/
def recordsFor (s : State) (r line pixel n : Nat) : Nat :=
  match recordOf s r with
  | some a => if line < a.height then min n (a.width - pixel) else 0
  | none => 0

/-- The record of a pixel as a pipe reads it: none where there is none or its word is uncorrectable. -/
def fetchRecord (s : State) (r line pixel : Nat) : Option (List Byte) :=
  match recordOf s r with
  | some a =>
    if recordsFor s r line pixel 1 = 1 then
      let at_ := recordAddr (dirOf s r) a line pixel
      if badWord s at_ 16 then none else some (storeBytes s.corr at_ 16)
    else none
  | none => none

/-- The pipe that a line of a region goes to, its substitute where it is fenced; none where there is neither (R251, R270). -/
def pipeOf (s : State) (r line : Nat) (e : Entry) : Option Nat :=
  let ps := positions e.pipes
  match ps[line % ps.length]? with
  | none => none
  | some p =>
    match (mget [] s.corr.subst r).find? fun x => x.1 == p with
    | some x => x.2
    | none => if (s.corr.pipes.toList.getD p {}).fenced then none else some p

/-- Change a pipe. -/
def modPipe (p : Nat) (f : Pipe → Pipe) (s : State) : State :=
  if h : p < 8 then modCorr (fun c => { c with pipes := c.pipes.set p (f c.pipes[p]) }) s else s

/-- Correct one pixel in a pipe; the state counts it and keeps it as the last pixel of the pipe. -/
def correctPixel (r pipe line pixel : Nat) (px : Nat × Nat × Nat) (s : State) : (Nat × Nat × Nat) × State :=
  let rec_ := fetchRecord s r line pixel
  let prev := match (s.corr.pipes.toList.getD pipe {}).hold with
    | some h => if pixel ≠ 0 ∧ h.region = r ∧ h.line = line ∧ h.pixel + 1 = pixel then h.rgb else (0, 0, 0)
    | none => (0, 0, 0)
  let o := applyRecord rec_ prev px
  (o.1, s
    |> modPipe pipe (fun p => { p with hold := some { region := r, line, pixel, rgb := o.1 } })
    |> countDev 0x601 pipe
    |> countN 0x602 0 0 pipe o.2.1
    |> doIf o.2.2 (countDev 0x603 0)
    |> doIf (recordsFor s r line pixel 1 == 1) (storeUse 1 16))

/-- Correct the pixels of a parcel one after the other. -/
def correctAll (r pipe line : Nat) : Nat → List (Nat × Nat × Nat) → State → List (Nat × Nat × Nat) × State
  | _, [], s => ([], s)
  | pixel, px :: l, s =>
    let q := correctPixel r pipe line pixel px s
    let rest := correctAll r pipe line (pixel + 1) l q.2
    (q.1 :: rest.1, rest.2)

/-- RGB48 bytes of pixels. -/
def rgb48 (l : List (Nat × Nat × Nat)) : List Byte := l.flatMap fun p => leBytes 2 p.1 ++ leBytes 2 p.2.1 ++ leBytes 2 p.2.2

/-- A header field set anew. -/
def setField (h : BitVec 128) (lo w v : Nat) : BitVec 128 :=
  (h &&& ~~~(BitVec.ofNat 128 ((2 ^ w - 1) * 2 ^ lo))) ||| BitVec.ofNat 128 (v % 2 ^ w * 2 ^ lo)

/-- The output parcels formed from an input parcel and its corrected pixels (R252). -/
def reform (p : Parcel) (l : List (Nat × Nat × Nat)) : List Parcel :=
  let parts := chunks 682 l
  ((List.range parts.length).zip parts).map fun e =>
    let data := rgb48 e.2
    let h := setField (setField (setField (setField p.hdr 68 2 0) 8 13 data.length) 96 16 (pPixel p + 682 * e.1)) 90 1
      (b2n (pEol p && e.1 + 1 == parts.length))
    { mkParcel h data with poisoned := p.poisoned }

/-! ## The queue of port 8 -/

/-- An item leaves the engine for the outputs that its region has. -/
def pushOut (i : QItem) (x : Item) (s : State) : State :=
  modCorr (fun c => { c with outQ := c.outQ ++ [{ i with item := x, port := 8, targets := i.next, next := [], bytes := 0, waits := false }] }) s

/-- A gap of reason 0x3 for a line, where none names it yet (R212, R270, R271). -/
def engineGap (i : QItem) (r line : Nat) (s : State) : State :=
  if mget 0 s.corr.gapLine r ≤ line then
    s |> modCorr (fun c => { c with gapLine := mput c.gapLine r (line + 1) })
      |> pushOut { i with origin := 3 } (.gap (mkGap (BitVec.ofNat 12 r) 3 line 1))
  else s

/-- A commit that is due takes effect at a cut mark that leaves the engine (R266). -/
def commitAt (r key : Nat) (s : State) : State :=
  let d := dirOf s r
  if d.commitPending && d.drained && d.cstate != .clearing && d.cstate != .none && d.commitBase == d.base then
    let bank := if d.dbuf then !d.bank else d.bank
    let e := entryOf s r
    s |> modDir r (fun d => { d with bank, cstate := .loaded, commitPending := false, drained := false, catching := d.dbuf })
      |> doIf (inUse e && e.dbuf) (putForce r { e with bank })
      |> countDev 0x608 0
      |> raiseRegion 0x0502 (BitVec.ofNat 12 r) (by16 r ++ by8 (b2n bank) ++ by8 0 ++ by32 key)
  else s

/-- A cut mark leaves the engine (R255, R266, R267, R270). -/
def engineCut (i : QItem) (c : CutMark) (s : State) : State :=
  let r := c.region.toNat
  let s := commitAt r (cutKeyOf c) s
  let s := modCorr (fun x => { x with
    gapUntilCut := x.gapUntilCut.filter fun g => g.1 != r
    gapLine := merase x.gapLine r
    pipes := x.pipes.map fun p => { p with hold := p.hold.filter fun h => h.region != r } }) s
  let e := entryOf s r
  if e.state = .placed ∧ e.site = .here then
    let ok := served s r e
    s |> doIf (!ok) (countDev 0x604 0) |> pushOut i (.cut { c with uncorrected := !ok })
  else pushOut i (.cut c) s

/-- Whether a line of a region becomes a gap up to the next cut mark, its pipe or the store being lost (R270, R271). -/
def lineGone (s : State) (r line : Nat) (e : Entry) : Bool :=
  let ps := positions e.pipes
  let own := ps.getD (line % max 1 ps.length) 8
  s.corr.gapUntilCut.any fun g => g.1 == r && (g.2 == 8 || g.2 == own)

/-- The pipe that corrects a line of a region: none where the region is not served, or the line becomes a gap. -/
def pipeFor (s : State) (r line : Nat) (e : Entry) : Option Nat :=
  if served s r e && !lineGone s r line e then pipeOf s r line e else none

/-- The store words that the records of a parcel's pixels lie in (R260). -/
def recordWords (s : State) (p : Parcel) : List Nat :=
  let r := (pRegion p).toNat
  match recordOf s r with
  | some a => wordsOf (recordAddr (dirOf s r) a (pLine p) (pPixel p)) (16 * recordsFor s r (pLine p) (pPixel p) (pPixels p))
  | none => []

/-- A PX parcel passes the engine: corrected where its region is served, else as received in RGB48; lines whose pipe is lost become gaps up to the next cut mark. -/
def enginePx (i : QItem) (p : Parcel) (s : State) : State :=
  let r := (pRegion p).toNat
  let e := entryOf s r
  let px := pixelsOf p
  if lineGone s r (pLine p) e then engineGap i r (pLine p) s
  else
    let q := match pipeFor s r (pLine p) e with
      | some pipe => s |> readWords 1 (recordWords s p) |> correctAll r pipe (pLine p) (pPixel p) px
      | none => (px, s)
    forAll (reform p q.1) (fun x => pushOut i (.parcel x)) q.2

/-- An item passes the engine (R251 to R255, R266, R267). -/
def engineItem (i : QItem) (s : State) : State :=
  match i.item with
  | .cut c => engineCut i c s
  | .gap b => pushOut i (.gap b) s
  | .parcel p => enginePx i p s

/-- The entry and extent that an item follows: none where those in force (R242). -/
def prevOf (s : State) (r arrival : Nat) : Option PrevEntry := (mget [] s.corr.prev r).find? fun p => arrival < p.first

/-- Whether two directory records name the same extent. -/
def sameExtent (a b : DirRec) : Bool := a.base == b.base && a.units == b.units && a.dbuf == b.dbuf

/-- An item that arrived before its region's entry changed passes the engine under the old one; what it has done to the extent stays, where the new entry keeps that extent (R242). -/
def underPrev (r : Nat) (p : PrevEntry) (i : QItem) (s : State) : State :=
  let e := entryOf s r
  let d := dirOf s r
  let sub := mget [] s.corr.subst r
  let kept := sameExtent p.dir d
  let s := s
    |> putForce r p.entry
    |> modDir r (fun d => if kept then { d with unserved := p.dir.unserved } else p.dir)
    |> modCorr (fun c => { c with subst := mput c.subst r p.subst })
    |> engineItem i
  let d' := if kept then { dirOf s r with unserved := d.unserved } else d
  s |> modDir r (fun _ => d')
    |> putForce r { e with bank := e.dbuf && d'.bank && d'.newExt.isNone }
    |> modCorr (fun c => { c with subst := if sub.isEmpty then merase c.subst r else mput c.subst r sub })

/-- Old entries that no item at port 8, or on its way there, follows any more are forgotten. -/
def prunePrev (r : Nat) (s : State) : State :=
  let l := (mget [] s.corr.prev r).filter fun p => olderAtPort8 s r p.first
  modCorr (fun c => { c with prev := if l.isEmpty then merase c.prev r else mput c.prev r l }) s

/-- PIPE_PROCESS_PARCEL (R251 to R255, R266, R267): the oldest item at port 8 passes the engine, under the entry that was in force when it arrived. `single` and `double` are the store words in which the reads meet bit errors. -/
def execPipeProcessParcel (t : Nat) (single double : List Nat) (s : State) : Answer :=
  effect t (fun s => active s && engineOn s) (fun s =>
    let s := noteErrors single double s
    match s.corr.inQ with
    | [] => s
    | i :: l =>
      let r := regionOfItem i.item
      let s := s |> modCorr (fun c => { c with inQ := l }) |> audit r
      let s := match prevOf s r i.arrival with
        | some p => underPrev r p i s
        | none => engineItem i s
      prunePrev r s) s

/-! ## Fenced pipes (R270) -/

/-- The regions that a pipe works for: those that name it and those it substitutes in. -/
def pipeRegions (s : State) (p : Nat) : List Nat :=
  ((forcePlane s).filter fun e => e.2.state == .placed && e.2.site == .here &&
    (e.2.pipes.getLsbD p || (mget [] s.corr.subst e.1).any fun x => x.2 == some p)).map (·.1)

/-- The rate a region takes from each of its pipes, in kpixel/s (R236). -/
def pipeShare (s : State) (r : Nat) (e : Entry) : Nat :=
  match recordOf s r with
  | some a => ceilDiv (rateOf a) (1000000 * max 1 (popcount e.pipes))
  | none => 0

/-- Give a fenced pipe's lines of a region to a substitute, or leave the region UNSERVED; answers the substitute (R270). -/
def substitute (p r : Nat) (acc : List (Nat × Option Nat) × State) : List (Nat × Option Nat) × State :=
  let s := acc.2
  let e := entryOf s r
  let share := pipeShare s r e
  let old := mget [] s.corr.subst r
  let role := ((old.find? fun x => x.2 == some p).map (·.1)).getD p
  let sub := (List.range 8).find? fun q => !(s.corr.pipes.toList.getD q {}).fenced && !e.pipes.getLsbD q &&
    !(old.any fun x => x.2 == some q) && share ≤ s.cutter.freePipe.getD q 0
  let s := modCorr (fun c => { c with subst := mput c.subst r ((old.filter fun x => x.1 != role) ++ [(role, sub)]) }) s
  let s := match sub with
    | some q => { s with cutter := { s.cutter with freePipe := s.cutter.freePipe.set q (s.cutter.freePipe.getD q 0 - share) } }
    | none => s |> modDir r (fun d => { d with unserved := true })
      |> modCorr (fun c => { c with gapUntilCut := if (r, role) ∈ c.gapUntilCut then c.gapUntilCut else c.gapUntilCut ++ [(r, role)] })
  (acc.1 ++ [(r, sub)], s)

/-- PIPE_CHECK_FAIL (R270): a pipe's residue or parity check fails; `inside` tells that the oldest parcel at port 8 was in the pipe. -/
def execPipeCheckFail (t : Nat) (pipe : Fin 8) (inside : Bool) (s : State) : Answer :=
  effect t (fun s => active s && engineOn s && !s.corr.pipes[pipe].fenced) (fun s =>
    let s := s |> modPipe pipe.val (fun p => { p with fenced := true, hold := none }) |> auditAll
    let rs := pipeRegions s pipe.val
    let s := match s.corr.inQ with
      | i :: l =>
        match i.item with
        | .parcel p =>
          if inside && pipeOf { s with corr := { s.corr with pipes := s.corr.pipes.set pipe.val { s.corr.pipes[pipe] with fenced := false } } }
              (pRegion p).toNat (pLine p) (entryOf s (pRegion p).toNat) == some pipe.val then
            s |> modCorr (fun c => { c with inQ := l }) |> engineGap i (pRegion p).toNat (pLine p)
          else s
        | _ => s
      | [] => s
    let q := rs.foldl (fun acc r => substitute pipe.val r acc) ([], s)
    let body := by8 pipe.val ++ by8 (min rs.length 56) ++ by8 (b2n (decide (rs.length > 56))) ++ by8 0 ++
      ((q.1.take 56).flatMap fun e => by16 e.1 ++ by8 (e.2.getD 0xFF) ++ by8 0)
    raise 0x0504 body q.2) s

/-! ## The store (R260, R264, R266, R271) -/

/-- STORE_SCRUB (R260): the scrubber reaches a position and corrects what it finds on the way. -/
def execStoreScrub (t : Nat) (pos : BitVec 26) (single double : List Nat) (s : State) : Answer :=
  effect t (fun s => active s && gateOn s 19 && !s.corr.storeLost) (fun s => s
    |> storeUse 4 (modSub 67108864 pos.toNat s.corr.scrubPos)
    |> modCorr (fun c => { c with scrubPos := pos.toNat })
    |> noteErrors single double
    |> readWords 4 double) s

/-- EXTENT_CLEARING_DONE (R264). -/
def execExtentClearingDone (t : Nat) (region : Region) (s : State) : Answer :=
  effect t (fun s => active s && engineOn s && !s.corr.storeLost) (fun s =>
    let d := dirOf s region.toNat
    if d.cstate = .clearing then s |> modDir region.toNat (fun d => { d with cstate := .empty }) |> storeUse 3 (65536 * d.units)
    else match d.newExt with
      | some x => s |> modDir region.toNat (fun d => { d with newExt := some { x with cleared := true } }) |> storeUse 3 (65536 * x.units)
      | none => s) s

/-- CATCH_UP_COPY_DONE (R260, R266): the new inactive bank holds the records of the active one. -/
def execCatchUpCopyDone (t : Nat) (copied : CatchUp) (s : State) : Answer :=
  effect t (fun s => active s && engineOn s && !s.corr.storeLost) (fun s =>
    let region := copied.region
    let d := dirOf s region.toNat
    if d.catching then
      let s := noteErrors copied.single copied.double s
      let half := bankUnits d
      let a := (d.base + if d.bank then half else 0) * 65536
      let b := (d.base + if d.bank then 0 else half) * 65536
      s |> readWords 5 (wordsOf a (half * 65536))
        |> modCorr (copyBytes a b (half * 65536))
        |> modDir region.toNat (fun d => { d with catching := false })
        |> storeUse 3 (2 * 65536 * half)
    else s) s

/-- Queued store writes fail: posted ones as late errors, others with a completion. -/
def failQueue (reason status : Nat) (s : State) : State :=
  let q := s.corr.queue
  forAll q (fun w s => match w with
    | .write _ _ (some id) _ _ => endPosted id (some reason) s
    | .write _ _ none (some a) _ => sendCompletion a status 0 [] s
    | _ => s) (modCorr (fun c => { c with queue := [] }) s)

/-- The store is lost (R27, R271). -/
def loseStore (s : State) : State :=
  if s.corr.storeLost then s
  else
    let s := auditAll s
    let here := (forcePlane s).filter fun e => e.2.state == .placed && e.2.site == .here
    let s := modCorr (fun c => { c with storeLost := true, dir := [], cells := [], fill := [], eccBad := [], gapUntilCut := here.map fun e => (e.1, 8) }) s
    let s := forAll here (fun e => modDir e.1 fun d => { d with unserved := true }) s
    s |> failQueue 0x0C 0x0A |> answerWaiting (fun w => w.op == 0x502 || w.op == 0x504) 5 [] |> raise 0x0506 []

/-- STORE_LOST (R271). -/
def execStoreLost (t : Nat) (s : State) : Answer := effect t (fun s => active s && gateOn s 19) loseStore s

end Sys2Proof.Machine
end

