-- ==== Sys2Proof/Machine/SafetyCmds.lean ====
section
/-! DEFINITION. Commands of stream safety: substitute frames, monitor timers, sensors, the ends of safe state and SAFE, lock-out records, and release (R35, R281 to R298, R490, R491). -/

namespace Sys2Proof.Machine

/-- Whether the safety controller acts: powered, not FROZEN, not in P3. -/
def guarding (s : State) : Bool := alwaysOn s && s.power.pstate != .p3

/-! ## Substitute frames (R269, R288) -/

/-- SAFE_FRAME_START (R288), with or without firmware (R2, R303). -/
def execSafeFrameStart (t : Nat) (region : Region) (g : GalIx) (s : State) : Answer :=
  effect t (fun s => active s && gateOn s 16 && replaced s region.toNat && g ∈ leavesOn s region.toNat && (galAt s g).lost.isNone && substDue s region.toNat g)
    (fun s =>
      let r := region.toNat
      let s := audit r s
      let key := ((readerAt s r g false).bind (·.cutKey)).getD (nextKeySent s r g)
      s |> doIf (substDueAt s r g + periodOf s r < s.now) (countDev 0x60A 0) |> startFrame r g false key) s

/-! ## Monitor timers (R281, R283, R285) -/

/-- FRESHNESS_TIMEOUT (R281). -/
def execFreshnessTimeout (t : Nat) (region : Region) (g : GalIx) (s : State) : Answer :=
  effect t active (fun s =>
    let r := region.toNat
    match (monAt s r g).freshAt with
    | some a => if a + par1 s r 1 * 1000000 ≤ s.now then s |> modMon r g (fun m => { m with freshAt := none }) |> tripMon 1 r g else s
    | none => s) s

/-- LUMINANCE_CLEAR (R283). -/
def execLuminanceClear (t : Nat) (region : Region) (g : GalIx) (s : State) : Answer :=
  effect t active (fun s =>
    let r := region.toNat
    match (monAt s r g).overAt with
    | some a => if a + 1000000000 ≤ s.now then s |> modMon r g (fun m => { m with overAt := none }) |> clearMon 3 r g else s
    | none => s) s

/-- DRIVER_FAULT_EXPIRY (R285): reports older than 1 s no longer hold the monitor. -/
def execDriverFaultExpiry (t : Nat) (region : Region) (g : GalIx) (s : State) : Answer :=
  effect t active (fun s =>
    let r := region.toNat
    let l := (monAt s r g).faults
    let l' := l.filter fun f => s.now < f.2.2 + 1000000000
    if l'.length = l.length then s
    else s |> modMon r g (fun m => { m with faults := l' }) |> doIf l'.isEmpty (clearMon 5 r g)) s

/-! ## Sensors (R286, R490, R491) -/

/-- SENSOR_SAMPLE (R286, R490): a reading in 0.1 C; one at or above 130 C trips the internal-fault monitor. -/
def execSensorSample (t : Nat) (n : Fin 9) (v : Int) (s : State) : Answer :=
  effect t guarding (fun s =>
    let d := { s.diag with temps := s.diag.temps.set n.val v, tempSeen := s.diag.tempSeen ||| (1#9 <<< n.val) }
    let s := { s with diag := d }
    let low := d.temps.toList.all (· < 1200)
    let s := modSafety (fun f => { f with thermalLowAt := if !low then none else if f.thermalLowAt.isSome then f.thermalLowAt else some s.now }) s
    if v ≥ 1300 ∧ !s.safety.thermal then
      internalTrip 0x1 n.val (fun f => { f with thermal := true, thermalSafe := f.record.internal != .lockout, thermalClearAt := none }) s
    else s) s

/-- THERMAL_CLEAR (R286). -/
def execThermalClear (t : Nat) (s : State) : Answer :=
  effect t guarding (fun s =>
    match s.safety.thermalLowAt with
    | some a => if s.safety.thermal ∧ a + 1000000000 ≤ s.now then modSafety (fun f => { f with thermal := false, thermalClearAt := some s.now }) s else s
    | none => s) s

/-- HALL_LOST (R27, R286): nothing crosses the Hall any more, and the internal-fault monitor trips. -/
def execHallLost (t : Nat) (s : State) : Answer :=
  effect t (fun s => active s && gateOn s 16 && !s.hall.lost) (fun s =>
    { s with hall := { s.hall with lost := true } } |> internalTrip 0x2 0 fun f => { f with hallTrip := true }) s

/-- SUPPLY_SAMPLE (R491). -/
def execSupplySample (t : Nat) (n : Fin 12) (mv : Nat) (s : State) : Answer :=
  effect t active (fun s => { s with diag := { s.diag with supplies := s.diag.supplies.set n.val mv } }) s

/-! ## Ends of safe state (R35, R36, R289) -/

/-- SAFE_STATE_END (R289): 500 ms after the last reason cleared; the region's own PX return from its next cut mark. -/
def execSafeStateEnd (t : Nat) (region : Region) (s : State) : Answer :=
  effect t guarding (fun s =>
    let r := region.toNat
    let x := regSafe s r
    match x.clearAt with
    | some a =>
      if x.inSafe ∧ x.reasons.isEmpty ∧ a + 500000000 ≤ s.now then
        s |> modReg r (fun x => { x with inSafe := false, clearAt := none, since := 0 }) |> muteRegion r |> raiseRegion 0x0602 region (by16 r)
      else s
    | none => s) s

/-- Since when every side has a reference again and every gallery that a REFCLK loss affected is ACTIVE; none while one is not (R35). -/
def refBack (s : State) : Option Nat :=
  let sides := s.clocks.sides.toList
  let m := sides.foldl (fun m x => m ||| x.affected) 0#8
  let l := (positions m).map galOf
  if l.all (galActive s) && sides.all (!·.waiting) then
    some (((sides.map (·.backAt)) ++ l.map fun g => max (galAt s g).rx.at_ (galAt s g).tx.at_).foldl max 0)
  else none

/-- DEVICE_SAFE_END (R35, R286): SAFE for a REFCLK loss ends 500 ms after every affected gallery has retrained, and SAFE for heat 500 ms after the trip cleared. -/
def execDeviceSafeEnd (t : Nat) (s : State) : Answer :=
  effect t guarding (fun s0 =>
    let ref := s0.clocks.refFailure && (match refBack s0 with
      | some a => decide (a + 500000000 ≤ s0.now)
      | none => false)
    let hot := s0.safety.thermalSafe && (match s0.safety.thermalClearAt with
      | some a => decide (a + 500000000 ≤ s0.now)
      | none => false)
    let s := s0
      |> doIf ref (modSafety fun f => { f with refSafe := false })
      |> doIf ref (fun s => { s with clocks := { s.clocks with refFailure := false, sides := s.clocks.sides.map fun x => { x with affected := 0#8 } } })
      |> doIf hot (modSafety fun f => { f with thermalSafe := false, thermalClearAt := none })
    afterDevice s0 s) s

/-! ## Lock-out records and release (R294 to R296) -/

/-- The `target` of a safety log entry (R300). -/
def targetRegion (r : Nat) : Nat := 0x1000 + r

/-- The target of a group. -/
def targetGroup (g : Nat) : Nat := 0x2000 + g

/-- The target of the device. -/
def targetDevice : Nat := 0x3000

/-- LOCKOUT_RECORD_WRITE (R294): the oldest record that waits is written, outside a brown-out warning, with its log entry. -/
def execLockoutRecordWrite (t : Nat) (s : State) : Answer :=
  effect t (fun s => guarding s && s.power.brownout.isNone) (fun s =>
    match s.safety.recWait with
    | [] => s
    | (n, rec_) :: l =>
      s |> modSafety (fun f => { f with recWait := l, record := { f.record with lockRec := mput f.record.lockRec n rec_ } })
        |> safetyLog rec_.requester 0x03 (if n < 16 then targetGroup n else targetDevice) rec_.node 0 rec_.cause noDigest noDigest
            (by16 rec_.region ++ by8 rec_.gallery)) s

/-- The target of a release in the log. -/
def releaseTarget (scope group : Nat) : Nat := if scope = 0 then targetGroup group else if scope = 1 then 0x2FFF else targetDevice

/-- A release fails for a cause: 1 no press, 2 released early, 3 condition present (R296). -/
def failRelease (cause : Nat) (s : State) : State :=
  match s.safety.armed with
  | none => s
  | some a =>
    s |> modSafety (fun f => { f with armed := none })
      |> safetyLog a.requester 0x05 (releaseTarget a.scope a.group) a.node 0 0 noDigest noDigest (by8 a.scope ++ by8 a.group ++ by8 cause)
      |> raise 0x0605 (by8 a.scope ++ by8 a.group ++ by8 cause)

/-- Whether a group lies in the scope of a release. -/
def inScope (scope group g : Nat) : Bool := scope == 1 || (scope == 0 && g == group)

/-- Whether a lock-out-class condition of a scope is present (R295). -/
def condPresent (s : State) (scope group : Nat) : Bool :=
  if scope = 2 then
    let f := s.safety
    f.record.internal == .lockout && (f.thermal || f.hallTrip || f.tableTrip || s.clocks.refFailure || f.xinTrip)
  else s.safety.mon.any fun e =>
    let r := e.1 / 8
    inScope scope group (groupOf s r).val && (List.range 5).any fun m => e.2.trips.getLsbD m && classOf s r (m + 1) == .lockout

/-- Lock-out records are cleared; during a brown-out warning the clearing waits (R295, R461). -/
def clearRecords (f : Nat → Bool) (s : State) : State :=
  let held := (s.safety.record.lockRec.filter fun e => f e.1).map (·.1)
  let s := modSafety (fun x => { x with recWait := x.recWait.filter fun e => !f e.1 }) s
  if s.power.brownout.isSome then modSafety (fun x => { x with recClear := x.recClear ++ held }) s
  else modSafety (fun x => { x with record := { x.record with lockRec := x.record.lockRec.filter fun e => !f e.1 } }) s

/-- The state of a region's monitors on a gallery whose class is lock-out starts afresh; the others keep theirs (R295). -/
def clearLockMons (cls : Nat → MonClass) (m : Mon) : Mon :=
  let lock := fun (k : Nat) => cls k == .lockout
  let m := if lock 1 then { m with key := none, freshAt := none } else m
  let m := if lock 2 then { m with losses := 0 } else m
  let m := if lock 3 then { m with means := [], steps := [], overAt := none } else m
  let m := if lock 4 then { m with recent := [] } else m
  if lock 5 then { m with faults := [] } else m

/-- The lock-out release reset (R295): the records of the scope are cleared, the state of its lock-out-class monitors too, and their substitution ends; regions return from their next cut mark. -/
def releaseScope (scope group : Nat) (s0 : State) : State :=
  if scope = 2 then
    s0 |> modSafety (fun f => { f with devLock := none }) |> clearRecords (· == 16) |> afterDevice s0
  else
    let drop := fun g => g != 16 && inScope scope group g
    let within := fun r => inScope scope group (groupOf s0 r).val && (mget? s0.safety.grpLock (groupOf s0 r).val).isSome
    s0 |> modSafety (fun f => { f with grpLock := f.grpLock.filter fun e => !drop e.1,
                                       mon := f.mon.map fun e => if within (e.1 / 8) then (e.1, clearLockMons (classOf s0 (e.1 / 8)) e.2) else e })
      |> clearRecords drop
      |> forAll ((knownRegions s0).filter within) muteRegion

/-- The check 1 s after the edge, with the pin still low (R295, R296). -/
def checkRelease (s : State) : State :=
  match s.safety.armed with
  | some a =>
    match a.fell with
    | some f =>
      if f + 1000000000 ≤ s.now ∧ !s.pins.clrN then
        if condPresent s a.scope a.group then failRelease 3 s
        else s
          |> modSafety (fun f => { f with armed := none })
          |> releaseScope a.scope a.group
          |> endArmed
          |> safetyLog a.requester 0x04 (releaseTarget a.scope a.group) a.node 0 0 noDigest noDigest (by8 a.scope ++ by8 a.group)
          |> raise 0x0604 (by8 a.scope ++ by8 a.group)
      else s
    | none => s
  | none => s

/-- RELEASE_CHECK (R295). -/
def execReleaseCheck (t : Nat) (s : State) : Answer := effect t guarding checkRelease s

/-- RELEASE_ARM_EXPIRY (R296): 30 s without a press. -/
def execReleaseArmExpiry (t : Nat) (s : State) : Answer :=
  effect t guarding (fun s =>
    match s.safety.armed with
    | some a => if a.fell.isNone ∧ a.at_ + 30000000000 ≤ s.now then failRelease 1 s else s
    | none => s) s

/-- LOCKOUT_CLR_N_FALL (R295, R296): with a release armed the hold starts; without one the edge is counted. -/
def execLockoutClrNFall (t : Nat) (s : State) : Answer :=
  effect t (fun s => s.pins.clrN) (fun s =>
    let s := { s with pins := { s.pins with clrN := false } }
    if !guarding s then s
    else match s.safety.armed with
      | some a =>
        if a.at_ + 30000000000 < s.now then s |> failRelease 1 |> countDev 0x703 0
        else modSafety (fun f => { f with armed := some { a with fell := some s.now } }) s
      | none => countDev 0x703 0 s) s

/-- LOCKOUT_CLR_N_RISE (R296): a pin that rises before 1 s fails the release. -/
def execLockoutClrNRise (t : Nat) (s : State) : Answer :=
  effect t (fun s => !s.pins.clrN) (fun s =>
    let s := if guarding s then
        match s.safety.armed.bind (·.fell) with
        | some f => if s.now < f + 1000000000 then failRelease 2 s else checkRelease s
        | none => s
      else s
    { s with pins := { s.pins with clrN := true } }) s

/-- SESSION_TIMEOUT (R298): 60 s without a safety command. -/
def execSessionTimeout (t : Nat) (s : State) : Answer :=
  effect t guarding (fun s =>
    match s.safety.session with
    | some x => if x.2.2 + 60000000000 ≤ s.now then modSafety (fun f => { f with session := none }) s else s
    | none => s) s

end Sys2Proof.Machine
end

