-- ==== Sys2Proof/Machine/ClockCmds.lean ====
section
/-! DEFINITION. Commands of the clocks: references and their loss, multiplexers, PLLs, gates, REFOUT and meters (chapter 14, R521). -/

namespace Sys2Proof.Machine

/-- Change the reference of a side. -/
def modSide (sd : Fin 2) (f : SideRef → SideRef) (s : State) : State :=
  modClocks (fun c => { c with sides := c.sides.set sd.val (f c.sides[sd]) sd.isLt }) s

/-- Whether the clock supervisor acts: powered, not FROZEN, and XIN in use, so not in P3 or during OSC_WAIT (R428, R444, R449). -/
def supervising (s : State) : Bool := guarding s && !s.power.oscWaiting

/-- The code of a clock source (R393). -/
def srcCode : RefSrc → Nat
  | .a => 0
  | .b => 1
  | .xin => 2
  | .ring => 3
  | .fwd => 4

/-- The reference of a number: REFCLK_A, REFCLK_B, XIN. -/
def refOf (n : Nat) : RefSrc := if n = 0 then .a else if n = 1 then .b else .xin

/-- Whether a source is declared lost (R434). -/
def srcLost (s : State) (r : RefSrc) : Bool := srcCode r < 3 && s.clocks.refLost.getLsbD (srcCode r)

/-- The galleries of a side. -/
def sideGals (sd : Fin 2) : List GalIx := allGals.filter fun g => sideOf g == sd

/-- Both sides. -/
def bothSides : List (Fin 2) := [0, 1]

/-- The PLL an island's run clock comes from: core, DRAM, North transmit, South transmit (R429). -/
def pllOf (i : Nat) : Option Nat :=
  if i < 8 then none else if i < 12 then some 2 else if i < 16 then some 3 else if i = 19 then some 1 else if i < 21 then some 0 else none

/-- The islands that a PLL feeds. -/
def islandsOf (p : Nat) : List Nat := (List.range 22).filter fun i => pllOf i == some p

/-! ## Switching (R431, R432) -/

/-- A multiplexer has switched: an island whose PLL has locked then runs on its run clock. -/
def endSwitch (q : SwitchReq) (s : State) : State :=
  let up := q.toRun && (match pllOf q.island with
    | some p => s.clocks.pll.getLsbD p
    | none => true)
  modClocks (fun c => runBit s.now q.island up { c with switching := c.switching.filter (·.island ≠ q.island) }) s

/-- CLOCK_SWITCH_COMPLETE (R431). -/
def execClockSwitchComplete (t : Nat) (island : Fin 22) (s : State) : Answer :=
  effect t supervising (fun s =>
    match s.clocks.switching.find? (·.island == island.val) with
    | some q => if srcLost s q.incoming then s else endSwitch q s
    | none => s) s

/-- 1,024 cycles of an incoming clock in ns (R432). -/
def detectTime : RefSrc → Nat
  | .a => 6553
  | .b => 6553
  | .xin => 40960
  | .ring => 40960
  | .fwd => 0

/-- A gallery is held in RESET: transmitters idle, capacity 0 (R435, R447). -/
def parkGallery (g : GalIx) (s : State) : State :=
  s |> modGal g (fun G =>
        let rx := { G.rx with ts := .reset, at_ := s.now, tread := none, lanes := 0#8, active := 0#8, attempt := {}, stepTo := none, goal := none, prbsOn := false,
                              clkLock := false }
        let tx := { G.tx with ts := .reset, at_ := s.now, tread := none, lanes := 0#8, active := 0#8, stepTo := none, goal := none, clkIdle := true,
                              started := false, preamble := false }
        let lanes := G.lanes.map fun L => { L with txIdle := true, txWaking := none, block := .hunt, cw := .hunt, mkLock := false }
        { G with held := true, capTx := 0, capRx := 0, rx := rx, tx := tx, lanes := lanes, backoffUntil := none })
    |> emit (.idle g 0xFF#8 true)

/-- A gallery leaves ACTIVE or training for RESET without being fenced: what it held is lost as in R215 (R435). -/
def holdGallery (g : GalIx) (s : State) : State := s |> auditAll |> dropTraffic g |> switchAway g |> parkGallery g

/-- A gallery held in RESET is released into DETECT, without backoff, its terminations connected (R436, R450). -/
def releaseGallery (g : GalIx) (s : State) : State :=
  s |> modGal g (fun G => { G with held := false, fails := 0, terminated := true, highZ := false })
    |> modClocks (fun c => { c with localReset := islandBit (islandBit c.localReset g.val false) (g.val + 8) false })
    |> enterDetect g

/-- The scramblers of a gallery's transmit island start from their seed (R88). -/
def reseed (g : GalIx) (s : State) : State :=
  modGal g (fun G => { G with lanes := G.lanes.map fun L => { L with txScram := 0x3FFFFFFFFFFFFFF#58 } }) s

/-- The state of an island is lost (R432): gallery islands return to DETECT, the others begin empty. -/
def loseIsland (i : Nat) (s : State) : State :=
  if i < 16 then
    let g := galOf i
    let G := galAt s g
    let s := doIf (decide (i ≥ 8)) (reseed g) s
    if G.lost.isSome || G.held || G.off || (i < 8 && (G.rx.ts == .detect || G.rx.ts == .backoff)) then s else s |> holdGallery g |> releaseGallery g
  else if i = 16 then { s with hall := { lost := s.hall.lost, arrivalSeq := s.hall.arrivalSeq } }
  else if i = 17 then { s with cutter := { enabled := s.cutter.enabled } }
  else if i = 18 then modCorr (fun c => { c with pipes := c.pipes.map (fun p => { p with hold := none }), inQ := [], outQ := [], reader := [] }) s
  else if i = 19 then modCorr (fun c => { c with queue := [] }) s
  else if i = 20 then mezRestart { s with bridge := { sinkSeq := s.bridge.sinkSeq } }
  else s

/-- FORCED_SWITCH (R432): after 1,024 cycles of the incoming clock, or at once where that clock is lost; the island then stays in local reset until the clock returns. -/
def execForcedSwitch (t : Nat) (island : Fin 22) (s : State) : Answer :=
  effect t supervising (fun s =>
    match s.clocks.switching.find? (·.island == island.val) with
    | none => s
    | some q =>
      let gone := srcLost s q.incoming
      if !gone ∧ s.now < q.at_ + detectTime q.incoming then s
      else if gone ∧ s.clocks.localReset.getLsbD q.island then s
      else
        let s := s |> loseIsland q.island
          |> raise 0x0901 (by8 q.island ++ by8 (srcCode q.incoming))
          |> countDev 0xA01 q.island
        if gone then modClocks (fun c => { c with localReset := islandBit c.localReset q.island true, onRun := islandBit c.onRun q.island false }) s
        else endSwitch q s) s

/-! ## References (R434 to R437) -/

/-- A side loses its running reference (R435): its transmitters idle, receive islands park, galleries go to RESET, SAFE_N falls. -/
def loseSide (sd : Fin 2) (s : State) : State :=
  let gs := (sideGals sd).filter fun g => !(galAt s g).off && (galAt s g).lost.isNone && !(galAt s g).held
  let act := bitmap ((gs.filter (galActive s)).map (·.val))
  let off := fun (m : BitVec 22) => (sideGals sd).foldl (fun m g => islandBit (islandBit m g.val false) (g.val + 8) false) m
  let hold := fun (m : BitVec 22) => gs.foldl (fun m g => islandBit (islandBit m g.val true) (g.val + 8) true) m
  s |> forAll gs holdGallery
    |> forAll (sideGals sd) stopTests
    |> modSide sd (fun x => { x with waiting := true, reported := false, affected := x.affected ||| act })
    |> modClocks (fun c => { c with onRun := off c.onRun, localReset := hold c.localReset, pll := c.pll &&& ~~~(1#4 <<< (2 + sd.val)), refFailure := true })

/-- The sides that run on a reference. -/
def sidesOn (s : State) (r : RefSrc) : List (Fin 2) := bothSides.filter fun sd => s.clocks.sides[sd].running == r

/-- A reference is declared lost and counted (R434). -/
def declareLost (n : Nat) (s : State) : State :=
  s |> modClocks (fun c => { c with refLost := c.refLost ||| (1#3 <<< n), refHealthy := c.refHealthy &&& ~~~(1#3 <<< n) })
    |> countDev 0xA03 n

/-- REFCLK_LOST (R434, R435): the verdict holds while XIN is lost; in P2 nothing trips, and the side waits at exit (R466). -/
def execRefclkLost (t : Nat) (ref : Fin 2) (s : State) : Answer :=
  effect t supervising (fun s =>
    let r := refOf ref.val
    if srcLost s r ∨ srcLost s .xin then s
    else
      let s := declareLost ref.val s
      let l := sidesOn s r
      if l.isEmpty then s
      else if s.power.pstate ≠ .p0 then forAll l (fun sd => modSide sd fun x => { x with waiting := true, reported := false }) s
      else s |> forAll l loseSide |> internalTrip 0x4 ref.val (fun f => { f with refSafe := f.record.internal != .lockout })) s

/-- REFCLK_RESTORED (R434): a reference is healthy again and reported; islands held in local reset for it are released (R432). XIN also needs the core PLL. -/
def execRefclkRestored (t : Nat) (ref : Fin 3) (s : State) : Answer :=
  effect t supervising (fun s =>
    let r := refOf ref.val
    if s.clocks.refHealthy.getLsbD ref.val ∨ (ref.val ≠ 2 ∧ srcLost s .xin) ∨ (ref.val = 2 ∧ srcLost s .xin ∧ !s.clocks.pll.getLsbD 0) then s
    else
      let mine := s.clocks.switching.filter fun q => q.incoming == r && s.clocks.localReset.getLsbD q.island
      s |> modClocks (fun c => { c with refLost := c.refLost &&& ~~~(1#3 <<< ref.val), refHealthy := c.refHealthy ||| (1#3 <<< ref.val) })
        |> forAll mine (fun q s => s
            |> modClocks (fun c => { c with localReset := if q.island < 16 then c.localReset else islandBit c.localReset q.island false })
            |> endSwitch q)
        |> raise 0x0904 (by8 ref.val)) s

/-- The other reference of a side that is configured and healthy (R436). -/
def otherRef (s : State) (sd : Fin 2) : Option RefSrc :=
  let cur := s.clocks.sides[sd].running
  ([some s.live.refPrimary[sd], s.live.refBackup[sd]].filterMap id).find? fun r => r != cur && s.clocks.refHealthy.getLsbD (srcCode r)

/-- The firmware acts on sides that lost a reference and take the same other one, or none (R436). -/
def takeRef (ref : Nat) (sides : List (Fin 2)) (new : Option RefSrc) (s : State) : State :=
  if sides.isEmpty then s
  else
    let m := sides.foldl (fun m sd => m + 2 ^ sd.val) 0
    let move := fun (sd : Fin 2) (s : State) =>
      match new with
      | none => modSide sd (fun x => { x with reported := true }) s
      | some r =>
        s |> modSide sd (fun x => { x with reported := true, running := r })
          |> forAll ((sideGals sd).filter fun g => gateOn s (g.val + 8)) (fun g => requestSwitch (g.val + 8) true r)
    let first := sides.any fun sd => !s.clocks.sides[sd].reported
    s |> forAll sides move |> doIf first (raise 0x0903 (by8 ref ++ by8 m ++ by8 ((new.map srcCode).getD 0xFF)))

/-- REFERENCE_SWITCH (R436): the firmware acts on a lost running reference. A side reported to wait takes its other reference once that is restored, and raises no second event (R444). -/
def execReferenceSwitch (t : Nat) (ref : Fin 3) (s : State) : Answer :=
  effect t fwRuns (fun s =>
    let r := refOf ref.val
    if !srcLost s r then s
    else
      let l := (sidesOn s r).filter fun sd => s.clocks.sides[sd].waiting && (!s.clocks.sides[sd].reported || (otherRef s sd).isSome)
      let choice := l.map fun sd => (sd, otherRef s sd)
      forAll [some .a, some .b, some .xin, none] (fun c => takeRef ref.val ((choice.filter fun x => x.2 == c).map (·.1)) c) s) s

/-- XIN_LOST (R437): islands 16 to 20 go to the ring oscillator, the DRAM to self-refresh, REFOUT to high impedance, and the device to SAFE or LOCKOUT until reset. -/
def execXinLost (t : Nat) (s : State) : Answer :=
  effect t supervising (fun s =>
    if srcLost s .xin then s
    else
      let s := s |> declareLost 2
        |> modClocks (fun c => { c with pll := c.pll &&& 0b1100#4, refout := c.refout.map fun o => { o with locked := false } })
        |> modCorr (fun c => { c with selfRefresh := true })
      let l := sidesOn s .xin
      if s.power.pstate ≠ .p0 then forAll l (fun sd => modSide sd fun x => { x with waiting := true, reported := false }) s
      else
        s |> forAll (([16, 17, 18, 19, 20] : List Nat).filter (gateOn s)) (fun i => requestSwitch i false .ring)
          |> forAll l loseSide
          |> internalTrip 0x4 2 (fun f => { f with xinTrip := f.record.internal != .lockout })) s

/-! ## PLLs (R430) -/

/-- Islands whose PLL has locked and whose clock enable is on move from park to run. -/
def moveToRun (p : Nat) (s : State) : State :=
  forAll ((islandsOf p).filter (gateOn s)) (fun i => modClocks fun c =>
    runBit s.now i true { c with switching := c.switching.filter (·.island ≠ i) }) s

/-- The galleries of a side that wait in RESET for its reference go to DETECT (R436). -/
def sideBack (sd : Fin 2) (s : State) : State :=
  let s := modSide sd (fun x => { x with waiting := false, backAt := s.now }) s
  if s.power.seqDone then
    forAll ((sideGals sd).filter fun g => (galAt s g).held && !(galAt s g).off && (galAt s g).lost.isNone && gateOn s (g.val + 8)) releaseGallery s
  else s

/-- Whether a PLL can lock: after OSC_WAIT; a transmit PLL on a reference that is there and selected (R430, R436). The core PLL locks again before XIN counts as restored (R434). -/
def canLock (s : State) (p : Nat) : Bool :=
  let sd : Fin 2 := if p = 2 then 0 else 1
  !s.power.oscWaiting && (p < 2 || (!srcLost s s.clocks.sides[sd].running && !(s.clocks.switching.any fun q => pllOf q.island == some p)))

/-- PLL_LOCK (R430, R436): core, DRAM, North transmit, South transmit. -/
def execPllLock (t : Nat) (pll : Fin 4) (s : State) : Answer :=
  effect t (fun s => active s && canLock s pll.val && !s.clocks.pll.getLsbD pll.val) (fun s =>
    s |> modClocks (fun c => { c with pll := c.pll ||| (1#4 <<< pll.val) })
      |> moveToRun pll.val
      |> doIf (pll == 1 && gateOn s 19) (modCorr fun c => { c with selfRefresh := false })
      |> doIf (pll == 2) (sideBack 0)
      |> doIf (pll == 3) (sideBack 1)) s

/-- PLL_LOCK_LOSS (R430): the islands of the PLL move to their park clocks; a gallery whose transmit PLL is lost is lost, or trains anew. -/
def execPllLockLoss (t : Nat) (pll : Fin 4) (s : State) : Answer :=
  effect t (fun s => active s && s.clocks.pll.getLsbD pll.val) (fun s =>
    let park := if pll.val < 2 then RefSrc.ring else .xin
    let gs := if pll = 2 then sideGals 0 else if pll = 3 then sideGals 1 else []
    let leave := fun (g : GalIx) (s : State) =>
      if galActive s g then loseGallery g 0x1 s else if hopRuns s g then enterDetect g s else s
    s |> forAll gs leave
      |> modClocks (fun c => { c with pll := c.pll &&& ~~~(1#4 <<< pll.val) })
      |> forAll ((islandsOf pll.val).filter fun i => s.clocks.onRun.getLsbD i) (fun i => requestSwitch i false park)) s

/-! ## Gates (R438 to R440) -/

/-- The island of a gate: the bridge and port L lie in island 20. -/
def gateIsland (u : Nat) : Nat := if u < 22 then u else 20

/-- Close a gate. -/
def closeGate (u : Nat) (s : State) : State :=
  modClocks (fun c => { c with gateOn := c.gateOn &&& ~~~(1#24 <<< u), closing := c.closing.filter (·.unit ≠ u),
                               switching := if u < 22 then c.switching.filter (·.island ≠ u) else c.switching,
                               onRun := if u < 22 then islandBit c.onRun u false else c.onRun }) s

/-- Open a gate; the island runs on its run clock where its PLL has locked (R430). -/
def openGate (u : Nat) (s : State) : State :=
  let up := match pllOf u with
    | some p => s.clocks.pll.getLsbD p
    | none => false
  modClocks (fun c => runBit s.now u up { c with gateOn := c.gateOn ||| (1#24 <<< u), closing := c.closing.filter (·.unit ≠ u) }) s

/-- Ask a gate to close: at once on an island held in local reset (R444), else once the unit is quiet. -/
def requestGate (u : Nat) (s : State) : State :=
  if !gateOn s u then s
  else if u < 22 && s.clocks.localReset.getLsbD u then closeGate u s
  else modClocks (fun c => { c with closing := c.closing.filter (·.unit ≠ u) ++ [{ unit := u, at_ := s.now }] }) s

/-- GATE_QUIESCE_ACK (R440). -/
def execGateQuiesceAck (t : Nat) (unit : Fin 24) (s : State) : Answer :=
  effect t supervising (fun s => if s.clocks.closing.any (·.unit == unit.val) then closeGate unit.val s else s) s

/-- 256 cycles of a gallery island's clock in ns: the clock-lane frequency of its tread, or XIN where it is parked (R46, R429). -/
def quiesceTread (parked : Bool) (o : Option Tread) : Nat :=
  if parked then 10240 else [292, 146, 73, 37, 37, 19].getD ((o.map (·.val)).getD 6) 10240

/-- 256 cycles of a unit's clock in ns (R440). That a transmit island's clock is its clock lane's is a DESIGN CHOICE (note 127). -/
def quiesceLimit (s : State) (u : Nat) : Nat :=
  if u = 16 then 205 else if u = 17 then 410 else if u = 18 then 256 else if u = 19 then 320 else if u = 20 ∨ u ≥ 22 then 640
  else
    let G := galAt s (galOf u)
    quiesceTread (!s.clocks.onRun.getLsbD u) (if u < 8 then G.rx.tread else G.tx.tread)

/-- The access pending in a unit whose gate is forced fails: GATED to who waits, a late error 0x0A to a posted write (R439, R440). -/
def cutAccess (u : Nat) (s : State) : State :=
  if u = 23 then
    match s.portL.waiting with
    | [] => s
    | q :: l =>
      let s := { s with portL := { s.portL with waiting := l, recoverDue := true, lock := none } }
      match q.posted with
      | some id => endPosted id (some 0x0A) s
      | none => sendCompletion q.asker 1 0 [] s
  else if u = 19 then
    match s.corr.queue with
    | .write _ _ p np _ :: l =>
      let s := modCorr (fun c => { c with queue := l }) s
      let s := match p with
        | some id => endPosted id (some 0x0A) s
        | none => s
      match np with
      | some a => sendCompletion a 1 0 [] s
      | none => s
    | _ => s
  else s

/-- FORCED_GATE (R440). -/
def execForcedGate (t : Nat) (unit : Fin 24) (s : State) : Answer :=
  effect t supervising (fun s =>
    match s.clocks.closing.find? (·.unit == unit.val) with
    | some q =>
      if s.now < q.at_ + quiesceLimit s q.unit then s
      else s |> cutAccess q.unit |> closeGate q.unit |> raise 0x0902 (by8 (gateIsland q.unit)) |> countDev 0xA02 (gateIsland q.unit)
    | none => s) s

/-! ## OSC_WAIT, REFOUT, meters, ZCAL -/

/-- The shortest actual OSC_WAIT delay of a strap code in ns (R428). -/
def oscWaitMin (c : BitVec 2) : Nat := 800000 * 4 ^ c.toNat

/-- OSC_WAIT_END (R428): XIN is taken as stable. -/
def execOscWaitEnd (t : Nat) (s : State) : Answer :=
  effect t (fun s => alwaysOn s && s.power.oscWaiting && s.power.bootAt + oscWaitMin s.power.sampled.oscWait ≤ s.now) (fun s =>
    { s with power := { s.power with oscWaiting := false } }) s

/-- REFOUT_LOCK (R442). -/
def execRefoutLock (t : Nat) (out : Fin 2) (s : State) : Answer :=
  effect t (fun s => s.power.inReset.isNone && s.power.pstate != .p3 && s.clocks.refout[out].enabled && !srcLost s .xin) (fun s =>
    modClocks (fun c => { c with refout := c.refout.set out.val { c.refout[out] with locked := true } out.isLt }) s) s

/-- Whether a meter has no reading (R443): islands 0 to 21, REFCLK_A, REFCLK_B, XIN. -/
def meterBlank (s : State) (m : Nat) : Bool :=
  let off := fun (i : Nat) => !gateOn s i || !s.clocks.onRun.getLsbD i || decide (s.now < s.clocks.runAt.toList.getD i 0 + 1000000000)
  let fresh := fun (t : Nat) => s.now < t + 1000000000
  let healthy := fun (i : Nat) => s.clocks.refHealthy.getLsbD i
  if m < 8 then off m || fresh (galAt s (galOf m)).rx.at_
  else if m < 16 then off m || fresh (galAt s (galOf m)).tx.at_
  else if m < 21 then off m
  else if m = 21 then srcLost s .xin
  else if m = 22 then !healthy 0
  else if m = 23 then !healthy 1
  else !healthy 0 && !healthy 1

/-- METER_GATE (R443): a meter ends its gate with an offset in ppm. -/
def execMeterGate (t : Nat) (m : Fin 25) (v : BitVec 32) (s : State) : Answer :=
  effect t supervising (fun s =>
    modClocks (fun c => { c with meters := c.meters.set m.val (if meterBlank s m.val then 0x80000000#32 else v) m.isLt }) s) s

/-- ZCAL_CALIBRATION (R521): outside 180 to 220 ohms the factory trim is used. -/
def execZcalCalibration (t : Nat) (inRange : Bool) (s : State) : Answer :=
  effect t active (modClocks fun c => { c with zcalTrim := !inRange }) s

end Sys2Proof.Machine
end

