-- ==== Sys2Proof/Machine/PowerCmds.lean ====
section
/-! DEFINITION. Commands of power, reset and boot: rails, RESET_N, P2 and P3, brown-out, the boot sequencer, the boot ROM and the firmware's boot (chapter 15, R37, R41, R467 to R477). -/

namespace Sys2Proof.Machine

/-- Change the power unit. -/
def modPower (f : PowerUnit → PowerUnit) (s : State) : State := { s with power := f s.power }

/-- Change the Mezzanine. -/
def modMez (f : Mez → Mez) (s : State) : State := { s with mez := f s.mez }

/-- Change the non-volatile memory. -/
def modMram (f : Mram → Mram) (s : State) : State := { s with mram := f s.mram }

/-! ## Rails and reset pins (R453, R454) -/

/-- POWER_ON_RESET (R453, R454): every rail is up for 100 us, the VIO pad banks sense their range (R513), and the device enters BOOT; with TEST_MODE at 1 it stays in power-on reset. -/
def execPowerOnReset (t : Nat) (s : State) : Answer :=
  effect t (fun s => s.power.inReset == some .por && !s.pins.testMode) (fun s =>
    let s := modPower (fun p => { p with rails := 0b111111#6, porAt := s.now, oscWaiting := true, cold := true, vioRange := s.pins.vio33 }) s
    if s.pins.resetNLow.isSome then modPower (fun p => { p with inReset := some .pin }) s else releaseReset s) s

/-- RAIL_BELOW_THRESHOLD (R453, R465): VDD, VDDA, VDDT, VDDM or VIO. -/
def execRailBelowThreshold (t : Nat) (rail : Fin 5) (s : State) : Answer :=
  effect t (fun _ => true) (fun s =>
    s |> modPower (fun p => { p with rails := p.rails &&& ~~~(1#6 <<< rail.val) }) |> resetDevice .por (some .por)) s

/-- VDRAM_LOSS (R271, R453): the store is lost and its controller fenced until power-on reset. -/
def execVdramLoss (t : Nat) (s : State) : Answer :=
  effect t (fun s => s.power.inReset != some .por) (fun s =>
    let s := modPower (fun p => { p with rails := p.rails &&& 0b011111#6 }) s
    if guarding s then loseStore s
    else modCorr (fun c => { c with storeLost := true, dir := [], cells := [], fill := [], eccBad := [] }) s) s

/-- RESET_N_LOW (R454): the pin has been low for 10 us, and rises `hold` ns later. -/
def execResetNLow (t : Nat) (hold : Nat) (s : State) : Answer :=
  effect t (fun _ => true) (fun s =>
    let s := { s with pins := { s.pins with resetNLow := some (s.now + hold) } }
    match s.power.inReset with
    | some .por => s
    | some .extest => s
    | _ => resetDevice .pin (some .pin) s) s

/-! ## Boot (R456, R467, R474) -/

/-- BOOT_MODE selects hold in ROM recovery (R41). -/
def holdRom (s : State) : Bool := s.power.sampled.bootMode == 1#2

/-- The profile that is applied at boot: selected, its CRC holds, saved at interface level 4 (R458). -/
def bootProfile (s : State) : Option (Nat × Profile) :=
  match s.mram.selected with
  | some n =>
    let p := s.mram.profiles.toList.getD n {}
    if p.valid && p.level.toNat % 256 == 4 then some (n, p) else none
  | none => none

/-- Complete a fuse group of which 1 to 7 fuses are blown (R467). -/
def completeGroup (m : BitVec 8) : BitVec 8 := if m = 0#8 then m else 0xFF#8

/-- The erasure on entering RETURNED, and the reset after it (R469). -/
def eraseReturned (s : State) : State :=
  let old := if blown s.otp.secured ≥ 5 then 1 else 0
  let s := { s with
    otp := { s.otp with secret := BitVec.allOnes 256, custKey := BitVec.allOnes 384 },
    corr := { s.corr with dir := [], cells := [], fill := [], eccBad := [], queue := [], reader := [] },
    mram := { s.mram with profiles := Vector.replicate 4 {}, selected := none, erasing := false },
    log := { s.log with entries := [{ seq := 0, code := 0x0D02, severity := 4, deferred := false, gap := false, uptimeUs := uptime s / 1000,
                                      boot := s.mram.bootCount.toNat % 256, body := by8 old ++ by8 2 }],
                        staging := [], next := 1#32, gapDue := false, written := s.log.written + 1#32, lastWrite := some s.now } }
  resetDevice .command none s

/-- The fuses completed at boot; a RETURNED group completed here starts its erasure (R467, R469). -/
def completeFuses (s : State) : State :=
  let was := lifecycle s.otp
  let s := { s with otp := { s.otp with secured := completeGroup s.otp.secured, returned := completeGroup s.otp.returned } }
  let s := { s with dbg := { s.dbg with level := lifeLevel s.otp } }
  doIf (was != 2 && lifecycle s.otp == 2) (modMram fun m => { m with erasing := true }) s

/-- The safety record is loaded; with both copies bad the defaults hold without a password, and the device is in SAFE (R299). -/
def loadRecord (s : State) : State :=
  if s.safety.recBad = 0b11#2 then
    s |> modSafety (fun f => { f with record := {}, recBad := 0#2, recLostSafe := true, devSafeAt := s.now })
      |> raise 0x0608 []
      |> raise 0x0003 (by8 6 ++ by8 0)
  else s

/-- The lock-outs of the records, and of those that wait to be written, are in force from boot (R37, R466). -/
def bootLocks (s : State) : State :=
  let l := s.safety.recWait.foldl (fun m e => mput m e.1 e.2) s.safety.record.lockRec
  modSafety (fun f => { f with grpLock := l.filter fun e => e.1 < 16, devLock := mget? l 16 }) s

/-- The reference of a side after reset, without a profile (R70). -/
def defaultRef (s : State) : RefSrc := if s.power.sampled.refMode then .a else .xin

/-- Provisioning and references of the profile, or their values after reset; each side runs on its primary (R70, R456, R458). -/
def bootSettings (s : State) : State :=
  let live := match bootProfile s with
    | some (_, p) =>
      { s.live with refPrimary := p.live.refPrimary, refBackup := p.live.refBackup,
                    gal := Vector.ofFn fun g => { s.live.gal[g] with prov := p.live.gal[g].prov } }
    | none => { s.live with refPrimary := Vector.replicate 2 (defaultRef s), refBackup := Vector.replicate 2 none }
  let s := { s with live := live }
  forAll bothSides (fun sd => modSide sd fun x => { x with running := live.refPrimary[sd], waiting := srcLost s live.refPrimary[sd] }) s

/-- Enable a gallery that is provisioned on: its islands, and DETECT where its side has a reference (R19, R82). -/
def bootGallery (g : GalIx) (s : State) : State :=
  if (galSet s g).prov then
    let s := s |> openGate g.val |> openGate (g.val + 8)
    if s.clocks.sides[sideOf g].waiting then modGal g (fun G => { G with highZ := false }) s else releaseGallery g s
  else modGal g (fun G => { G with off := true, highZ := true, terminated := false }) s

/-- Whether the boot waits for the end of a brown-out warning: fuses are to be blown, or an erasure is to be resumed, before anything is forwarded (R467, R469, R484). -/
def bootWaits (s : State) : Bool :=
  s.power.brownout.isSome && (s.mram.erasing || completeGroup s.otp.secured != s.otp.secured || completeGroup s.otp.returned != s.otp.returned)

/-- BOOT_SEQUENCER_RUN (R456 steps 3 to 6, R19, R37, R467, R469). -/
def execBootSequencerRun (t : Nat) (s : State) : Answer :=
  effect t (fun s => active s && !s.power.seqDone && !s.power.oscWaiting && s.clocks.pll.getLsbD 0 && s.clocks.pll.getLsbD 1 && !bootWaits s) (fun s =>
    let s := completeFuses s
    if s.mram.erasing then eraseReturned s
    else
      s |> loadRecord
        |> doIf s.power.cold (modMram fun m => { m with bootCount := m.bootCount + 1#32 })
        |> bootSettings
        |> doIf s.power.storeRetained (fun s => s |> openGate 19 |> modCorr fun c => { c with selfRefresh := false })
        |> bootLocks
        |> forAll allGals bootGallery
        |> openGate 16
        |> openGate 20
        |> modPower (fun p => { p with seqDone := true, cold := false })
        |> modMez (fun m => { m with run := if holdRom s then .recovery else .rom, readopt := false })) s

/-- The security version the device demands: the count of blown anti-rollback fuses (R470). -/
def rollbackCount (o : Otp) : Nat := ((List.range 64).filter fun k => o.antiRollback.getLsbD k).length

/-- The length of an image that its header states. -/
def imageLength (b : List Byte) : Nat := 352 + field b 16 4

/-- Header fields, key slot and signature of an image (R471, R472), but for the anti-rollback counter. -/
def imageSigned (o : Otp) (b : List Byte) : Bool :=
  let n := b.length - 96
  let k := byteAt b 13
  field b 0 4 == 0x4C594E46 && field b 4 2 == 1 && field b 6 2 == 0x7232 && b.length == imageLength b && k < 2 &&
    blown (o.fwRevoked.toList.getD k 0#8) < 5 && signedBy (o.fwKey.toList.getD k 0#384) (b.take n) (b.drop n)

/-- Whether an image is authentic (R472). -/
def authentic (o : Otp) (b : List Byte) : Bool := imageSigned o b && rollbackCount o ≤ byteAt b 12

/-- The checks of a slot beyond its state (R474); the image programmed at manufacture passes them while its security version does (note 9). -/
def slotChecks (o : Otp) (x : Slot) : Bool :=
  if x.shipped then rollbackCount o ≤ x.secVersion
  else x.image.length == x.length && sha384Num x.image == x.digest && authentic o x.image

/-- Whether a slot is TRIAL or CONFIRMED. -/
def slotLive (x : Slot) : Bool := x.state == .trial || x.state == .confirmed

/-- Whether a slot is valid (R474). -/
def slotValid (o : Otp) (x : Slot) : Bool := slotLive x && slotChecks o x

/-- A slot after the boot ROM's check, and whether the firmware reports it rolled back (R474). -/
def checkSlot (o : Otp) (x : Slot) : Slot × Bool :=
  if x.state = .committing ∨ (x.state = .trial ∧ x.trialResets ≥ 3) then ({ x with state := .invalid }, true)
  else if slotLive x && !slotChecks o x then ({ x with state := .invalid }, false)
  else (x, false)

/-- The newest valid of two slots (R474). -/
def newestSlot (a b : Slot) (va vb : Bool) : Option Nat :=
  if va && vb then some (if a.generation ≥ b.generation then 0 else 1) else if va then some 0 else if vb then some 1 else none

/-- A slot as its record reads: ERASED where neither copy holds (R473). -/
def readSlot (x : Slot) : Slot := if x.copiesBad = 0b11#2 then {} else x

/-- The slot of a number. -/
def fwSlot (s : State) (n : Nat) : Slot := readSlot (s.mram.slots.toList.getD n {})

/-- Change a slot; both copies of its record are written (R473). -/
def modFwSlot (n : Nat) (f : Slot → Slot) (s : State) : State :=
  modMram (fun m => { m with slots := Vector.ofFn fun k => if k.val = n then { f (readSlot m.slots[k]) with copiesBad := 0#2 } else m.slots[k] }) s

/-- Whether a slot fails a check of R474 that is logged without an event. -/
def slotFails (o : Otp) (x : Slot) : Bool := slotLive x && !(x.state == .trial && decide (3 ≤ x.trialResets)) && !slotChecks o x

/-- The failure of a slot is logged; what the entry holds is a free value (R474; note 134). -/
def logSlot (n : Nat) (s : State) : State :=
  toLog (Config.slotLog n 0).toNat (Config.slotLog n 1).toNat ((List.range 16).map fun k => Config.slotLog n (2 + k)) s

/-- BOOT_ROM_SLOT_CHECK (R456 step 7, R474, R475): a change of a slot record waits for the end of a brown-out warning. -/
def execBootRomSlotCheck (t : Nat) (s : State) : Answer :=
  effect t (fun s => active s && s.power.seqDone && gateOn s 20 && s.mez.run == .rom) (fun s =>
    if holdRom s then modMez (fun m => { m with run := .recovery, slot := none }) s
    else
      let a := checkSlot s.otp (fwSlot s 0)
      let b := checkSlot s.otp (fwSlot s 1)
      if s.power.brownout.isSome && (a.1 != fwSlot s 0 || b.1 != fwSlot s 1) then s
      else
        let back := (if a.2 then [0] else []) ++ (if b.2 then [1] else [])
        let s := s |> modMram (fun m => { m with slots := #v[a.1, b.1] })
          |> doIf (slotFails s.otp (fwSlot s 0)) (logSlot 0) |> doIf (slotFails s.otp (fwSlot s 1)) (logSlot 1)
        match newestSlot a.1 b.1 (slotLive a.1) (slotLive b.1) with
        | some n => modMez (fun m => { m with run := .starting, slot := some n, level := (fwSlot s n).level, rolledBack := m.rolledBack ++ back }) s
        | none => modMez (fun m => { m with run := .recovery, slot := none, rolledBack := m.rolledBack ++ back }) s) s

/-- The firmware enables the Cutter, the correction engine, the DRAM controller, the bridge and port L (R19, R456). -/
def enableUnits (s : State) : State :=
  let s := if gateOn s 19 ∨ s.corr.storeLost then s
    else s |> openGate 19 |> modCorr fun c => { c with selfRefresh := false }
  forAll ([17, 18, 22, 23].filter fun u => !gateOn s u) openGate s
    |> fun s => { s with cutter := { s.cutter with enabled := true }, portL := { s.portL with recoverDue := true } }

/-- The live settings of REFOUT reach the outputs (R442). -/
def driveRefout (s : State) : State :=
  let f := fun (k : Fin 2) (o : RefOut) =>
    { o with enabled := s.live.refoutOn[k], locked := o.locked && s.live.refoutOn[k], depth := s.live.refoutDepth[k], rate := s.live.refoutRate[k] }
  modClocks (fun c => { c with refout := Vector.ofFn fun k => f k c.refout[k] }) s

/-- REFOUT and the filter follow the live settings (R423, R441, R442). -/
def applyOutputs (s : State) : State := driveRefout { s with portL := { s.portL with filter := s.live.twFilter } }

/-- The rest of the selected profile is applied; in straight-only the placement mode stays OFF (R41, R456, R458). -/
def applyProfile (s : State) : State :=
  match bootProfile s with
  | some (n, p) =>
    let s := { s with live := { p.live with cutMode := if straightOnly s then .off else p.live.cutMode }, mez := { s.mez with profileApplied := some n } }
    forAll allGals (fun g => applyMask g (galSet s g).idleMask (galSet s g).stopClock) s
  | none => { s with mez := { s.mez with profileApplied := none } }

/-- The firmware serves the rings: rolled-back slots are reported, and a TRIAL slot begins its 60 s (R474, R477). -/
def startServing (s : State) : State :=
  let back := s.mez.rolledBack
  let s := modMez (fun m => { m with run := .running, rolledBack := [],
                                     trialSince := m.slot.bind fun n => if (fwSlot s n).state = .trial then some s.now else none }) s
  forAll back (fun n => raise 0x0C02 (by8 n)) s

/-- The body of `system.booted` (R393). -/
def bootedBody (s : State) : List Byte :=
  by8 (s.mez.slot.getD 0xFF) ++ by8 s.power.sampled.bootMode.toNat ++
    by8 (b2n (!s.safety.record.lockRec.isEmpty) + 2 * b2n s.power.storeRetained + 4 * b2n s.mez.profileApplied.isSome) ++
    by8 (s.mez.profileApplied.getD 0xFF) ++ by32 s.mez.level.toNat

/-- A watchdog that fired is reported once the firmware serves (R27, R39). -/
def reportWatchdog (s : State) : State :=
  let body := by32 s.mez.watchdogs.toNat ++ by8 (b2n s.mez.cutDiscarded)
  s |> modMez (fun m => { m with watchdogDue := false, cutDiscarded := false }) |> doIf s.mez.watchdogDue (raise 0x0001 body)

/-- FIRMWARE_BOOT_COMPLETE (R456 step 8). -/
def execFirmwareBootComplete (t : Nat) (s : State) : Answer :=
  effect t (fun s => active s && s.mez.run == .starting && !s.mez.readopt && !s.mez.halted) (fun s =>
    let s := s |> startServing |> applyProfile |> applyOutputs |> enableUnits |> reportWatchdog
    raise 0x0002 (bootedBody s) s) s

/-! ## Watchdog and re-adoption (R39, R338, R360, R477) -/

/-- FIRMWARE_READOPT (R39, R338, R360): the restarted firmware serves again; the watchdog and posted writes it cut are reported. -/
def execFirmwareReadopt (t : Nat) (s : State) : Answer :=
  effect t (fun s => active s && s.mez.run == .starting && s.mez.readopt && !s.mez.halted) (fun s =>
    let cut := s.mez.postedCut
    s |> startServing
      |> enableUnits
      |> reportWatchdog
      |> modMez (fun m => { m with readopt := false, postedCut := [] })
      |> forAll cut (fun w => lateError w.asker w.address w.count 0x0B)) s

/-- The anti-rollback fuses blown up to a count, lowest first (R477). -/
def blowTo (n : Nat) : Nat → BitVec 64 → BitVec 64
  | 0, m => m
  | k + 1, m =>
    let i := 63 - k
    let have_ := ((List.range 64).filter fun j => m.getLsbD j).length
    blowTo n k (if have_ < n && !m.getLsbD i then m ||| (1#64 <<< i) else m)

/-- TRIAL_CONFIRM (R477): 60 s of service confirm a TRIAL slot, and the counter reaches its security version; the blowing waits for the end of a brown-out warning. -/
def execTrialConfirm (t : Nat) (s : State) : Answer :=
  effect t (fun s => fwRuns s && s.power.brownout.isNone) (fun s =>
    match s.mez.trialSince, s.mez.slot with
    | some a, some n =>
      if a + 60000000000 ≤ s.now ∧ (fwSlot s n).state = .trial then
        { (modFwSlot n (fun x => { x with state := .confirmed }) s) with otp := { s.otp with antiRollback := blowTo (fwSlot s n).secVersion 64 s.otp.antiRollback } }
          |> modMez fun m => { m with trialSince := none }
      else s
    | _, _ => s) s

/-- RETURNED_ERASURE (R469). -/
def execReturnedErasure (t : Nat) (s : State) : Answer :=
  effect t (fun s => guarding s && s.mram.erasing && s.power.brownout.isNone) eraseReturned s

/-! ## P2 and P3 (R447 to R451, R466) -/

/-- The waiting `power.state_set` answers (R447). -/
def answerEntry (status : Nat) (s : State) : State := answerWaiting (fun w => w.op == 0x900) status [] s

/-- Whether the message queues of every gallery are empty, both ways (R447). -/
def messagesGone (s : State) : Bool :=
  allGals.all fun g => ([Cls.pm, .np, .cp] : List Cls).all fun k => (cget (galAt s g).bobbin k).isEmpty && (cget (galAt s g).egress k).isEmpty

/-- The far ends of ACTIVE galleries are sent back to DETECT: RETRAIN with `full` 16 times, 64 slots apart (R447). -/
def sendFar (g : GalIx) (s : State) : State :=
  let id := ((galAt s g).rx.reqId + 1) % 65536
  let r : RetrainBlk := { tread := 0#3, full := 1#1, reason := 0#4, reqId := BitVec.ofNat 16 id }
  s |> modRx g (fun x => { x with reqId := id })
    |> sendRep g .any 64 (some 15) (.retrain r)
    |> passSlots g 1024

/-- A posted write that waits for port L when it is gated fails (R327, R439). -/
def failPortL (s : State) : State :=
  let l := s.portL.waiting.filterMap (·.posted)
  { s with portL := { s.portL with waiting := [], lock := none, lostFor := none, recoverDue := true } }
    |> forAll l (fun id => endPosted id (some 0x0A))

/-- The data path stops for P2 or P3: what is queued is discarded without gaps, galleries are held in RESET, and every island but the always-on one is gated (R447, R448). -/
def sleep (s : State) : State :=
  let act := bitmap ((allGals.filter (galActive s)).map (·.val))
  let gs := allGals.filter fun g => !(galAt s g).off && (galAt s g).lost.isNone
  let free := fun (g : GalIx) => !(galAt s g).held
  let held := bitmap ((gs.filter free).map (·.val))
  s |> forAll (allGals.filter (galActive s)) sendFar
    |> failPortL
    |> forAll gs (fun g s => s |> clearTraffic g |> parkGallery g |> modGal g (fun G => { G with terminated := false, highZ := true }))
    |> fun s => { s with
        hall := { s.hall with ports := Vector.replicate 10 {}, grants := Vector.replicate 10 none, mgmtOut := [], mgmtIn := [] },
        corr := { s.corr with inQ := [], outQ := [], reader := [], selfRefresh := true, gapUntilCut := [] },
        bridge := { s.bridge with prefetch := [], remote := none, remoteTag := 0 },
        cutter := { s.cutter with running := none, again := false, discard := false },
        clocks := { s.clocks with gateOn := 0x200000#24, onRun := 0x200000#22, pll := 0#4, switching := [], closing := [] },
        power := { s.power with pstate := .p2, since := s.now, entry := none, heldGalleries := act, p2Held := held, p2Gates := s.clocks.gateOn } }
    |> discardPending

/-- Every lease ends for P3, with its entry in the event log, and the log reaches MRAM (R447, R449). -/
def endForP3 (s : State) : State :=
  let s := endLeases (fun _ => true) (some 4) s
  let l := s.log.entries ++ s.log.staging
  { s with log := { s.log with entries := l.drop (l.length - 16384), staging := [], written := s.log.written + BitVec.ofNat 32 s.log.staging.length } }

/-- P2_DRAIN_END (R40, R447): within 2 ms the message queues have emptied or the entry fails; a safety condition or an armed release refuses it; else the command answers OK and the state is entered. -/
def execP2DrainEnd (t : Nat) (s : State) : Answer :=
  effect t active (fun s =>
    match s.power.entry with
    | none => s
    | some e =>
      let refuse := fun (s : State) =>
        s |> modPower (fun p => { p with entry := none }) |> answerEntry 0x0A |> forAll (allGals.filter (galActive s)) updateLimits |> (fun s => if s.live.cutMode = .automatic then startRun s else s)
      if !messagesGone s ∧ s.now < e.startedAt + 2000000 then s
      else if !messagesGone s ∨ e.safetyArose ∨ s.safety.armed.isSome then refuse s
      else
        let s := answerEntry 0 s
        if e.target = 2 then sleep s
        else s |> endForP3 |> sleep |> resetDevice .p3 none |> modPower (fun p => { p with pstate := .p3, oscWaiting := false })) s

/-- The monitors' timers start again (R459). -/
def restartMonitors (s : State) : State :=
  let f := fun (m : Mon) => { m with freshAt := m.freshAt.map fun _ => s.now, overAt := m.overAt.map fun _ => s.now,
                                     faults := m.faults.map fun x => (x.1, x.2.1, s.now) }
  modSafety (fun x => { x with mon := x.mon.map fun e => (e.1, f e.2) }) s

/-- The expiry of announcement and claim records starts again (R450). -/
def restartRecords (s : State) : State :=
  let f := fun (x : RegionIn) => { x with ann := x.ann.map (fun e => (e.1, { e.2 with at_ := s.now })), claims := x.claims.map fun c => { c with at_ := s.now } }
  { s with cutter := { s.cutter with regions := s.cutter.regions.map fun e => (e.1, f e.2) } }

/-- The device leaves P2 (R450): PLLs lock, the DRAM wakes, islands run, and galleries held for P2 enter DETECT where their side has a reference. -/
def leaveP2 (s : State) : State :=
  let xin := !srcLost s .xin
  let up := fun (sd : Fin 2) => !srcLost s s.clocks.sides[sd].running
  let pll := (if xin then 0b0011#4 else 0#4) ||| (if up 0 then 0b0100#4 else 0#4) ||| (if up 1 then 0b1000#4 else 0#4)
  let s := modClocks (fun c => { c with pll := pll }) s
  let s := modPower (fun p => { p with pstate := .p0, since := s.now, cutterHold := some (s.now + 100000000) }) s
  let s := forAll ((List.range 24).filter fun u => s.power.p2Gates.getLsbD u) openGate s
  let s := doIf (gateOn s 19 && xin) (modCorr fun c => { c with selfRefresh := false }) s
  let s := forAll bothSides (fun sd => modSide sd fun x => { x with waiting := !up sd }) s
  let gs := allGals.filter fun g => s.power.p2Held.getLsbD g.val && !s.clocks.sides[sideOf g].waiting
  s |> forAll gs releaseGallery
    |> modPower (fun p => { p with p2Held := 0#8 })
    |> restartMonitors
    |> restartRecords

/-- The device leaves P3: XIN starts, OSC_WAIT runs, and the device boots (R451). -/
def leaveP3 (s : State) : State :=
  s |> modPower (fun p => { p with pstate := .p0, since := s.now, bootAt := s.now, oscWaiting := true, sampled := s.pins.straps })
    |> modSafety (fun f => { f with grpLock := [], devLock := none })

/-- A wake (R409, R410, R450, R451). -/
def wake (s : State) : State :=
  match s.power.pstate with
  | .p0 => s
  | .p2 => leaveP2 s
  | .p3 => leaveP3 s

/-- WAKE_N_FALL (R450, R451): the pin stays low for `low` ns. -/
def execWakeNFall (t : Nat) (low : Nat) (s : State) : Answer :=
  effect t (fun _ => true) (fun s =>
    let s := { s with pins := { s.pins with wakeLow := s.now + low } }
    if alwaysOn s then wake s else s) s

/-- CUTTER_HOLD_EXPIRY (R450): 100 ms after the exit from P2 the Cutter may run. -/
def execCutterHoldExpiry (t : Nat) (s : State) : Answer :=
  effect t active (fun s =>
    match s.power.cutterHold with
    | some d =>
      if d ≤ s.now then
        let s := modPower (fun p => { p with cutterHold := none, heldGalleries := 0#8 }) s
        if s.live.cutMode = .automatic then startRun s else s
      else s
    | none => s) s

/-! ## Brown-out (R460 to R462) -/

/-- BROWNOUT_WARNING (R460). -/
def execBrownoutWarning (t : Nat) (s : State) : Answer :=
  effect t (fun s => s.power.inReset != some .por && s.power.brownout.isNone) (fun s =>
    modPower (fun p => { p with brownout := some s.now, brownSustained := false }) s) s

/-- BROWNOUT_SUSTAINED (R462): a warning has lasted 10 ms. -/
def execBrownoutSustained (t : Nat) (s : State) : Answer :=
  effect t guarding (fun s =>
    match s.power.brownout with
    | some a => if a + 10000000 ≤ s.now ∧ !s.power.brownSustained then s |> modPower (fun p => { p with brownSustained := true }) |> countDev 0xA05 0 else s
    | none => s) s

/-- The target slot of an update is set WRITING, and its previous image is erased (R476). -/
def eraseSlot (s : State) : State := { (modFwSlot s.upd.target (fun x => { state := .writing, generation := x.generation }) s) with upd := { s.upd with eraseDue := false } }

/-- A chunk is written at its offset; one rewritten replaces the old bytes (R476). -/
def putChunk (off : Nat) (data : List Byte) (s : State) : State :=
  { s with upd := { s.upd with bytes := ((List.range data.length).zip data).foldl (fun m e => mput m (off + e.1) e.2) s.upd.bytes } }

/-- What an update has waiting for the end of a brown-out warning is written (R461, R476). -/
def writeUpdate (s : State) : State :=
  let l := s.upd.chunks
  s |> doIf s.upd.eraseDue eraseSlot
    |> (fun s => { s with upd := { s.upd with chunks := [] } })
    |> forAll l fun e => putChunk e.1 e.2

/-- BROWNOUT_END (R461, R462): the deferred writes can run, the log entries that waited are marked, and the warning is reported and counted. -/
def execBrownoutEnd (t : Nat) (s : State) : Answer :=
  effect t (fun s => s.power.inReset != some .por) (fun s =>
    match s.power.brownout with
    | none => s
    | some a =>
      let long := s.power.brownSustained || a + 10000000 < s.now
      let fresh := long && !s.power.brownSustained
      let s := modPower (fun p => { p with brownout := none, brownSustained := false }) s
      if guarding s then
        s |> writeWaiting
          |> writeUpdate
          |> (fun s => { s with log := { s.log with staging := s.log.staging.map fun e => { e with deferred := true } } })
          |> doIf fresh (countDev 0xA05 0)
          |> countDev 0xA04 0
          |> raise 0x0905 (by32 (min ((s.now - a) / 1000) (2 ^ 32 - 1)) ++ by8 (b2n long))
      else s) s

end Sys2Proof.Machine
end

