-- ==== Sys2Proof/Machine/Serve.lean ====
section
/-! DEFINITION. How a mailbox command is served: its domain and lease, debug levels, repeated commands, dry runs, staging, waiting, the response, and what the ring hardware and the boot ROM answer (R341, R345 to R350, R354 to R362, R367 to R371). -/

namespace Sys2Proof.Machine

/-! ## What a command asks for (R352, R370) -/

/-- The lease of a command. -/
inductive Need where
  /-- none; a domain it belongs to -/
  | free (d : Nat)
  /-- none; it belongs to the gallery of request byte 0 -/
  | freeGallery
  /-- none, and it belongs to no domain -/
  | alone
  /-- the caller's own token -/
  | token
  /-- a domain -/
  | dom (d : Nat)
  /-- the domain of the gallery of request byte 0 -/
  | gallery
  /-- SAFETY for a LEAVE alone (R290) -/
  | order
  deriving DecidableEq, Repr

/-- What a body answers: a status with a payload and the state it leaves, or that the command waits, for how many ns at most. -/
inductive Reply where
  | done (status : Nat) (payload : List Byte) (s : State)
  | wait (limit : Nat) (s : State)

/-- A command: its opcode, its lease, the lengths its payload may have, whether it may be staged, and what it does. -/
structure Cmd where
  op : Nat
  need : Need
  len : Nat
  max : Nat := len
  stage : Bool := false
  body : Req → State → Reply

/-- A status without a payload, and nothing changed. -/
def fail (status : Nat) (s : State) : Reply := .done status [] s

/-- OK with a payload. -/
def okay (payload : List Byte) (s : State) : Reply := .done 0 payload s

/-- Go on where a condition holds, else a status. -/
def guardR (c : Bool) (status : Nat) (s : State) (k : Reply) : Reply := if c then k else fail status s

/-- Field of a request payload. -/
def arg (q : Req) (off n : Nat) : Nat := field q.payload off n

/-- The gallery domain that request byte 0 names. -/
def galDom (q : Req) : Option Nat := if arg q 0 1 < 8 && !q.payload.isEmpty then some (arg q 0 1 + 1) else none

/-- The domain a command belongs to (R355). -/
def domainOf (n : Need) (q : Req) : Option Nat :=
  match n with
  | .free d => some d
  | .freeGallery => galDom q
  | .alone => none
  | .token => none
  | .dom d => some d
  | .gallery => galDom q
  | .order => some 0x0B

/-- Whether a command needs the lease of its domain; the update commands need none in RECOVERY (R346, R386). -/
def needsDomain (c : Cmd) (q : Req) (s : State) : Bool :=
  match c.need with
  | .dom _ => !(romServes s && 0xC00 ≤ c.op && c.op ≤ 0xC05)
  | .gallery => true
  | .order => arg q 0 1 == 2
  | _ => false

/-- Whether a request carries the caller's own token. -/
def ownToken (q : Req) (s : State) : Bool := q.token != 0#32 && tokenOf s (holderOf q.host q.src) == some q.token

/-- Every dispatched command of a domain that carries its holder's token renews the lease (R355). -/
def renewFor (c : Cmd) (q : Req) (s : State) : State :=
  match domainOf c.need q with
  | some d =>
    match (leaseAt s d).holder with
    | some w => if q.token ≠ 0#32 ∧ tokenOf s w = some q.token then renewLease d s else s
    | none => s
  | none => s

/-- A safety command of the host that opened the session keeps it open; one that comes 60 s after the last finds it ended (R298). -/
def touchSession (c : Cmd) (q : Req) (s : State) : State :=
  match s.safety.session with
  | some x =>
    if x.2.2 + 60000000000 ≤ s.now then modSafety (fun f => { f with session := none }) s
    else if c.op / 256 = 6 ∧ tokenOf s (holderOf q.host q.src) = some x.2.1 then modSafety (fun f => { f with session := some (x.1, x.2.1, s.now) }) s else s
  | none => s

/-- The lease step of R346, with the debug levels of R341: 0 where the command passes. -/
def leaseStep (c : Cmd) (q : Req) (s : State) : Nat :=
  if q.host = .debug ∧ (s.dbg.level = 0 ∨ (s.dbg.level = 1 ∧ (needsDomain c q s || c.op = 0x100))) then 6
  else match c.need with
    | .token => if ownToken q s then 0 else 2
    | n =>
      if needsDomain c q s then
        match domainOf n q with
        | some d => if ownToken q s && holds s (holderOf q.host q.src) d then 0 else 2
        | none => 3
      else 0

/-- Length and staging (R357, R368, R370): 0 where they hold. -/
def shapeStep (c : Cmd) (q : Req) : Nat :=
  if q.payload.length < c.len ∨ c.max < q.payload.length then 3 else if q.stage ∧ !c.stage then 3 else 0

/-- What a refusal at the lease step counts as a violation (R482): a domain lease missing, and `lease.acquire` from the debug host below D2. -/
def countRefusal (c : Cmd) (status : Nat) (q : Req) (s : State) : State :=
  if q.dryRun then s
  else if status = 2 ∧ needsDomain c q s then countDev 0xB01 0 s
  else if status = 6 ∧ c.op = 0x100 then countDev 0xB02 0 s
  else s

/-! ## Answers (R345, R347) -/

/-- A command answers: the response is written, and unless it was a dry run it is remembered. -/
def answer (c : Cmd) (q : Req) (status : Nat) (payload : List Byte) (s : State) : State :=
  let token := if c.op = 0x100 ∧ status = 0 ∧ !q.dryRun then field payload 0 4 else q.token.toNat
  let b := reqRsp c.op q 0 status token payload
  s |> doIf (!q.dryRun) (modRing q.host fun r => { r with dup := some (q.seq, { bytes := b, src := q.src, at_ := s.now }) })
    |> pushRsp q.host q.src b

/-- The status of a body. -/
def Reply.status : Reply → Nat
  | .done st _ _ => st
  | .wait _ _ => 0

/-- Hold a checked command as a staged change (R357). -/
def stageIt (c : Cmd) (q : Req) (s : State) : State :=
  let st := (c.body q s).status
  if ((s.mbx.staged.filter fun e => e.token == q.token).length) ≥ 64 then answer c q 7 [] s
  else if st ≠ 0 then answer c q st [] s
  else s |> doIf (!q.dryRun) (fun s => { s with mbx := { s.mbx with staged := s.mbx.staged ++ [{ token := q.token, op := c.op, req := q }] } })
         |> answer c q 0 []

/-- How much longer the limits of waiting commands are: 27 times while XIN is lost (R437). -/
def slower (s : State) : Nat := if srcLost s .xin then 27 else 1

/-- Run a command that has passed the checks before its own. -/
def runCmd (c : Cmd) (q : Req) (s : State) : State :=
  if q.stage then stageIt c q s
  else if q.dryRun then answer c q (c.body q s).status [] s
  else match c.body q s with
    | .done st p s' => answer c q st p s'
    | .wait l s' => modRing q.host (fun r => { r with wait := some { op := c.op, req := q, at_ := s.now, due := s.now + l * slower s, mark := s.mbx.frame } }) s'

/-- A repeated command is answered from memory (R347). -/
def answerAgain (q : Req) (r : Response) (s : State) : State :=
  s |> countDev 0x103 (cmdRing q.host) |> pushRsp q.host q.src (withFlags r.bytes (frFlags r.bytes ||| 4))

/-- The firmware, or in RECOVERY the boot ROM, takes a request (R346, R347, R362). -/
def serveFw (c : Cmd) (q : Req) (s : State) : State :=
  let again := match (ringAt s q.host).dup with
    | some (n, r) => if n = q.seq then some r else none
    | none => none
  match again with
  | some r => answerAgain q r s
  | none =>
    let s := s |> renewFor c q |> touchSession c q
    let l := leaseStep c q s
    if l ≠ 0 then s |> countRefusal c l q |> answer c q l []
    else if shapeStep c q ≠ 0 then answer c q (shapeStep c q) [] s
    else runCmd c q s

/-! ## Orders toward safe (R290, R358, R361) -/

/-- The cycle of the Mezzanine, 2.5 ns, in which a time falls (R349). -/
def mezCycle (t : Nat) : Nat := 2 * t / 5

/-- The node of a requester in the safety change log: 0 for local hosts (R300). -/
def nodeOf (q : Req) : BitVec 16 := (holderOf q.host q.src).src

/-- The target of an order in the log (R300). -/
def orderTarget (scope n : Nat) : Nat := if scope = 0 then targetRegion (n % 4096) else if scope = 1 then targetGroup (n % 16) else targetDevice

/-- Regions of a group. -/
def regionsIn (s : State) (g : Nat) : List Nat := (List.range 4096).filter fun r => (groupOf s r).val == g

/-- A SAFE order (R34, R290). -/
def orderSafe (scope n : Nat) (s : State) : State :=
  let c := s.mbx.cycle
  if scope = 0 then addReason (n % 4096) (.host c) 7 0xFF true s
  else if scope = 1 then
    let known := knownRegions s
    s |> noteSafety |> forAll (regionsIn s n) fun r => addReason r (.group c) 7 0xFF (r ∈ known)
  else
    let was := devSafe s || devLocked s
    s |> modSafety (fun f => { f with devOrders := f.devOrders ++ [c], devSafeAt := if was then f.devSafeAt else s.now })
      |> noteSafety
      |> doIf (!was) (raise 0x0003 (by8 5 ++ by8 0))

/-- A LOCKOUT order (R290, R294): of the group, the region's group or the device. -/
def orderLock (scope n : Nat) (q : Req) (s : State) : State :=
  let rec_ : LockRec := { cause := 7, region := 0xFFFF, gallery := 0xFF, at_ := s.now, requester := hostCode q.host, node := nodeOf q }
  if scope = 0 then lockGroup (groupOf s (n % 4096)).val rec_ s
  else if scope = 1 then lockGroup n rec_ s
  else lockDevice 5 0 rec_ s

/-- A non-containable fault persists (R27, R35). -/
def faultPersists (s : State) : Bool := s.safety.hallTrip || s.safety.tableTrip || s.safety.xinTrip || s.clocks.refFailure

/-- A LEAVE order withdraws the host-order reasons of its scope and of every scope below that were in force when its doorbell rang (R290, R358). -/
def orderLeave (scope n : Nat) (s0 : State) : State :=
  let c := s0.mbx.cycle
  let own := fun (q : SafeReason) => match q with
    | .host a => decide (a < c)
    | _ => false
  let all := fun (q : SafeReason) => match q with
    | .host a => decide (a < c)
    | .group a => decide (a < c)
    | _ => false
  let held := s0.safety.reg.map (·.1)
  if scope = 0 then dropReasons (n % 4096) own s0
  else if scope = 1 then forAll (held.filter fun r => (groupOf s0 r).val == n) (fun r => dropReasons r all) s0
  else
    s0 |> modSafety (fun f => { f with devOrders := f.devOrders.filter fun a => c ≤ a, recLostSafe := false })
       |> forAll held (fun r => dropReasons r all)
       |> afterDevice s0

/-- The arguments of an order hold: action, scope and group (R380). -/
def orderArgs (q : Req) : Bool :=
  q.payload.length == 4 && arg q 0 1 ≤ 2 && arg q 1 1 ≤ 2 && (arg q 1 1 != 1 || arg q 2 2 % 4096 < 16)

/-- Carry out an order, with its entry in the safety change log (R290, R300, R535). -/
def runOrder (q : Req) (s : State) : State :=
  let action := arg q 0 1
  let scope := arg q 1 1
  let n := arg q 2 2 % 4096
  let s := if action = 0 then orderSafe scope n s else if action = 1 then orderLock scope n q s else orderLeave scope n s
  safetyLog (hostCode q.host) 0x06 (orderTarget scope n) (nodeOf q) 0 0 noDigest noDigest (q.payload.take 4) s

/-- Whether a request is an order that the ring hardware passes on: SAFE, or LOCKOUT while a password is set (R361). -/
def hwOrder (op : Nat) (q : Req) (s : State) : Bool :=
  op == 0x605 && orderArgs q && (arg q 0 1 == 0 || (arg q 0 1 == 1 && s.safety.record.pwHash.isSome))

/-! ## The ring hardware and the boot ROM (R360 to R362) -/

/-- The ring hardware answers a request: an order toward safe is carried out, in RECOVERY the answer is NOT_IN_STATE, else BUSY; counted (R360 to R362, R366). -/
def serveHw (op : Nat) (q : Req) (good : Bool) (s : State) : State :=
  let order := good && hwOrder op q s
  s |> countDev 0x104 (cmdRing q.host)
    |> doIf order (runOrder q)
    |> hwAnswer q.host q.src op q.tag.toNat q.token.toNat q.seq.toNat (if order then 0 else if romServes s then 0x0A else 1)

/-- Opcodes the boot ROM serves on the service host's rings (R362). -/
def romOp (op : Nat) : Bool := op == 0x001 || (0xC00 ≤ op && op ≤ 0xC05)

/-- Whether a host's rings are served by the firmware, or in RECOVERY by the boot ROM; the ring hardware answers every other one (R360, R362). -/
def softHost (h : HostId) (s : State) : Bool := fwRuns s || (romServes s && h == .service)

/-- Whether a request is for the firmware, or in RECOVERY for the boot ROM. -/
def softServes (q : Req) (s : State) : Bool := softHost q.host s

/-- A request whose frame has passed its own checks is served. -/
def serve (c : Cmd) (q : Req) (s : State) : State :=
  if fwRuns s then serveFw c q s
  else if softServes q s ∧ c.op ≠ 0x605 then
    if romOp c.op then serveFw c q s else answer c q 0x0A [] s
  else serveHw c.op q true s

/-- Whether the dispatcher, or the hardware of the rings, can take a command of a host now (R349, R350, R498). -/
def canTake (h : HostId) (s : State) : Bool :=
  let r := ringAt s h
  active s && gateOn s 20 && r.wait.isNone && decide (r.rsps.length < 8)

/-! ## Frames in the rings (R344 to R346) -/

/-- The request that a frame carries. -/
def reqOf (h : HostId) (f : Submitted) : Req :=
  let b := f.bytes
  { host := h, src := f.src, gallery := f.gallery, tag := BitVec.ofNat 8 (frTag b), dryRun := bitOf (frFlags b) 0, stage := bitOf (frFlags b) 1,
    token := BitVec.ofNat 32 (frToken b), seq := BitVec.ofNat 32 (frSeq b), payload := (b.drop 16).take (frLen b) }

/-- Whether the CRC-32C of a frame holds. -/
def frameCrc (b : List Byte) : Bool :=
  let n := b.length - 4
  20 ≤ b.length && field b n 4 == (crc32c (b.take n)).toNat

/-- Whether the fields of a frame are in order: the length agrees with the frame, and reserved bits are 0 (R345, R346). -/
def frameFields (b : List Byte) : Bool :=
  frLen b ≤ 1008 && field b 4 2 / 2048 == 0 && frFlags b / 4 == 0 && byteAt b 6 == 0 && byteAt b 7 == 0 && b.length == 20 + 4 * ceilDiv (frLen b) 4

/-! ## The order of dispatch (R349, R358) -/

/-- Whether a frame is an order toward safe state. -/
def safeFrame (f : Submitted) : Bool := frameCrc f.bytes && frameFields f.bytes && frOp f.bytes == 0x605 && frLen f.bytes == 4 && byteAt f.bytes 16 ≤ 1

/-- What could be taken from the rings of some hosts: each ring's oldest frame, and every order toward safe, with its host and place. -/
def candidates_ (hs : List HostId) (s : State) : List (HostId × Nat × Submitted) :=
  hs.flatMap fun h =>
    let l := (ringAt s h).cmds
    ((List.range l.length).zip l).filterMap fun e => if e.1 = 0 ∨ safeFrame e.2 then some (h, e.1, e.2) else none

/-- What is taken next from the rings of some hosts: orders toward safe first, then by the cycle of the doorbell; hosts in their order of priority stand first in the list. -/
def nextOf (hs : List HostId) (s : State) : Option (HostId × Nat × Submitted) :=
  let key := fun (e : HostId × Nat × Submitted) => (if safeFrame e.2.2 then 0 else 1, mezCycle e.2.2.at_)
  (candidates_ hs s).foldl (fun b e => match b with
    | none => some e
    | some x => if (key e).1 < (key x).1 ∨ ((key e).1 = (key x).1 ∧ (key e).2 < (key x).2) then some e else b) none

/-- A frame leaves its ring, its time and place those of the command being served. -/
def popFrame (h : HostId) (i : Nat) (f : Submitted) (s : State) : State :=
  let s := modRing h (fun r => { r with cmds := r.cmds.eraseIdx i, head := r.head + 1#8 }) s
  { s with mbx := { s.mbx with cycle := mezCycle f.at_, frame := f.arrival } }

/-- The ring hardware takes a frame and answers it (R360, R361). -/
def hwFrame (h : HostId) (i : Nat) (f : Submitted) (s : State) : State :=
  s |> popFrame h i f |> serveHw (frOp f.bytes) (reqOf h f) (frameCrc f.bytes && frameFields f.bytes)

/-- Up to so many frames of rings that no software serves are answered. -/
def answerFrames : Nat → State → State
  | 0, s => s
  | n + 1, s =>
    match nextOf (allHosts.filter fun h => canTake h s && !softHost h s) s with
    | some (h, i, f) => answerFrames n (hwFrame h i f s)
    | none => s

/-- The ring hardware answers at once every frame it can take from the rings that no software serves: at a doorbell, and when the firmware stops to run (R360 to R362). -/
def ringHardware (s : State) : State := answerFrames 32 s

/-- A row that names a command: the dispatcher takes it, rung in the cycle of its time. -/
def command (t : Nat) (c : Cmd) (q : Req) (s : State) : Answer :=
  effect t (canTake q.host) (fun s => serve c q { s with mbx := { s.mbx with cycle := mezCycle s.now, frame := s.hall.arrivalSeq } }) s

/-! ## Counters (R372, R394) -/

/-- A kind of counter: its id and its instances. -/
abbrev CtrRow := Nat × List Nat

/-- The records of counters of a gallery and lane: id, instance, value, in ascending order. -/
def ctrRecords (rows : List CtrRow) (g lane : Nat) (s : State) : List (Nat × Nat × Nat) :=
  rows.flatMap fun r => r.2.map fun i => (r.1, i, ctrAt s r.1 g lane i)

/-- A record in the layout of R372. -/
def ctrBytes (e : Nat × Nat × Nat) : List Byte := leBytes 2 e.1 ++ leBytes 1 e.2.1 ++ leBytes 1 (ctrWidth e.1) ++ leBytes 8 e.2.2

/-- Clear counters. -/
def clearCtrs (l : List Nat) (s : State) : State := { s with ctr := l.foldl merase s.ctr }

/-- A `.counters` command over records, each with the key it is held under (R372). -/
def countersReply (recs : List ((Nat × Nat × Nat) × Nat)) (canClear : Bool) (q : Req) (s : State) : Reply :=
  let start := arg q 4 2
  let part := (recs.drop start).take 83
  let next := start + part.length
  let body := leBytes 2 recs.length ++ leBytes 2 (if next < recs.length then next else 0xFFFF) ++ leBytes 4 0 ++ part.flatMap fun e => ctrBytes e.1
  okay body (if canClear && bitOf (arg q 2 1) 0 then clearCtrs (part.map (·.2)) s else s)

/-- The records of device counters. -/
def devRecords (rows : List CtrRow) (s : State) : List ((Nat × Nat × Nat) × Nat) :=
  rows.flatMap fun r => r.2.map fun i => ((r.1, i, ctrAt s r.1 0 0 i), ctrKey r.1 0 0 i)

/-- A `.counters` command over device counters. -/
def devCounters (rows : List CtrRow) (q : Req) (s : State) : Reply := countersReply (devRecords rows s) true q s

end Sys2Proof.Machine
end

