-- ==== Sys2Proof/Machine/MailOps.lean ====
section
/-! DEFINITION. The rings as hosts reach them: the mailbox window of in-band nodes, doorbells, and responses taken and released (R342, R343, R348). -/

namespace Sys2Proof.Machine

/-- The host that a gallery belongs to: link host North, second link host South (R341). -/
def hostOfGal (g : GalIx) : HostId := if isNorth g then .link else .second

/-- A frame is submitted to a host's command ring, with its place in the order of arrival; a full ring takes nothing; while no software serves the ring its hardware answers at once (R343, R360). -/
def submit (h : HostId) (bytes : List Byte) (src : BitVec 16) (gallery : Option GalIx) (arrival : Nat) (s : State) : State × Bool :=
  let r := ringAt s h
  if r.cmds.length ≥ 8 then (s, false)
  else (ringHardware (modRing h (fun r => { r with cmds := r.cmds ++ [{ bytes, at_ := s.now, src, gallery, arrival }], tail := r.tail + 1#8 }) s), true)

/-! ## The command aperture (R342, R343) -/

/-- Whether the aperture of a host is bound to another source. -/
def boundToOther (r : Ring) (src : BitVec 16) : Bool :=
  match r.bound with
  | some b => b.1 != src
  | none => false

/-- A write into the command aperture, at an offset from its first byte: the first one binds it. -/
def apertureWrite (h : HostId) (src : BitVec 16) (off : Nat) (data : List Byte) (s : State) : State :=
  if boundToOther (ringAt s h) src then s
  else modRing h (fun r =>
    { r with bound := if r.bound.isSome then r.bound else some (src, s.now),
             aperture := ((List.range data.length).zip data).foldl (fun m e => if off + e.1 < 1792 then mput m (off + e.1) e.2 else m) r.aperture }) s

/-- The frame in the command aperture: as many bytes as its `length` asks for. -/
def apertureFrame (r : Ring) : List Byte :=
  let b := fun (n : Nat) => mget 0#8 r.aperture n
  let len := ((b 4).toNat + 256 * (b 5).toNat) % 2048
  (List.range (20 + 4 * ceilDiv (min len 1008) 4)).map b

/-- A doorbell: the frame is submitted and the aperture unbound; with the ring full the aperture keeps it and `db_refused` is set (R343). -/
def doorbell (g : GalIx) (src : BitVec 16) (arrival : Nat) (s : State) : State :=
  let h := hostOfGal g
  let r := ringAt s h
  if boundToOther r src then s
  else
    let x := submit h (apertureFrame r) src (some g) arrival s
    if x.2 then modRing h (fun r => { r with aperture := [], bound := none }) x.1
    else modRing h (fun r => { r with dbRefused := true }) s

/-! ## Responses (R343) -/

/-- The responses kept for a source. -/
def responsesFor (r : Ring) (src : BitVec 16) : List Response := r.rsps.filter fun x => x.src == src

/-- The oldest response of a source is dropped. -/
def rspAck (h : HostId) (src : BitVec 16) (s : State) : State :=
  match responsesFor (ringAt s h) src with
  | x :: _ => modRing h (fun r => { r with rsps := r.rsps.erase x }) s
  | [] => s

/-! ## The mailbox window (R342) -/

/-- The registers of the window, bytes 0x000 to 0x013. -/
def mailRegs (s : State) (g : GalIx) (src : BitVec 16) : List Byte :=
  let r := ringAt s (hostOfGal g)
  by8 (levelNow s % 256) ++ by8 (b2n (!isNorth g)) ++ by8 0x88 ++ by8 0 ++
    [r.head, r.tail] ++ by8 (2 * b2n r.dbRefused + 4 * b2n (boundToOther r src)) ++ by8 0 ++
    by32 (responsesFor r src).length ++ by32 r.evts.length ++ by32 (b2n (mezBusy s) + 2 * b2n (romServes s))

/-- A byte of the mailbox window as a node reads it. -/
def mailByte (s : State) (g : GalIx) (src : BitVec 16) (off : Nat) : Byte :=
  if off < 0x100 then (mailRegs s g src).getD off 0#8
  else if off < 0x800 then 0#8
  else match responsesFor (ringAt s (hostOfGal g)) src with
    | x :: _ => x.bytes.getD (off - 0x800) 0#8
    | [] => 0#8

/-- A write to a register byte of the window: what has a behaviour of its own acts, everything else is ignored (R9, R342). -/
def mailRegWrite (g : GalIx) (src : BitVec 16) (arrival off : Nat) (b : Byte) (s : State) : State :=
  let h := hostOfGal g
  if off = 6 then
    s |> doIf (b.getLsbD 1) (modRing h fun r => { r with dbRefused := false })
      |> doIf (b.getLsbD 0) (doorbell g src arrival)
  else if off = 9 then doIf (b.getLsbD 0) (rspAck h src) s
  else s

/-- A non-posted write in the mailbox window: the status of its completion, and the state it leaves; while the aperture is bound to another source, RETRY. -/
def mailWrite (g : GalIx) (src : BitVec 16) (arrival off : Nat) (data : List Byte) (s : State) : Nat × State :=
  let r := ringAt s (hostOfGal g)
  let aperture := off < 0x800 && 0x100 < off + data.length
  let bell := off ≤ 6 && 6 < off + data.length && (data.getD (6 - off) 0#8).getLsbD 0
  if (aperture || bell) && boundToOther r src then (8, s)
  else if aperture && (off % 4 != 0 || data.length % 4 != 0) then (3, s)
  else
    let low := ((List.range data.length).map (off + ·)).zip data
    let s := forAll (low.filter fun e => e.1 < 0x100) (fun e s => mailRegWrite g src arrival e.1 e.2 s) s
    let k := 0x100 - off
    let s := if aperture then apertureWrite (hostOfGal g) src (off - 0x100) ((data.drop k).take (0x800 - max off 0x100)) s else s
    (0, s)

end Sys2Proof.Machine
end

