-- ==== Sys2Proof/Machine/BridgeOps.lean ====
section
/-! DEFINITION. The bridge: the address map and its windows, requests and their tags, the four targets, prefetch buffers, and store writes that complete (R257, R262, R317 to R334, R421, R534). -/

namespace Sys2Proof.Machine

/-! ## The address map and windows (R317 to R320) -/

/-- Bits of a window. -/
def winBits (w : BitVec 128) (hi lo : Nat) : Nat := bits w.toNat hi lo

/-- A bit of a window. -/
def winFlag (w : BitVec 128) (k : Nat) : Bool := w.getLsbD k

/-- The first address of the store. -/
def storeFirst : Nat := 0x40000000

/-- The ranges of the address map, by target: first address and size. -/
def mapRanges : List (Nat × Nat) := [(0, 0x1000), (0x10000, 0x100), (storeFirst, 0x4000000), (0x80000000, 0x800000)]

/-- The target whose range holds an address. -/
def targetOf (a : Nat) : Option Nat := (List.range 4).find? fun k => let r := mapRanges.getD k (0, 0); r.1 ≤ a && a < r.1 + r.2

/-- The base of a window. -/
def winBase (w : BitVec 128) : Nat := winBits w 47 0

/-- The size of a window. -/
def winSize (w : BitVec 128) : Nat := 2 ^ winBits w 52 48

/-- Whether a window applies to the first byte of an access of a source. -/
def winApplies (w : BitVec 128) (src : BitVec 16) (a : Nat) : Bool :=
  let mask := w.extractLsb' 96 16
  winFlag w 53 && winBase w ≤ a && a < winBase w + winSize w && (src &&& mask == w.extractLsb' 80 16 &&& mask)

/-- The window of an access; none where it lies outside every window, or past the end of its own (R318). -/
def decodeWindow (s : State) (src : BitVec 16) (a n : Nat) : Option (BitVec 128) :=
  (s.live.windows.toList.reverse.find? fun w => winApplies w src a).bind fun w => if a + n ≤ winBase w + winSize w then some w else none

/-! ## Requests (R309, R321, R324) -/

/-- A READ or WRITE as the bridge sees it. -/
structure Access where
  asker : Asker
  arrival : Nat
  address : Nat
  count : Nat
  elem : Nat
  lock : Bool
  data : List Byte
  deriving DecidableEq, Repr

/-- The access of a request parcel that arrived by a port, with its place in the order of arrival. -/
def accessOf (p : Parcel) (port arrival : Nat) : Access :=
  let attr := (pAttr p).toNat
  let n := field p.payload 6 2 % 8192
  { asker := askerOf p port, arrival, address := field p.payload 0 6, count := n, elem := 2 ^ (attr % 4), lock := bitOf attr 2,
    data := (p.payload.drop 8).take n }

/-- Whether a READ is well formed (R321). -/
def readFormed (p : Parcel) (x : Access) : Bool :=
  p.payload.length == 8 && 1 ≤ x.count && x.count ≤ 4096 && x.address % x.elem == 0 && x.count % x.elem == 0

/-- Whether a WRITE is well formed (R321). -/
def writeFormed (p : Parcel) (x : Access) : Bool :=
  1 ≤ x.count && x.count ≤ 4088 && p.payload.length == 8 + 4 * ceilDiv x.count 4 && x.address % x.elem == 0 && x.count % x.elem == 0

/-- The unit of a window in bytes. -/
def winUnit (w : BitVec 128) : Nat := 2 ^ (winBits w 63 62 + 1)

/-- The rules of R321 and R416 that depend on the window of an access. -/
def fitsWindow (w : BitVec 128) (x : Access) : Bool :=
  (winBits w 61 60 != 1 || x.elem ≤ winUnit w) &&
    (targetOf (winBase w) != some 3 ||
      (x.count ≤ 256 && x.address % 65536 < 256 ^ winBits w 65 64 && x.address / 65536 % 128 != 0 && x.address / 65536 % 128 < 0x78))

/-- A byte address of an access as it reaches the target of its window (R330). -/
def landsAt (w : BitVec 128) (x : Access) (k : Nat) : Nat := swapAddr (winBits w 61 60) (winUnit w) x.elem (x.address + k)

/-- Whose completion an item on its way out of the device is: destination and tag of a completion that the device originated, but for one that refuses a 17th source. -/
def ownCompletion (i : QItem) : Option (BitVec 16 × Nat) :=
  match i.item with
  | .parcel p => if i.port = 9 ∧ pCls p = .cp ∧ pKind p = 3 ∧ i.origin = 0 then some (pDest p, (pTag p).toNat) else none
  | _ => none

/-- The tag table: each outstanding request's source and tag, from those in the bridge and the completions that have not left (R324). -/
def tagTable (s : State) : List (BitVec 16 × Nat) :=
  let mk := fun (a : Asker) => (a.src, a.tag.toNat)
  (s.portL.waiting.filter (·.posted.isNone)).map (fun r => mk r.asker) ++
    s.corr.queue.filterMap (fun w => match w with
      | .write _ _ _ (some a) _ => some (mk a)
      | _ => none) ++
    (s.hall.mgmtOut ++ allGals.flatMap fun g => (galAt s g).egress.cp).filterMap ownCompletion

/-- The sources that hold a place of the tag table (R324). -/
def tagSources (s : State) : List (BitVec 16) := ((tagTable s).map (·.1) ++ (s.portL.lock.map (·.src)).toList).eraseDups

/-- What R324 answers a non-posted request: 3 BAD_REQUEST for its tag, 8 RETRY for a 17th source, else 0. -/
def tagCheck (s : State) (a : Asker) : Nat :=
  if a.tag.toNat > 63 ∨ (a.src, a.tag.toNat) ∈ tagTable s then 3
  else if a.src ∉ tagSources s ∧ 16 ≤ (tagSources s).length then 8
  else 0

/-- A request is answered with a status alone; RETRY is counted. -/
def refuse (a : Asker) (status : Nat) (s : State) : State :=
  s |> doIf (status == 8) (countDev 0x803 0) |> sendCompletion a status 0 []

/-- A request that the tag table turns away; the completion that refuses a 17th source takes no place in it (R324). -/
def refuseTag (a : Asker) (status : Nat) (s : State) : State :=
  let n := s.hall.arrivalSeq
  let s := refuse a status s
  if status = 8 then
    { s with hall := { s.hall with mgmtOut := s.hall.mgmtOut.map fun i => if i.arrival = n then { i with origin := 1 } else i } }
  else s

/-- The requests on their way to the bridge, by ingress port and place in the order of arrival: those in the port 9 queue, and PM and NP in the bobbins. -/
def toBridge (s : State) : List (Nat × Nat × Parcel) :=
  s.hall.mgmtIn ++ allGals.flatMap fun g =>
    let B := (galAt s g).bobbin
    (B.pm ++ B.np).filterMap fun i => match i.item with
      | .parcel p => if 9 ∈ i.targets then some (i.port, i.arrival, p) else none
      | _ => none

/-! ## The correction store (R257, R262, R264, R266, R326) -/

/-- Whether an extent of a region holds a store byte. -/
def inExtents (d : DirRec) (a : Nat) : Bool :=
  let within := fun (base units : Nat) => base * 65536 ≤ a && a < (base + units) * 65536
  within d.base d.units || within d.sBase d.sUnits || (match d.newExt with
    | some x => within x.base x.units
    | none => false)

/-- Whether the store queue holds a write back that entered at `arrival`: a mark of a commit of its region that entered before it, or a write of the same extent that stands before it and waits (R266, R273). -/
def heldBack (s : State) (before : List StoreWrite) (a arrival : Nat) : Bool :=
  (s.corr.queue.any fun w => match w with
    | .commit r n => decide (n ≤ arrival) && inExtents (dirOf s r) a
    | .safeCommit r n => decide (n ≤ arrival) && inExtents (dirOf s r) a
    | .write _ _ _ _ _ => false) ||
  before.any fun w => match w with
    | .write b _ _ _ _ => (extentOwner s (b / 65536)).map (·.base) == (extentOwner s (a / 65536)).map (·.base) && writeWaits s b
    | _ => false

/-- The first write of the queue that can reach the store, with what stands before and after it. -/
def firstReady (s : State) : List StoreWrite → List StoreWrite → Option (List StoreWrite × StoreWrite × List StoreWrite)
  | _, [] => none
  | before, w :: r =>
    match w with
    | .write a _ _ _ n => if writeWaits s a || heldBack s before a n then firstReady s (before ++ [w]) r else some (before, w, r)
    | _ => firstReady s (before ++ [w]) r

/-- A write reaches the store, or is refused there (R262, R326, R327). -/
def performWrite (a : Nat) (bs : List Byte) (posted : Option Nat) (np : Option Asker) (s : State) : State :=
  let why := writeRefused s a bs.length
  let s := if why.isSome then countDev 0x607 0 s else storeWrite a bs s
  let s := match posted with
    | some id => endPosted id why s
    | none => s
  match np with
  | some k => sendCompletion k (if why.isSome then 0x0B else 0) 0 [] s
  | none => s

/-- The first write that can reaches the store. -/
def storeStep (s : State) : State :=
  match firstReady s [] s.corr.queue with
  | some (before, .write a bs posted np _, r) => s |> modCorr (fun c => { c with queue := before ++ r }) |> performWrite a bs posted np
  | _ => s

/-- Every write that can reaches the store. -/
def drainStore (s : State) : State := (List.range s.corr.queue.length).foldl (fun s _ => storeStep s) s

/-- The store writes of an access, one for each run of bytes; the last ends it. -/
def storeWrites (w : BitVec 128) (x : Access) (posted : Option Nat) (np : Option Asker) : List StoreWrite :=
  let l := runsOf (toTarget (winBits w 61 60) (winUnit w) x.elem x.address x.data)
  (List.range l.length).zip l |>.map fun e =>
    let last := e.1 + 1 = l.length
    .write (e.2.1 - storeFirst) e.2.2 (if last then posted else none) (if last then np else none) x.arrival

/-- A read of the store: its data, or none where it meets a double-bit error. -/
def readStore (w : BitVec 128) (x : Access) (s : State) : Option (List Byte) :=
  if badWord s (x.address - storeFirst) x.count then none
  else some ((List.range x.count).map fun k => storeByte s.corr (landsAt w x k - storeFirst))

/-! ## Prefetch (R333, R334) -/

/-- The buffer that a READ of a source continues: none older than 10 us. -/
def bufferFor (s : State) (src : BitVec 16) (a : Nat) : Option Prefetch :=
  s.bridge.prefetch.find? fun b => b.src == src && b.addr == a && decide (s.now < b.at_ + 10000)

/-- The bytes that a buffer serves take their place in what the READ returns; the buffers of the source that it does not continue go, and the one read ahead, or what is left, comes first. -/
def withBuffer (src : BitVec 16) (a : Nat) (data ahead : List Byte) (s : State) : List Byte × State :=
  let b := bufferFor s src a
  let held := (b.map (·.bytes)).getD []
  let n := data.length
  let rest := held.drop n
  let new : List Prefetch :=
    if !ahead.isEmpty then [{ src, addr := a + n, bytes := ahead, at_ := s.now }]
    else match b with
      | some x => if rest.isEmpty then [] else [{ x with addr := a + n, bytes := rest }]
      | none => []
  (held.take n ++ data.drop held.length, modBridge (fun k => { k with prefetch := (new ++ k.prefetch.filter fun y => y.src != src).take 4 }) s)

/-- An accepted write discards the buffers it overlaps. -/
def dropBuffers (a n : Nat) (s : State) : State :=
  modBridge (fun k => { k with prefetch := k.prefetch.filter fun b => b.addr + b.bytes.length ≤ a || a + n ≤ b.addr }) s

/-- The bytes that a READ may read ahead: within its window, at most 256, up to the first that a double-bit error spoils. -/
def aheadBytes (w : BitVec 128) (x : Access) (n : Nat) (get : Nat → Option Byte) : List Byte :=
  let last := x.address + x.count
  let room := winBase w + winSize w - last
  if !winFlag w 56 then []
  else (((List.range (min (min n 256) room)).map fun k => get (last + k)).takeWhile Option.isSome).filterMap id

/-! ## Port L (R329, R331, R416) -/

/-- Queue an access for port L. -/
def queuePortL (w : BitVec 128) (x : Access) (read : Bool) (posted : Option Nat) (s : State) : State :=
  modPortL (fun p => { p with waiting := p.waiting ++ [{
    asker := x.asker, posted, read, lock := x.lock, address := x.address, count := x.count, elem := x.elem, swap := winBits w 61 60,
    unit := winUnit w, ptrWidth := winBits w 65 64, data := x.data, losses := 0, at_ := s.now }] }) s

/-- Whether another source's sequence holds the bus. -/
def lockedByOther (s : State) (src : BitVec 16) : Bool :=
  match s.portL.lock with
  | some l => l.src != src
  | none => false

/-- Whether a source has a sequence in force, or a locked read that waits. -/
def hasSequence (s : State) (src : BitVec 16) : Bool :=
  (s.portL.lock.map (·.src)) == some src || s.portL.waiting.any fun r => r.lock && r.read && r.asker.src == src

/-! ## Serving a request (R318, R324, R439, R534) -/

/-- An access outside every window: a violation (R318, R482). -/
def noWindow (s : State) : State := countDev 0xB04 0 s

/-- A READ that its window sends to a target: the mailbox window, the mirror, the store or port L. -/
def readTarget (w : BitVec 128) (x : Access) (ahead : Nat) (s : State) : State :=
  let a := x.asker
  match targetOf (winBase w) with
  | some 0 =>
    match galPort a.gallery with
    | some g => sendData a ((List.range x.count).map fun k => mailByte s g a.src (x.address + k)) s
    | none => refuse a 2 s
  | some 1 =>
    let q := quick s
    let get := fun (n : Nat) => q.getD (n - 0x10000) 0#8
    let y := withBuffer a.src x.address ((List.range x.count).map fun k => get (x.address + k)) (aheadBytes w x ahead fun n => some (get n)) s
    sendData a y.1 y.2
  | some 2 =>
    if !gateOn s 22 || !gateOn s 19 then refuse a 1 s
    else if s.corr.storeLost then refuse a 0x0A s
    else
      let s := drainStore s
      let at1 := fun (n : Nat) => landsAt w { x with address := n } 0 - storeFirst
      match readStore w x s with
      | none => s |> readWords 3 (wordsOf (x.address - storeFirst) x.count) |> refuse a 4
      | some data =>
        let y := withBuffer a.src x.address data
          (aheadBytes w x ahead fun n => if badWord s (at1 n) 1 then none else some (storeByte s.corr (at1 n))) s
        sendData a y.1 y.2
  | _ =>
    if !gateOn s 22 || !gateOn s 23 then refuse a 1 s
    else if s.portL.fenced then refuse a 0x0A s
    else if x.lock && lockedByOther s a.src then refuse a 8 s
    else queuePortL w x true none s

/-- A READ delivered here (R318 to R334). -/
def serveRead (p : Parcel) (port ahead arrival : Nat) (s : State) : State :=
  let x := accessOf p port arrival
  let s := if (bufferFor s x.asker.src x.address).isSome then s
    else modBridge (fun k => { k with prefetch := k.prefetch.filter fun y => y.src != x.asker.src }) s
  let t := tagCheck s x.asker
  if t ≠ 0 then refuseTag x.asker t s
  else if !readFormed p x then refuse x.asker 3 s
  else match decodeWindow s x.asker.src x.address x.count with
    | none => s |> noWindow |> refuse x.asker 2
    | some w =>
      if !fitsWindow w x || (x.lock && !winFlag w 58) then refuse x.asker 3 s
      else readTarget w x ahead s

/-- A non-posted WRITE that its window sends to a target. -/
def writeTarget (w : BitVec 128) (x : Access) (s : State) : State :=
  let a := x.asker
  match targetOf (winBase w) with
  | some 0 =>
    match galPort a.gallery with
    | some g =>
      let y := mailWrite g a.src x.arrival x.address x.data s
      refuse a y.1 y.2
    | none => refuse a 2 s
  | some 1 => refuse a 2 s
  | some 2 =>
    if !gateOn s 22 || !gateOn s 19 then refuse a 1 s
    else if s.corr.storeLost then refuse a 0x0A s
    else s |> dropBuffers x.address x.count |> modCorr (fun c => { c with queue := c.queue ++ storeWrites w x none (some a) }) |> drainStore
  | _ =>
    if !gateOn s 22 || !gateOn s 23 then refuse a 1 s
    else if s.portL.fenced then refuse a 0x0A s
    else if x.lock && !hasSequence s a.src then
      s |> modPortL (fun p => { p with lostFor := if (p.lostFor.map (·.1)) = some a.src then none else p.lostFor }) |> refuse a 7
    else queuePortL w x false none s

/-- A non-posted WRITE delivered here. -/
def serveWrite (p : Parcel) (port arrival : Nat) (s : State) : State :=
  let x := accessOf p port arrival
  let t := tagCheck s x.asker
  if t ≠ 0 then refuseTag x.asker t s
  else if !writeFormed p x then refuse x.asker 3 s
  else match decodeWindow s x.asker.src x.address x.count with
    | none => s |> noWindow |> refuse x.asker 2
    | some w =>
      if winFlag w 59 then refuse x.asker 2 s
      else if !fitsWindow w x || (x.lock && !winFlag w 58) then refuse x.asker 3 s
      else writeTarget w x s

/-- A posted WRITE is accepted: it gets its number, and its place in the store queue or for port L (R326). -/
def acceptPosted (w : BitVec 128) (x : Access) (s : State) : State :=
  let id := s.bridge.postedNext
  let store := targetOf (winBase w) == some 2
  let s := s |> dropBuffers x.address x.count
    |> modBridge fun b =>
        { b with posted := b.posted ++ [{ id, asker := x.asker, address := x.address, count := x.count, store, arrival := x.arrival }], postedNext := id + 1 }
  if store then modCorr (fun c => { c with queue := c.queue ++ storeWrites w x (some id) none }) s else queuePortL w x false (some id) s

/-- Why a posted WRITE in a window fails, none where it is accepted (R327). -/
def postedFails (w : BitVec 128) (x : Access) (s : State) : Option Nat :=
  let store := targetOf (winBase w) == some 2
  if !winFlag w 57 || winFlag w 59 then some 2
  else if x.lock || !fitsWindow w x then some 3
  else if !gateOn s 22 || !gateOn s (if store then 19 else 23) then some 0x0A
  else if store && s.corr.storeLost then some 0x0C
  else if !store && s.portL.fenced then some 9
  else none

/-- A posted WRITE delivered here (R326, R327). -/
def servePosted (p : Parcel) (port arrival : Nat) (s : State) : State :=
  let x := accessOf p port arrival
  if !writeFormed p x then lateError x.asker x.address x.count 3 s
  else match decodeWindow s x.asker.src x.address x.count with
    | none => s |> noWindow |> lateError x.asker x.address x.count 1
    | some w =>
      match postedFails w x s with
      | some r => lateError x.asker x.address x.count r s
      | none => acceptPosted w x s

end Sys2Proof.Machine
end

