-- ==== Sys2Proof/Machine/BridgeCmds.lean ====
section
/-! DEFINITION. Commands of the bridge and port L: requests delivered here, completions, events to relay, the bus, locked sequences, and writes that complete (R322 to R337, R417 to R421, R534). -/

namespace Sys2Proof.Machine

/-! ## Parcels delivered here (R310, R338, R534) -/

/-- Whether the port 9 queue is served: by the bridge with its firmware, or by the ring hardware while the bridge is gated; after a watchdog parcels wait (R338, R534). -/
def port9Serves (s : State) : Bool := active s && (!gateOn s 22 || fwRuns s)

/-- Whether an entry of the port 9 queue is a given parcel by a given port. -/
def isMgmt (port : Nat) (p : Parcel) (e : Nat × Nat × Parcel) : Bool := e.1 == port && e.2.2 == p

/-- A parcel leaves the port 9 queue where it stands in it. -/
def takeMgmt (port : Nat) (p : Parcel) (s : State) : State := { s with hall := { s.hall with mgmtIn := s.hall.mgmtIn.eraseP (isMgmt port p) } }

/-- The place of a delivered parcel in the order of arrival; one that stands in no queue arrives now. -/
def arrivalOf (s : State) (port : Nat) (p : Parcel) : Nat := ((s.hall.mgmtIn.find? (isMgmt port p)).map (·.2.1)).getD s.hall.arrivalSeq

/-- BRIDGE_READ (R318 to R334): `ahead` bytes are read ahead where the window allows, and `single` and `double` are the store words in which bit errors show. -/
def execBridgeRead (t : Nat) (port : Fin 10) (p : Parcel) (ahead : Nat) (single double : List Nat) (s : State) : Answer :=
  effect t (fun s => port9Serves s && pKind p == 1 && pCls p == .np) (fun s =>
    s |> takeMgmt port.val p |> noteErrors single double |> serveRead p port.val ahead (arrivalOf s port.val p)) s

/-- BRIDGE_WRITE_POSTED (R326, R327): with 256 writes outstanding the next one waits. -/
def execBridgeWritePosted (t : Nat) (port : Fin 10) (p : Parcel) (s : State) : Answer :=
  effect t (fun s => port9Serves s && pKind p == 2 && pCls p == .pm && s.bridge.posted.length < 256) (fun s =>
    s |> takeMgmt port.val p |> servePosted p port.val (arrivalOf s port.val p)) s

/-- BRIDGE_WRITE_NONPOSTED (R321, R322). -/
def execBridgeWriteNonposted (t : Nat) (port : Fin 10) (p : Parcel) (s : State) : Answer :=
  effect t (fun s => port9Serves s && pKind p == 2 && pCls p == .np) (fun s =>
    s |> takeMgmt port.val p |> serveWrite p port.val (arrivalOf s port.val p)) s

/-- The response payload of `bridge.remote` (R381). -/
def remotePayload (status : Nat) (data : List Byte) : List Byte := by8 status ++ List.replicate 3 0#8 ++ by16 data.length ++ by16 0 ++ data

/-- A completion of the outstanding request: a failure or the last data answers the waiting command; any other completion is discarded (R325). -/
def takeCompletion (p : Parcel) (s : State) : State :=
  match s.bridge.remote with
  | none => s
  | some r =>
    if (pTag p).toNat ≠ r.tag then s
    else
      let st := (pAttr p).toNat
      let n := field p.payload 2 2 % 4096
      let got := r.got ++ (p.payload.drop 4).take n
      let host := allHosts.getD r.ring .link
      if st ≠ 0 then s |> modBridge (fun b => { b with remote := none }) |> answerWait host 0 (remotePayload st [])
      else if r.read ∧ got.length < r.count then modBridge (fun b => { b with remote := some { r with got } }) s
      else s |> modBridge (fun b => { b with remote := none }) |> answerWait host 0 (remotePayload 0 (if r.read then got else []))

/-- COMPLETION_RECEIVE (R325). -/
def execCompletionReceive (t : Nat) (port : Fin 10) (p : Parcel) (s : State) : Answer :=
  effect t (fun s => port9Serves s && pKind p == 3 && pCls p == .cp) (fun s =>
    let s := takeMgmt port.val p s
    if gateOn s 22 then takeCompletion p s else s) s

/-- The payload of a relayed event: `relayed` set and `sink_seq` replaced (R337). -/
def relayed (b : List Byte) (n : Nat) : List Byte := b.take 3 ++ by8 (byteAt b 3 ||| 1) ++ slice b 4 4 ++ by32 n ++ b.drop 12

/-- An event that is for this landing alone goes to each enabled sink; while the bridge is gated it is dropped for each (R337, R534). -/
def relayEvent (p : Parcel) (s : State) : State :=
  if pDest p = 0xFFFF#16 then s
  else forAll ((List.finRange 4).filter fun k => s.live.sinks[k].enable) (fun k s =>
    if gateOn s 22 then toSink k 4 (relayed p.payload) (if pRefsRegion p then some (pRefRegion p) else none) (pRefsData p) s
    else countDev 0x805 k.val s) s

/-- EVENT_RELAY (R337). -/
def execEventRelay (t : Nat) (port : Fin 10) (p : Parcel) (s : State) : Answer :=
  effect t (fun s => port9Serves s && pKind p == 4 && pCls p == .pm) (fun s => s |> takeMgmt port.val p |> relayEvent p) s

/-- POSTED_WRITE_COMPLETE (R326): the first write of the store queue that can reaches the store; port L writes complete with their transactions. -/
def execPostedWriteComplete (t : Nat) (s : State) : Answer := effect t (fun s => active s && gateOn s 19 && !s.corr.storeLost) storeStep s

/-- Whether a write that is not yet in the store queue will touch a store byte: delivered here or in a bobbin on its way, it arrived before a point. -/
def comesBefore (s : State) (n : Nat) (hit : Nat → Bool) : Bool :=
  (toBridge s).any fun e =>
    let x := accessOf e.2.2 e.1 e.2.1
    decide (e.2.1 < n) && pKind e.2.2 == 2 && match decodeWindow s x.asker.src x.address x.count with
      | some w => targetOf (winBase w) == some 2 && (List.range x.count).any fun k => hit (landsAt w x k - storeFirst)
      | none => false

/-- Whether a store byte lies in the extent that a commit of a region is for (R266, R272). -/
def commitHit (d : DirRec) (safe : Bool) (a : Nat) : Bool :=
  if safe then d.sBase * 65536 ≤ a && a < (d.sBase + d.sUnits) * 65536
  else d.commitBase * 65536 ≤ a && a < (d.commitBase + max d.units ((d.newExt.map (·.units)).getD 0)) * 65536

/-- COMMIT_WRITES_DRAINED (R266, R272): every write into the extent that entered the device before a commit's frame has reached the store. -/
def execCommitWritesDrained (t : Nat) (region : Region) (safe : Bool) (s : State) : Answer :=
  effect t (fun s => active s && gateOn s 19) (fun s =>
    let r := region.toNat
    match markOf s.corr safe r with
    | none => s
    | some n =>
      let hit := commitHit (dirOf s r) safe
      let queued := s.corr.queue.any fun w => match w with
        | .write a bs _ _ k => decide (k < n) && (List.range bs.length).any fun j => hit (a + j)
        | _ => false
      if queued || comesBefore s n hit then s
      else
        let mine := fun (w : Waiting) => w.op == (if safe then 0x504 else 0x502) && field w.req.payload 0 2 % 4096 == r
        s |> modCorr (dropMark safe r)
          |> modDir r (fun d =>
            if safe then { d with sState := if d.sState = .none then .none else .valid } else { d with drained := d.commitPending })
          |> answerWaiting mine 0 []) s

/-- PREFETCH_EXPIRY (R333): buffers are discarded after 10 us. -/
def execPrefetchExpiry (t : Nat) (s : State) : Answer :=
  effect t active (fun s => modBridge (fun b => { b with prefetch := b.prefetch.filter fun x => s.now < x.at_ + 10000 }) s) s

/-! ## The bus of port L (R329, R331, R417 to R419) -/

/-- Whether port L can act. -/
def portLRuns (s : State) : Bool := active s && gateOn s 23

/-- Run the request whose turn it is, where it is of a kind; recovery comes first where it is due. -/
def onBus (kind : PlReq → Bool) (run : PlReq → State → State) (s : State) : State :=
  match nextReq s with
  | some r =>
    if kind r then
      let s := recoverIfDue s
      if r ∈ s.portL.waiting then run r s else s
    else s
  | none => s

/-- PORTL_TRANSACTION (R329): the access whose turn it is; the target acknowledges the first `acked` bytes sent to it, and sends `data`. -/
def execPortlTransaction (t : Nat) (acked : Nat) (data : List Byte) (s : State) : Answer :=
  effect t portLRuns (onBus (fun r => !r.lock) fun r => runPlain r acked data) s

/-- LOCKED_READ (R331). -/
def execLockedRead (t : Nat) (acked : Nat) (data : List Byte) (s : State) : Answer :=
  effect t portLRuns (onBus (fun r => r.lock && r.read) fun r => runLocked r acked data) s

/-- UNLOCKING_WRITE (R331, R332, R421). -/
def execUnlockingWrite (t : Nat) (acked : Nat) (s : State) : Answer :=
  effect t portLRuns (onBus (fun r => r.lock && !r.read) fun r => runUnlock r acked) s

/-- PORTL_STRETCH_TIMEOUT (R417): a target has held SCL for `held` ns, beyond the limit; `hold` is how many pulses it will need before it releases SDA. -/
def execPortlStretchTimeout (t : Nat) (held hold : Nat) (s : State) : Answer :=
  effect t portLRuns (onBus (fun _ => true) fun r s => if held ≤ s.live.twlStretch * 100000 then s else s |> modPortL (fun p => { p with hold }) |> timeoutReq r) s

/-- A request lost an arbitration: it is tried again, and given up after 8 losses or 10 ms (R417). -/
def loseTurn (r : PlReq) (s : State) : State :=
  let since := if r.losses = 0 then s.now else r.at_
  if r.losses + 1 ≥ 8 ∨ since + 10000000 ≤ s.now then timeoutReq r s
  else modPortL (fun p => { p with waiting := p.waiting.map fun x => if x = r then { r with losses := r.losses + 1, at_ := since } else x }) s

/-- PORTL_ARBITRATION_LOST (R417). -/
def execPortlArbitrationLost (t : Nat) (s : State) : Answer := effect t portLRuns (onBus (fun _ => true) loseTurn) s

/-- PORTL_SDA_STUCK_DETECT (R419): SDA has been low with SCL high for 1 ms; `hold` is how many pulses the target needs. -/
def execPortlSdaStuckDetect (t : Nat) (hold : Nat) (s : State) : Answer :=
  effect t (fun s => portLRuns s && !s.portL.fenced && s.portL.lock.isNone) (fun s =>
    s |> modPortL (fun p => { p with hold, recoverDue := true }) |> recoverIfDue) s

/-- LOCKED_SEQUENCE_TIMEOUT (R332): 1 ms after its first read a sequence is released. -/
def execLockedSequenceTimeout (t : Nat) (s : State) : Answer :=
  effect t portLRuns (fun s =>
    match s.portL.lock.bind (·.since) with
    | some a => if a + 1000000 ≤ s.now then timeoutLock s else s
    | none => s) s

/-- LOCK_LOST_STATE_EXPIRY (R332): the lost state ends after 100 ms. -/
def execLockLostStateExpiry (t : Nat) (s : State) : Answer :=
  effect t active (fun s =>
    match s.portL.lostFor with
    | some x => if x.2 + 100000000 ≤ s.now then modPortL (fun p => { p with lostFor := none }) s else s
    | none => s) s

end Sys2Proof.Machine
end

