-- ==== Sys2Proof/Machine/SystemCmds.lean ====
section
/-! DEFINITION. Commands 0x0xx and 0x1xx: system and identity, profiles, leases; and the Mezzanine watchdog (R27, R39, R352 to R357, R374, R375, R454, R457, R458). -/

namespace Sys2Proof.Machine

/-! ## System and identity (R374) -/

/-- The identification code (R4). -/
def idcode : Nat := 0x2A7C4E3B

/-- The active slot as `system.info` reports it. -/
def activeSlot (s : State) : Nat := s.mez.slot.getD 0xFF

/-- `system.info`. -/
def doInfo (_ : Req) (s : State) : Reply :=
  okay (by32 (levelNow s) ++ leBytes 8 s.otp.serial.toNat ++ by8 2 ++ by8 (lifecycle s.otp) ++ by8 (deviceState s) ++ by8 (powerCode s) ++
    by8 s.power.sampled.bootMode.toNat ++ by8 (activeSlot s) ++ by8 s.dbg.level ++ by8 0 ++ by16 s.live.node.toNat ++ by16 0 ++ by32 idcode ++
    by32 s.mram.bootCount.toNat) s

/-- `system.info`, 0x001. -/
def cmdInfo : Cmd := { op := 0x001, need := .free 0, len := 0, body := doInfo }

/-- `system.reset`: OK, and the reset follows 1 ms later (R454). -/
def doReset (q : Req) (s : State) : Reply :=
  guardR (arg q 0 1 == 1) 3 s (okay [] (modPower (fun p => { p with resetDue := some (s.now + 1000000) }) s))

/-- `system.reset`, 0x002. -/
def cmdReset : Cmd := { op := 0x002, need := .dom 0, len := 1, body := doReset }

/-- `system.status`, 0x003: quick-status offsets 0x08 to 0x2B. -/
def cmdStatus : Cmd := { op := 0x003, need := .free 0, len := 0, body := fun _ s => okay (slice (quick s) 8 36) s }

/-- The counters of R366. -/
def mbxRows : List CtrRow :=
  [(0x101, [0, 2, 4, 6]), (0x102, [0, 2, 4, 6]), (0x103, [0, 2, 4, 6]), (0x104, [0, 2, 4, 6]), (0x105, [1, 3, 5, 7]), (0x106, [8, 9, 10, 11]),
   (0x107, List.range 15)]

/-- `mbx.counters`, 0x004. -/
def cmdMbxCounters : Cmd := { op := 0x004, need := .free 0, len := 8, body := devCounters mbxRows }

/-! ## Profiles (R457, R458) -/

/-- Whether an update commit runs. -/
def committing (s : State) : Bool := s.upd.state == .verified && (fwSlot s s.upd.target).state == .committing

/-- Whether the profile area cannot be written now: a brown-out warning or an update commit (R374, R461). -/
def mramBusy (s : State) : Bool := s.power.brownout.isSome || committing s

/-- Change a profile. -/
def modProfile (n : Nat) (p : Profile) (s : State) : State :=
  modMram (fun m => { m with profiles := Vector.ofFn fun k => if k.val = n then p else m.profiles[k] }) s

/-- `profile.save` (R457). -/
def doProfileSave (q : Req) (s : State) : Reply :=
  guardR (arg q 0 1 < 4) 3 s <| guardR (!mramBusy s) 1 s <| okay [] (modProfile (arg q 0 1) { valid := true, level := s.mez.level, live := s.live } s)

/-- `profile.save`, 0x010. -/
def cmdProfileSave : Cmd := { op := 0x010, need := .dom 0, len := 1, body := doProfileSave }

/-- `profile.select`. -/
def doProfileSelect (q : Req) (s : State) : Reply :=
  let n := arg q 0 1
  guardR (n < 4 || n == 0xFF) 3 s <|
    guardR (n == 0xFF || (s.mram.profiles.toList.getD n {}).valid) 0x0A s <|
      okay [] (modMram (fun m => { m with selected := if n = 0xFF then none else some n }) s)

/-- `profile.select`, 0x011. -/
def cmdProfileSelect : Cmd := { op := 0x011, need := .dom 0, len := 1, body := doProfileSelect }

/-- `profile.erase`: erasing the selected profile selects none. -/
def doProfileErase (q : Req) (s : State) : Reply :=
  let n := arg q 0 1
  guardR (n < 4) 3 s <| guardR (!mramBusy s) 1 s <|
    okay [] (s |> modProfile n {} |> modMram fun m => { m with selected := if m.selected = some n then none else m.selected })

/-- `profile.erase`, 0x012. -/
def cmdProfileErase : Cmd := { op := 0x012, need := .dom 0, len := 1, body := doProfileErase }

/-- `profile.list`. -/
def doProfileList (_ : Req) (s : State) : Reply :=
  okay ((List.range 4).flatMap fun n =>
    let p := s.mram.profiles.toList.getD n {}
    by8 (b2n p.valid) ++ by8 (b2n (s.mram.selected == some n)) ++ by16 0 ++ by32 (if p.valid then p.level.toNat else 0)) s

/-- `profile.list`, 0x013. -/
def cmdProfileList : Cmd := { op := 0x013, need := .free 0, len := 0, body := doProfileList }

/-! ## Leases (R352 to R357) -/

/-- The domains a bitmap names. -/
def domains (m : Nat) : List Nat := (List.range 15).filter fun d => bitOf m d

/-- A token no other holder has: the value drawn, or the next free one, never 0 (R353). -/
def freshToken (v : BitVec 32) (used : List (BitVec 32)) : BitVec 32 :=
  (((List.range 17).map fun k => v + BitVec.ofNat 32 k).find? fun x => x != 0#32 && x ∉ used).getD 1#32

/-- The token of a holder, drawn at its first lease (R353). -/
def giveToken (w : Holder) (s : State) : State :=
  match tokenOf s w with
  | some _ => s
  | none =>
    let r := drawRandom s
    let v := freshToken (r.1.extractLsb' 0 32) (r.2.mbx.tokens.map (·.2))
    { r.2 with mbx := { r.2.mbx with tokens := r.2.mbx.tokens ++ [(w, v)] } }

/-- The gallery over which a request comes, for an in-band host (R29). -/
def pathGal (q : Req) : Option Nat :=
  match q.host with
  | .link => q.gallery.map (·.val)
  | .second => q.gallery.map (·.val)
  | .service => none
  | .debug => none

/-- Take a free domain, or renew one already held. -/
def takeDomain (w : Holder) (g : Option Nat) (d : Nat) (s : State) : State :=
  if holds s w d then renewLease d s else setLease d { holder := some w, renewed := s.now, gallery := g } s

/-- The holder bytes of a domain: host code, reserved, source. -/
def holderBytes (s : State) (d : Nat) : List Byte :=
  match (leaseAt s d).holder with
  | some w => by8 (hostCode w.host) ++ by8 0 ++ by16 w.src.toNat
  | none => by32 0

/-- `lease.acquire`: every named domain, or none (R353). -/
def doAcquire (q : Req) (s : State) : Reply :=
  let m := arg q 0 2 % 0x8000
  let w := holderOf q.host q.src
  let taken := (domains m).filter fun d => (leaseAt s d).holder.isSome && !holds s w d
  guardR (m != 0) 3 s <|
    if !taken.isEmpty then .done 2 (by16 (taken.foldl (fun a d => a + 2 ^ d) 0) ++ taken.flatMap (holderBytes s)) s
    else
      let s := s |> giveToken w |> forAll (domains m) (takeDomain w (pathGal q))
      okay (by32 ((tokenOf s w).getD 0#32).toNat ++ by16 (heldMap s w)) s

/-- `lease.acquire`, 0x100. -/
def cmdAcquire : Cmd := { op := 0x100, need := .alone, len := 2, body := doAcquire }

/-- `lease.release`: domains not held are ignored (R356). -/
def doRelease (q : Req) (s : State) : Reply :=
  let w := holderOf q.host q.src
  let s := forAll (domains (arg q 0 2)) (fun d s => if holds s w d then endLease d none s else s) s
  okay (by16 (heldMap s w)) s

/-- `lease.release`, 0x101. -/
def cmdRelease : Cmd := { op := 0x101, need := .token, len := 2, body := doRelease }

/-- `lease.renew` (R355). -/
def doRenew (q : Req) (s : State) : Reply :=
  let w := holderOf q.host q.src
  let l := domains (arg q 0 2)
  guardR (l.all (holds s w)) 2 s <| okay (by16 (heldMap s w)) (forAll l renewLease s)

/-- `lease.renew`, 0x102. -/
def cmdRenew : Cmd := { op := 0x102, need := .token, len := 2, body := doRenew }

/-- The staged changes of a token, oldest first. -/
def stagedOf (tok : BitVec 32) (s : State) : List Staged := s.mbx.staged.filter fun e => e.token == tok

/-- Drop the staged changes of a token. -/
def dropStaged (tok : BitVec 32) (s : State) : State := { s with mbx := { s.mbx with staged := s.mbx.staged.filter fun e => e.token != tok } }

/-- `lease.discard` (R357). -/
def doDiscard (q : Req) (s : State) : Reply := okay (by8 (stagedOf q.token s).length) (dropStaged q.token s)

/-- `lease.discard`, 0x104. -/
def cmdDiscard : Cmd := { op := 0x104, need := .token, len := 0, body := doDiscard }

/-- `lease.status`: the holder and the milliseconds left of each domain. -/
def doLeaseStatus (_ : Req) (s : State) : Reply :=
  okay ((List.range 15).flatMap fun d =>
    holderBytes s d ++ by32 (if (leaseAt s d).holder.isSome then ((leaseAt s d).renewed + 10000000000 - s.now) / 1000000 else 0)) s

/-- `lease.status`, 0x105. -/
def cmdLeaseStatus : Cmd := { op := 0x105, need := .alone, len := 0, body := doLeaseStatus }

/-! ## The rows -/

/-- SYSTEM_INFO (R374). -/
def execSystemInfo (t : Nat) (q : Req) (s : State) : Answer := command t cmdInfo q s

/-- SYSTEM_RESET (R454). -/
def execSystemReset (t : Nat) (q : Req) (s : State) : Answer := command t cmdReset q s

/-- SYSTEM_STATUS (R374). -/
def execSystemStatus (t : Nat) (q : Req) (s : State) : Answer := command t cmdStatus q s

/-- MBX_COUNTERS (R372). -/
def execMbxCounters (t : Nat) (q : Req) (s : State) : Answer := command t cmdMbxCounters q s

/-- PROFILE_SAVE (R457). -/
def execProfileSave (t : Nat) (q : Req) (s : State) : Answer := command t cmdProfileSave q s

/-- PROFILE_SELECT (R457). -/
def execProfileSelect (t : Nat) (q : Req) (s : State) : Answer := command t cmdProfileSelect q s

/-- PROFILE_ERASE (R374). -/
def execProfileErase (t : Nat) (q : Req) (s : State) : Answer := command t cmdProfileErase q s

/-- PROFILE_LIST (R374). -/
def execProfileList (t : Nat) (q : Req) (s : State) : Answer := command t cmdProfileList q s

/-- LEASE_ACQUIRE (R353). -/
def execLeaseAcquire (t : Nat) (q : Req) (s : State) : Answer := command t cmdAcquire q s

/-- LEASE_RELEASE (R356). -/
def execLeaseRelease (t : Nat) (q : Req) (s : State) : Answer := command t cmdRelease q s

/-- LEASE_RENEW (R355). -/
def execLeaseRenew (t : Nat) (q : Req) (s : State) : Answer := command t cmdRenew q s

/-- LEASE_DISCARD (R357). -/
def execLeaseDiscard (t : Nat) (q : Req) (s : State) : Answer := command t cmdDiscard q s

/-- LEASE_STATUS (R375). -/
def execLeaseStatus (t : Nat) (q : Req) (s : State) : Answer := command t cmdLeaseStatus q s

/-! ## The watchdog (R39, R360, R454) -/

/-- MEZZANINE_WATCHDOG (R39, R360, R454): 250 ms without service from running firmware; the ring hardware answers the frames that stand in the rings. -/
def execMezzanineWatchdog (t : Nat) (s : State) : Answer :=
  effect t (fun s => active s && (s.mez.run == .running || s.mez.run == .starting) && !s.mez.halted) (fun s =>
    let s := match s.mez.slot with
      | some n => modFwSlot n (fun x => if x.state = .trial then { x with trialResets := min 255 (x.trialResets + 1) } else x) s
      | none => s
    let first := !gateOn s 17
    s |> mezRestart
      |> modMez (fun m => { m with watchdogs := satBv m.watchdogs, watchdogDue := true, readopt := !first })
      |> ringHardware) s
where
  /-- One more, saturating. -/
  satBv (v : BitVec 32) : BitVec 32 := if v = 0xFFFFFFFF#32 then v else v + 1#32

end Sys2Proof.Machine
end

