-- ==== Sys2Proof/Machine/GalleryCmds.lean ====
section
/-! DEFINITION. Commands 0x2xx and 0x3xx: galleries, lanes and training (R55 to R86, R147, R157, R158, R200, R219, R376, R377, R389). -/

namespace Sys2Proof.Machine

/-- Change the live settings. -/
def modLive (f : Live → Live) (s : State) : State := { s with live := f s.live }

/-- Change the settings of a gallery. -/
def modSet (g : GalIx) (f : GalSet → GalSet) (s : State) : State := modLive (fun v => { v with gal := v.gal.set g.val (f v.gal[g]) g.isLt }) s

/-- Change the settings of a lane. -/
def modLaneSet (g : GalIx) (l : LaneIx) (f : LaneSet → LaneSet) (s : State) : State :=
  modSet g (fun x => { x with lanes := x.lanes.set l.val (f x.lanes[l]) l.isLt }) s

/-- A command on the gallery of request byte 0. -/
def onGal (q : Req) (s : State) (k : GalIx → Reply) : Reply := if h : arg q 0 1 < 8 then k ⟨arg q 0 1, h⟩ else fail 3 s

/-- The setting byte that is a signed number. -/
def argS (q : Req) (off : Nat) : Int := sbyte (arg q off 1)

/-! ## Status (R85, R376) -/

/-- Whether a direction trains: every step from clock-lane lock to settling (R86, R121). -/
def training (t : TrainState) : Bool :=
  t == .clock || t == .align || t == .exchange || t == .equalise || t == .qualify || t == .report || t == .switching || t == .settled ||
    t == .guarding

/-- The `lane_state` of a data lane. -/
def laneState (G : Gal) (l : LaneIx) : Nat :=
  let L := G.lanes[l]
  if G.off || G.held || G.lost.isSome then 0
  else if L.retired || L.retiredTx then 6
  else if L.miswired then 7
  else if L.failed || L.txFailed then 5
  else if training G.rx.ts || training G.tx.ts then 1
  else if L.txWaking.isSome || L.tack.running then 4
  else if G.rx.ts == .active && (L.txIdle || L.rxIdle) then 3
  else if G.rx.ts == .active && G.rx.active.getLsbD (posOf G l) then 2
  else 0

/-- Whether background adaptation of a lane is not running: by its mode, or because the lane is out of striping (R64, R66, R85). -/
def eqHeld (G : Gal) (l : LaneIx) : Bool :=
  let L := G.lanes[l]
  L.modeNow != .adapt || (G.rx.ts == .active && (L.failed || L.rxIdle))

/-- The status word of a data lane. -/
def laneWord (G : Gal) (l : LaneIx) : Nat :=
  let L := G.lanes[l]
  let pos := if G.farCap.isSome then posOf G l else 0
  laneState G l + 16 * b2n L.inverted + 32 * pos + 256 * b2n G.rx.reversed + 512 * b2n (eqHeld G l) + 1024 * b2n L.txIdle +
    2 ^ 16 * (ibyte (L.live.taps.getD 0 0)).toNat + 2 ^ 24 * (L.live.ctle % 16)

/-- The status word of the clock lane. -/
def clockWord (G : Gal) : Nat :=
  let st := if G.off || G.held || G.lost.isSome then 0
    else if training G.rx.ts || training G.tx.ts then 1
    else if G.rx.ts == .active then (if G.rx.clkStopped || G.tx.clkIdle then 3 else 2)
    else 0
  st + 1024 * b2n G.tx.clkIdle

/-- `gallery.status`. -/
def doGalStatus (q : Req) (s : State) : Reply :=
  onGal q s fun g =>
    let G := galAt s g
    okay (by8 (galleryByte s g) ++ by8 G.rx.active.toNat ++ by8 G.tx.active.toNat ++ by8 0 ++ allLanes.flatMap (fun l => by32 (laneWord G l)) ++
      by32 (clockWord G) ++ by16 G.side1.toNat ++ by16 G.side2.toNat) s

/-- `gallery.status`, 0x200. -/
def cmdGalStatus : Cmd := { op := 0x200, need := .freeGallery, len := 1, body := doGalStatus }

/-! ## Provisioning, reset and idle (R72, R82, R389, R454) -/

/-- `gallery.provision`, in effect at the next reset that reaches the gallery. -/
def doProvision (q : Req) (s : State) : Reply :=
  onGal q s fun g => guardR (arg q 1 1 ≤ 1) 3 s (okay [] (modSet g (fun x => { x with prov := arg q 1 1 == 1 }) s))

/-- `gallery.provision`, 0x201. -/
def cmdProvision : Cmd := { op := 0x201, need := .gallery, len := 2, stage := true, body := doProvision }

/-- Announcement and claim records that came by a gallery go (R459). -/
def dropRecords (g : GalIx) (s : State) : State :=
  let f := fun (x : RegionIn) => { ann := merase x.ann g.val, claims := x.claims.filter (·.gallery ≠ g.val) : RegionIn }
  { s with cutter := { s.cutter with regions := (s.cutter.regions.map fun e => (e.1, f e.2)).filter fun e => e.2 != {} } }

/-- `gallery.reset` acts on a gallery: its queues, fence, training values and records return to their reset values, and by its provisioning it trains from DETECT or stays OFF; a level opened by a token ends, and an armed trigger (R28, R82, R454, R459, R478, R496). -/
def resetGallery (g : GalIx) (s : State) : State :=
  let prov := (galSet s g).prov
  let waits := s.clocks.sides[sideOf g].waiting
  let s := s |> switchAway g |> clearPort g |> dropRecords g |> endArmed
  let s := modGal g (fun G => { lastCut := G.lastCut, mute := G.mute, muteAll := G.muteAll, unmuted := G.unmuted, sentKey := G.sentKey, highZ := false }) s
  let s := emit (.idle g 0xFF#8 true) s
  if prov then
    let s := s |> doIf (!gateOn s g.val) (openGate g.val) |> doIf (!gateOn s (g.val + 8)) (openGate (g.val + 8))
    if waits then s else releaseGallery g s
  else
    s |> modGal g (fun G => { G with off := true, highZ := true, terminated := false }) |> dropTargets g |> requestGate g.val |> requestGate (g.val + 8)

/-- `gallery.reset`: the caller's own path only by force, and then its leases over that gallery are dropped first (R389). -/
def doGalReset (q : Req) (s : State) : Reply :=
  onGal q s fun g =>
    let own := pathGal q == some g.val
    let mine := fun (l : Lease) => l.holder == some (holderOf q.host q.src) && l.gallery == some g.val
    guardR (!own || bitOf (arg q 1 1) 0) 0x0A s (okay [] (s |> doIf own (endLeases mine (some 2)) |> resetGallery g))

/-- `gallery.reset`, 0x202. -/
def cmdGalReset : Cmd := { op := 0x202, need := .gallery, len := 2, body := doGalReset }

/-- Transmit lanes that an idle mask can leave in striping: those of an ACTIVE direction that are fit, else all 8. -/
def fitLanes (G : Gal) : BitVec 8 :=
  if G.tx.ts = .active then
    bitmap ((List.range 8).filter fun p => let L := G.lanes[laneOf p]; !L.retired && !L.retiredTx && !L.miswired && !L.txFailed)
  else 0xFF#8

/-- The forms of idle mask that R72 accepts. -/
def maskOk (G : Gal) (m : BitVec 8) (clk : Bool) : Bool := m == 0xFF#8 || (!clk && decide (popcount (fitLanes G &&& ~~~m) ≥ 2))

/-- Note the time where a change moves the power state between P0 and P1 (R383, R446). -/
def notePower (s0 s : State) : State := if powerCode s = powerCode s0 then s else modPower (fun p => { p with since := s.now }) s

/-- `gallery.idle`, in effect at once (R72, R73). -/
def doIdle (q : Req) (s : State) : Reply :=
  onGal q s fun g =>
    let m := BitVec.ofNat 8 (arg q 1 1)
    let clk := bitOf (arg q 2 1) 0
    guardR (maskOk (galAt s g) m clk) 3 s <|
      guardR (!(galAt s g).off && (galAt s g).lost.isNone) 0x0A s <|
        okay [] (s |> modSet g (fun x => { x with idleMask := m, stopClock := clk }) |> applyMask g m clk |> notePower s)

/-- `gallery.idle`, 0x203. -/
def cmdIdle : Cmd := { op := 0x203, need := .dom 0x0D, len := 3, stage := true, body := doIdle }

/-! ## Credits (R200, R203, R219) -/

/-- The quotas of a request, 2 bytes each from an offset. -/
def quotasAt (q : Req) (off : Nat) : PerClass Nat := ⟨arg q off 2, arg q (off + 2) 2, arg q (off + 4) 2, arg q (off + 6) 2⟩

/-- The limits of R200. -/
def splitOk (p : PerClass Nat) : Bool :=
  classes.all (fun k => decide (20 ≤ cget p k ∧ cget p k ≤ 1476)) && p.px + p.pm + p.np + p.cp == 1536

/-- `gallery.credit_set`, in effect at the next ACTIVATE. -/
def doCreditSet (q : Req) (s : State) : Reply :=
  onGal q s fun g =>
    guardR (arg q 1 1 ≤ 1 && splitOk (quotasAt q 4)) 3 s
      (okay [] (modSet g (fun x => { x with lending := arg q 1 1 == 1, quotas := quotasAt q 4 }) s))

/-- `gallery.credit_set`, 0x204. -/
def cmdCreditSet : Cmd := { op := 0x204, need := .gallery, len := 12, stage := true, body := doCreditSet }

/-- Four quotas as 8 bytes. -/
def quotaBytes (p : PerClass Nat) : List Byte := classes.flatMap fun k => by16 (cget p k)

/-- `gallery.credit_get`. -/
def doCreditGet (q : Req) (s : State) : Reply :=
  onGal q s fun g =>
    let G := galAt s g
    let set := galSet s g
    okay (quotaBytes G.crx.quotas ++ quotaBytes set.quotas ++ by8 (b2n G.crx.lending + 2 * b2n set.lending) ++ List.replicate 3 0#8 ++
      classes.flatMap (fun k => by16 (allowance G.crx k) ++ by16 (cget G.crx.limit k) ++ by32 (commitment G.crx k).toNat) ++
      by16 G.ctx.farQuotaPx ++ by16 G.ctx.farReachPx ++ by32 G.ctx.rtt ++ by32 G.capTx ++ by32 G.capRx) s

/-- `gallery.credit_get`, 0x205. -/
def cmdCreditGet : Cmd := { op := 0x205, need := .freeGallery, len := 1, body := doCreditGet }

/-! ## Counters (R372, R394) -/

/-- Counters of a gallery by id and instances; 0x43B is the device's. -/
def galRows : List CtrRow :=
  [(0x401, [0]), (0x402, [0]), (0x411, [0]), (0x412, [0, 1]), (0x413, [0, 1]), (0x414, [1]), (0x415, [0, 1]), (0x421, [0]), (0x422, [0]),
   (0x423, [0]), (0x424, [0]), (0x425, [0]), (0x426, [0]), (0x431, [0, 1, 2, 3]), (0x432, [0]), (0x433, [0]), (0x434, [0]), (0x435, [0]),
   (0x436, [0]), (0x437, [0, 1, 2, 3]), (0x438, [0]), (0x439, [1, 2, 3]), (0x43A, [0, 1, 2, 3]), (0x43B, [0])]

/-- `gallery.counters`. -/
def doGalCounters (q : Req) (s : State) : Reply :=
  onGal q s fun g =>
    let home := fun (id : Nat) => if id = 0x43B then 0 else g.val
    countersReply (galRows.flatMap fun r => r.2.map fun i => ((r.1, i, ctrAt s r.1 (home r.1) 0 i), ctrKey r.1 (home r.1) 0 i)) true q s

/-- `gallery.counters`, 0x206. -/
def cmdGalCounters : Cmd := { op := 0x206, need := .freeGallery, len := 8, body := doGalCounters }

/-- Counters of a lane: R119, then darnings by direction and rejoin failures. -/
def laneRows : List CtrRow := ((List.range 15).map fun k => (0x301 + k, [0])) ++ [(0x310, [0, 1]), (0x311, [0])]

/-- `lane.counters`; lane 8 is the clock lane. -/
def doLaneCounters (q : Req) (s : State) : Reply :=
  onGal q s fun g =>
    let l := arg q 1 1
    guardR (l ≤ 8) 3 s
      (countersReply (laneRows.flatMap fun r => r.2.map fun i => ((r.1, i, ctrAt s r.1 g.val l i), ctrKey r.1 g.val l i)) true q s)

/-- `lane.counters`, 0x213. -/
def cmdLaneCounters : Cmd := { op := 0x213, need := .freeGallery, len := 8, body := doLaneCounters }

/-! ## Equalisation and transmit settings (R55 to R65, R84) -/

/-- The values of a `lane.eq_set` lie in their ranges (R59, R61, R64). -/
def eqArgs (q : Req) : Bool :=
  let pos := (List.range 4).map fun k => arg q (17 + k) 1
  let used := pos.filter (· ≠ 0)
  arg q 1 1 < 8 && arg q 2 1 ≤ 2 && arg q 4 1 ≤ 15 && (List.range 12).all (fun k => (argS q (5 + k)).natAbs ≤ (tapMax (k + 1)).toNat) &&
    pos.all (fun p => p == 0 || (13 ≤ p && p ≤ 44)) && used.eraseDups.length == used.length &&
    (List.range 4).all fun k => (argS q (21 + k)).natAbs ≤ 15

/-- The equalisation mode of a code. -/
def modeOf (n : Nat) : EqMode := if n = 1 then .hold else if n = 2 then .fixed else .adapt

/-- The code of an equalisation mode. -/
def modeCode : EqMode → Nat
  | .adapt => 0
  | .hold => 1
  | .fixed => 2

/-- `lane.eq_set`, in effect as R65 states. -/
def doEqSet (q : Req) (s : State) : Reply :=
  onGal q s fun g =>
    let f := arg q 3 1
    guardR (eqArgs q) 3 s <| okay [] (modLaneSet g (laneOf (arg q 1 1)) (fun x =>
      { x with mode := modeOf (arg q 2 1), vgaHold := bitOf f 0, polAuto := bitOf f 1, polInvert := bitOf f 2, ctle := BitVec.ofNat 8 (arg q 4 1),
               taps := slice q.payload 5 12, fpos := slice q.payload 17 4, fval := slice q.payload 21 4 }) s)

/-- `lane.eq_set`, 0x210. -/
def cmdEqSet : Cmd := { op := 0x210, need := .gallery, len := 28, stage := true, body := doEqSet }

/-- `lane.eq_get`. -/
def doEqGet (q : Req) (s : State) : Reply :=
  onGal q s fun g => guardR (arg q 1 1 < 8) 3 s <|
    let l := laneOf (arg q 1 1)
    let x := (galSet s g).lanes[l]
    let v := (laneAt s g l).live
    okay (by8 g.val ++ by8 l.val ++ by8 (modeCode x.mode) ++ by8 (b2n x.vgaHold + 2 * b2n x.polAuto + 4 * b2n x.polInvert) ++ [x.ctle] ++
      fit 12 x.taps ++ fit 4 x.fpos ++ fit 4 x.fval ++ List.replicate 3 0#8 ++ by8 v.ctle ++ [v.vga] ++ fit 12 (v.taps.map ibyte) ++
      fit 4 (v.fpos.map (BitVec.ofNat 8)) ++ fit 4 (v.fval.map ibyte) ++ by8 v.phase ++ by8 0) s

/-- `lane.eq_get`, 0x211. -/
def cmdEqGet : Cmd := { op := 0x211, need := .freeGallery, len := 2, body := doEqGet }

/-- The coefficients of a `lane.tx_set`. -/
def reqCoef (q : Req) : Coef := { cm2 := argS q 4, cm1 := argS q 5, cp1 := argS q 6, cp2 := argS q 7 }

/-- The values of a `lane.tx_set` lie in their ranges (R55 to R58). -/
def txArgs (q : Req) : Bool :=
  let l := arg q 1 1
  (l < 8 || l == 0xFF) && (l == 0xFF || (arg q 3 1 ≤ 4 && (!bitOf (arg q 2 1) 0 || coefOk (reqCoef q)))) &&
    (List.range 6).all fun k => arg q (8 + k) 1 ≤ 10 || arg q (8 + k) 1 == 0xFF

/-- `lane.tx_set`, in effect at the next training (R65). -/
def doTxSet (q : Req) (s : State) : Reply :=
  onGal q s fun g =>
    let l := arg q 1 1
    let new := fun (old : List Nat) => (List.range 6).map fun k => if arg q (8 + k) 1 = 0xFF then old.getD k 0 else arg q (8 + k) 1
    guardR (txArgs q) 3 s <| okay [] (s
      |> modSet g (fun x => { x with presets := new x.presets })
      |> doIf (l != 0xFF) (modLaneSet g (laneOf l) fun x =>
          { x with coef := if bitOf (arg q 2 1) 0 then some (reqCoef q) else none, swing := BitVec.ofNat 8 (arg q 3 1) }))

/-- `lane.tx_set`, 0x212. -/
def cmdTxSet : Cmd := { op := 0x212, need := .gallery, len := 14, stage := true, body := doTxSet }

/-! ## Training (R147, R157, R158) -/

/-- `gallery.train_set` (R157). -/
def doTrainSet (q : Req) (s : State) : Reply :=
  onGal q s fun g =>
    let f := arg q 3 1
    let w := arg q 4 1
    guardR (arg q 1 1 ≤ 5 && arg q 2 1 ≤ 5 && 2 ≤ w && w ≤ 8) 3 s <| okay [] (modSet g (fun x =>
      { x with txCeil := treadOf (arg q 1 1), rxCeil := treadOf (arg q 2 1), t3fec := bitOf f 0, stepDown := bitOf f 1, reclimb := bitOf f 2,
               floor := w }) s)

/-- `gallery.train_set`, 0x300. -/
def cmdTrainSet : Cmd := { op := 0x300, need := .gallery, len := 5, stage := true, body := doTrainSet }

/-- A status word of R158. -/
def trainWord (G : Gal) (ts : TrainState) (tread : Option Tread) (fec : Bool) (lanes active : BitVec 8) (target : Option Tread) (below : Bool)
    (lastFail : BitVec 4) : Nat :=
  let code := fun (o : Option Tread) => match o with
    | some t => t.val
    | none => 7
  (if G.off then 1 else trainCode ts) + 16 * code tread + 128 * b2n fec + 2 ^ 8 * (if ts = .active then active else lanes).toNat +
    2 ^ 16 * code target + 2 ^ 19 * b2n below + 2 ^ 20 * lastFail.toNat + 2 ^ 24 * min G.fails 15

/-- The receive status word. -/
def rxWord (G : Gal) : Nat := trainWord G G.rx.ts G.rx.tread G.rx.fec G.rx.lanes G.rx.active G.rx.target G.rx.below G.rx.lastFail

/-- The transmit status word. -/
def txWord (G : Gal) : Nat := trainWord G G.tx.ts G.tx.tread G.tx.fec G.tx.lanes G.tx.active G.tx.target G.tx.below G.tx.lastFail

/-- The far CAP and LANDING, 5 bytes each, 0 before EXCHANGE has ended. -/
def farBytes (G : Gal) : List Byte :=
  match G.farCap with
  | some c =>
    leBytes 5 (hopBody (.cap { c with physLane := 0#3, heard := BitVec.ofBool G.heardRx })).toNat ++
      (match G.farLanding with
       | some l => leBytes 5 (hopBody (.landing l)).toNat
       | none => leBytes 5 0)
  | none => leBytes 10 0

/-- `gallery.train_status`. -/
def doTrainStatus (q : Req) (s : State) : Reply :=
  onGal q s fun g =>
    let G := galAt s g
    let north := galAt s (flightOf s g)
    okay (by32 (rxWord G) ++ by32 (txWord G) ++ farBytes G ++ by8 (north.landing.getD 0xFF) ++ by8 0 ++ by16 north.flight.toNat) s

/-- `gallery.train_status`, 0x301. -/
def cmdTrainStatus : Cmd := { op := 0x301, need := .freeGallery, len := 1, body := doTrainStatus }

/-- FULL: the far end hears of it by RETRAIN, in the period being sent, and both ends train from DETECT (R144, R147). -/
def orderFull (g : GalIx) (s : State) : State :=
  let G := galAt s g
  let id := (G.rx.reqId + 1) % 65536
  let ask : Hop := .retrain { tread := BitVec.ofNat 3 (G.rx.tread.getD 0).val, full := 1#1, reason := 2#4, reqId := BitVec.ofNat 16 id }
  s |> doIf (G.tx.ts == .active) (fun s => s |> modRx g (fun r => { r with reqId := id }) |> sendAny g ask |> passPeriod g) |> retrainFull g

/-- STEP of the transmit direction, at once or once the other direction is ACTIVE again (R142, R147). -/
def orderStep (g : GalIx) (tread : Nat) (s : State) : State :=
  if stepFree (galAt s g) && !(galAt s g).tx.preamble then startStep g (treadOf tread) 2 s
  else modTx g (fun x => { x with heldStep := some (tread, 2) }) s

/-- `gallery.retrain`: FULL from DETECT, or STEP of one direction to a tread (R147). -/
def doRetrain (q : Req) (s : State) : Reply :=
  onGal q s fun g =>
    let G := galAt s g
    let tx := arg q 2 1 == 1
    let tread := arg q 3 1
    let up := if tx then G.tx.ts == .active else G.rx.ts == .active
    let target := if tx then G.tx.target else G.rx.target
    guardR (arg q 1 1 ≤ 1 && arg q 2 1 ≤ 1 && tread ≤ 5) 3 s <|
      guardR (!G.off && G.lost.isNone && !G.held) 0x0A s <|
        if arg q 1 1 = 0 then okay [] (orderFull g s)
        else
          guardR up 0x0A s <| guardR (tread ≤ (target.getD 5).val) 3 s <|
            okay [] (if tx then orderStep g tread s else requestStep g tread 2 s)

/-- `gallery.retrain`, 0x302. -/
def cmdRetrain : Cmd := { op := 0x302, need := .gallery, len := 4, body := doRetrain }

/-! ## The rows -/

/-- GALLERY_STATUS (R376). -/
def execGalleryStatus (t : Nat) (q : Req) (s : State) : Answer := command t cmdGalStatus q s

/-- GALLERY_PROVISION (R82). -/
def execGalleryProvision (t : Nat) (q : Req) (s : State) : Answer := command t cmdProvision q s

/-- GALLERY_RESET (R389). -/
def execGalleryReset (t : Nat) (q : Req) (s : State) : Answer := command t cmdGalReset q s

/-- GALLERY_IDLE (R72). -/
def execGalleryIdle (t : Nat) (q : Req) (s : State) : Answer := command t cmdIdle q s

/-- GALLERY_CREDIT_SET (R200). -/
def execGalleryCreditSet (t : Nat) (q : Req) (s : State) : Answer := command t cmdCreditSet q s

/-- GALLERY_CREDIT_GET (R219). -/
def execGalleryCreditGet (t : Nat) (q : Req) (s : State) : Answer := command t cmdCreditGet q s

/-- GALLERY_COUNTERS (R372). -/
def execGalleryCounters (t : Nat) (q : Req) (s : State) : Answer := command t cmdGalCounters q s

/-- LANE_EQ_SET (R65). -/
def execLaneEqSet (t : Nat) (q : Req) (s : State) : Answer := command t cmdEqSet q s

/-- LANE_EQ_GET (R84). -/
def execLaneEqGet (t : Nat) (q : Req) (s : State) : Answer := command t cmdEqGet q s

/-- LANE_TX_SET (R58). -/
def execLaneTxSet (t : Nat) (q : Req) (s : State) : Answer := command t cmdTxSet q s

/-- LANE_COUNTERS (R372). -/
def execLaneCounters (t : Nat) (q : Req) (s : State) : Answer := command t cmdLaneCounters q s

/-- GALLERY_TRAIN_SET (R157). -/
def execGalleryTrainSet (t : Nat) (q : Req) (s : State) : Answer := command t cmdTrainSet q s

/-- GALLERY_TRAIN_STATUS (R158). -/
def execGalleryTrainStatus (t : Nat) (q : Req) (s : State) : Answer := command t cmdTrainStatus q s

/-- GALLERY_RETRAIN (R147). -/
def execGalleryRetrain (t : Nat) (q : Req) (s : State) : Answer := command t cmdRetrain q s

end Sys2Proof.Machine
end

