-- ==== Sys2Proof/Machine/WorkCmds.lean ====
section
/-! DEFINITION. Commands 0x4xx and 0x5xx: the Cutter, the correction engine and its store (R223 to R248, R263 to R275, R378, R379, R533). -/

namespace Sys2Proof.Machine

/-- The region ID of a request at an offset, bits 15 to 12 ignored (R367). -/
def regionArg (q : Req) (off : Nat) : Nat := arg q off 2 % 4096

/-- With BOOT_MODE straight-only a command that changes placement or correction fails (R533). -/
def notStraight (s : State) (k : Reply) : Reply := guardR (!straightOnly s) 0x0A s k

/-! ## The Cutter (R232, R233, R241, R246, R378) -/

/-- The placement mode of a code. -/
def cutModeOf (n : Nat) : CutMode := if n = 1 then .automatic else if n = 2 then .manual else .off

/-- The code of a placement mode. -/
def cutModeCode : CutMode → Nat
  | .off => 0
  | .automatic => 1
  | .manual => 2

/-- A change of the placement mode: to OFF it writes STRAIGHT entries, to AUTO it starts a run (R233, R246). -/
def changeMode (m : CutMode) (s : State) : State :=
  let was := s.live.cutMode
  let s := modLive (fun v => { v with cutMode := m }) s
  if was = m then s
  else match m with
    | .off => modeOff s
    | .automatic => startRun s
    | .manual => s

/-- `cutter.mode_set`. -/
def doModeSet (q : Req) (s : State) : Reply :=
  guardR (arg q 0 1 ≤ 2) 3 s <| notStraight s <| guardR (gateOn s 17) 4 s <| okay [] (changeMode (cutModeOf (arg q 0 1)) s)

/-- `cutter.mode_set`, 0x400. -/
def cmdModeSet : Cmd := { op := 0x400, need := .dom 0x09, len := 1, stage := true, body := doModeSet }

/-- `cutter.run`. -/
def doRun (_q : Req) (s : State) : Reply :=
  notStraight s <| guardR (gateOn s 17) 4 s <| guardR (mayRun s) 0x0A s <| okay [] (startRun s)

/-- `cutter.run`, 0x401. -/
def cmdRun : Cmd := { op := 0x401, need := .dom 0x09, len := 0, body := doRun }

/-- The site pin that request bytes 5 and 6 spell. -/
def sitePinOf (code landing : Nat) : SitePin :=
  if code = 1 then .nothing else if code = 2 then .here else if code = 3 then .landing (BitVec.ofNat 4 landing) else if code = 4 then .driver else .none

/-- The region setting of a `cutter.region_set` (R232). -/
def regionSetOf (q : Req) : RegionSet :=
  { dropTo := arg q 2 1 == 1, selMode := BitVec.ofNat 2 (arg q 3 1), egressPin := if bitOf (arg q 4 1) 7 then some (BitVec.ofNat 4 (arg q 4 1)) else none,
    sitePin := sitePinOf (arg q 5 1) (arg q 6 1), noMirror := arg q 7 1 == 1 }

/-- The values of a `cutter.region_set` lie in their ranges. -/
def regionSetOk (q : Req) : Bool :=
  arg q 2 1 ≤ 1 && arg q 3 1 ≤ 2 && (!bitOf (arg q 4 1) 7 || arg q 4 1 % 16 != 0) && arg q 5 1 ≤ 4 && (arg q 5 1 != 3 || arg q 6 1 ≤ 15) && arg q 7 1 ≤ 1

/-- `cutter.region_set`, in effect at the next run; in AUTO a change starts one. -/
def doCutRegionSet (q : Req) (s : State) : Reply :=
  let r := regionArg q 0
  guardR (regionSetOk q) 3 s <| notStraight s <|
    let s' := modLive (fun v => { v with regions := mset {} v.regions r (regionSetOf q) }) s
    okay [] (if s.live.cutMode = .automatic ∧ regionSetOf q ≠ mget {} s.live.regions r then startRun s' else s')

/-- `cutter.region_set`, 0x402. -/
def cmdCutRegionSet : Cmd := { op := 0x402, need := .dom 0x09, len := 8, stage := true, body := doCutRegionSet }

/-- One entry as `cutter.entry_get` returns it, with the reading of both copies (R241). -/
def entryRecord (r : Nat) (s : State) : List Byte × State :=
  let bad := fun (p : CopyPlane) => !entryOk (mget {} p.inForce r)
  let c := s.cutter
  let x := readEntry r s
  let pend := mget? (pendPlane x.2) r
  let flags := b2n pend.isSome + 2 * b2n (bad c.copyA) + 4 * b2n (bad c.copyB) + 8 * b2n x.2.cutter.copyA.fenced + 16 * b2n x.2.cutter.copyB.fenced
  (entryBytes x.1 ++ (match pend with
    | some e => entryBytes e.e
    | none => List.replicate 16 0#8) ++ by8 flags ++ List.replicate 3 0#8, x.2)

/-- `cutter.entry_get`. -/
def doEntryGet (q : Req) (s : State) : Reply :=
  let first := regionArg q 0
  let n := arg q 2 2
  guardR (1 ≤ n && n ≤ 27 && first + n ≤ 4096) 3 s <|
    let x := (List.range n).foldl (fun (a : List Byte × State) k =>
      let y := entryRecord (first + k) a.2
      (a.1 ++ y.1, y.2)) ([], s)
    okay (by16 first ++ by16 n ++ x.1) x.2

/-- `cutter.entry_get`, 0x403. -/
def cmdEntryGet : Cmd := { op := 0x403, need := .free 0x09, len := 4, body := doEntryGet }

/-- A claimant group as `cutter.inputs_get` returns it. -/
def groupBytes (e : List Nat × Option ClaimRec) : List Byte :=
  match e.2 with
  | some c => leBytes 8 c.claimant.toNat ++ by8 ((e.1.map fun g => 2 ^ (g - 4)).foldl (· + ·) 0) ++ by8 c.site.toNat ++ by8 c.siteLanding.toNat ++ by8 c.kind.toNat
  | none => []

/-- `cutter.inputs_get`: the records held, and the claimant groups; the default group has no claimant and is not listed. -/
def doInputsGet (q : Req) (s : State) : Reply :=
  let r := regionArg q 0
  let x := regionIn s r
  let recs := (List.range 4).flatMap fun g => match mget? x.ann g with
    | some a => annBytes r a a.correct false
    | none => List.replicate 16 0#8
  let held := ((List.range 4).map fun g => b2n (mget? x.ann g).isSome * 2 ^ g).foldl (· + ·) 0
  let groups := (groupsOf x.claims (bitmap ((allGals.filter (galActive s)).map (·.val))) 0).filter (·.2.isSome)
  okay (recs ++ by8 held ++ by8 (min groups.length 78) ++ by8 (b2n (decide (groups.length > 78))) ++ by8 0 ++ (groups.take 78).flatMap groupBytes) s

/-- `cutter.inputs_get`, 0x404. -/
def cmdInputsGet : Cmd := { op := 0x404, need := .free 0x09, len := 2, body := doInputsGet }

/-- `cutter.status`. -/
def doCutStatus (_q : Req) (s : State) : Reply :=
  let c := s.cutter
  okay (by8 (cutModeCode s.live.cutMode) ++ by8 (b2n c.running.isSome + 2 * b2n c.copyA.fenced + 4 * b2n c.copyB.fenced) ++ by16 0 ++
    (List.range 4).flatMap (fun k => by16 (c.freeS.getD k 0)) ++ (List.range 8).flatMap (fun k => by32 (c.freePipe.getD k 0)) ++
    by16 c.freeStore ++ by16 0 ++ by32 (ctrAt s 0x501 0 0 0)) s

/-- `cutter.status`, 0x405. -/
def cmdCutStatus : Cmd := { op := 0x405, need := .free 0x09, len := 0, body := doCutStatus }

/-- Counters of the Cutter; 0x505 has an instance for each North gallery. -/
def cutRows : List CtrRow := (List.range 11).map fun k => (0x501 + k, if k = 4 then [0, 1, 2, 3] else [0])

/-- `cutter.counters`, 0x406. -/
def cmdCutCounters : Cmd := { op := 0x406, need := .free 0x09, len := 8, body := devCounters cutRows }

/-! ## The correction engine and store (R263 to R275, R379) -/

/-- `correction.region_set`, in effect at the next run (R263). -/
def doCorrRegionSet (q : Req) (s : State) : Reply :=
  guardR (arg q 2 1 ≤ 1) 3 s <| notStraight s <|
    okay [] (modLive (fun v => { v with appMode := mset false v.appMode (regionArg q 0) (arg q 2 1 == 1) }) s)

/-- `correction.region_set`, 0x500. -/
def cmdCorrRegionSet : Cmd := { op := 0x500, need := .dom 0x0A, len := 3, stage := true, body := doCorrRegionSet }

/-- The extent that a region shows: the one in force, else the one a run assigned (R264, R265). -/
structure ShownExt where
  code : Nat
  dbuf : Bool
  bank : Bool
  base : Nat
  units : Nat

/-- The extent and correction state of a directory record as reported. -/
def shownExt (d : DirRec) : ShownExt :=
  match d.cstate, d.newExt with
  | .none, some x => { code := if d.unserved then 4 else if x.cleared then 2 else 1, dbuf := x.dbuf, bank := false, base := x.base, units := x.units }
  | _, _ => { code := corrStateOf d, dbuf := d.dbuf, bank := d.bank, base := d.base, units := d.units }

/-- The word of R265. -/
def corrWord (d : DirRec) : Nat :=
  let x := shownExt d
  x.code + 8 * b2n x.dbuf + 16 * b2n x.bank + 32 * b2n d.commitPending + 64 * b2n d.catching + 2 ^ 8 * (x.base % 1024) + 2 ^ 18 * (x.units % 2048)

/-- The code of a safe-image state. -/
def safeCode : SafeImg → Nat
  | .none => 0
  | .allocated => 1
  | .valid => 2

/-- `correction.region_get`. -/
def doCorrRegionGet (q : Req) (s : State) : Reply :=
  let d := dirOf s (regionArg q 0)
  okay (by32 (corrWord d) ++ by16 d.sBase ++ by16 d.sUnits ++ by16 d.sW ++ by16 d.sH ++ by8 (safeCode d.sState) ++ List.replicate 3 0#8) s

/-- `correction.region_get`, 0x501. -/
def cmdCorrRegionGet : Cmd := { op := 0x501, need := .free 0x0A, len := 2, body := doCorrRegionGet }

/-- Whether a region is in CLEARING, EMPTY or LOADED (R266). -/
def mayCommit (d : DirRec) : Bool := let c := (shownExt d).code; 1 ≤ c && c ≤ 3

/-- `correction.commit`: the command's mark enters the store request queue, at the place of its frame in the order of arrival, and the command waits until the writes ahead of it are in the store (R266). -/
def doCommit (q : Req) (s : State) : Reply :=
  let r := regionArg q 0
  let d := dirOf s r
  notStraight s <| guardR (!s.corr.storeLost) 5 s <| guardR (engineOn s) 4 s <| guardR (mayCommit d) 0x0A s <|
    guardR (!d.commitPending && !d.catching) 1 s <|
      .wait 100000000 (s
        |> modDir r (fun d => { d with commitPending := true, drained := false, commitBase := (shownExt d).base })
        |> modCorr (fun c => { c with queue := c.queue ++ [.commit r s.mbx.frame] }))

/-- `correction.commit`, 0x502. -/
def cmdCommit : Cmd := { op := 0x502, need := .dom 0x0A, len := 2, body := doCommit }

/-- The units of a safe image (R272). -/
def safeUnits (w h : Nat) : Nat := ceilDiv (w * h * 6) 65536

/-- `correction.safe_alloc` (R272). -/
def doSafeAlloc (q : Req) (s : State) : Reply :=
  let r := regionArg q 0
  let w := arg q 2 2
  let h := arg q 4 2
  let n := safeUnits w h
  guardR (w != 0 && h != 0) 3 s <| notStraight s <| guardR (!s.corr.storeLost) 5 s <| guardR s.cutter.running.isNone 1 s <|
    guardR ((dirOf s r).sState == .none) 0x0A s <|
      match bestFit (heldMask s ||| newMask s) n with
      | none => fail 7 s
      | some b =>
        okay (by16 b ++ by16 n) (s
          |> modDir r (fun d => { d with sBase := b, sUnits := n, sW := w, sH := h, sState := .allocated })
          |> raiseRegion 0x0501 (BitVec.ofNat 12 r) (by16 r ++ by8 1 ++ by8 0 ++ by16 b ++ by16 n))

/-- `correction.safe_alloc`, 0x503. -/
def cmdSafeAlloc : Cmd := { op := 0x503, need := .dom 0x0A, len := 6, body := doSafeAlloc }

/-- `correction.safe_commit`: waits for earlier writes as a commit does (R272). -/
def doSafeCommit (q : Req) (s : State) : Reply :=
  let r := regionArg q 0
  notStraight s <| guardR (!s.corr.storeLost) 5 s <| guardR ((dirOf s r).sState != .none) 0x0A s <|
    .wait 100000000 (modCorr (fun c => { c with queue := c.queue ++ [.safeCommit r s.mbx.frame] }) s)

/-- `correction.safe_commit`, 0x504. -/
def cmdSafeCommit : Cmd := { op := 0x504, need := .dom 0x0A, len := 2, body := doSafeCommit }

/-- `correction.safe_free` (R272, R379). -/
def doSafeFree (q : Req) (s : State) : Reply :=
  let r := regionArg q 0
  notStraight s <| guardR ((dirOf s r).sState != .none) 0x0A s <|
    okay [] (s |> modDir r (fun d => { d with sBase := 0, sUnits := 0, sW := 0, sH := 0, sState := .none }) |> endImage r)

/-- `correction.safe_free`, 0x505. -/
def cmdSafeFree : Cmd := { op := 0x505, need := .dom 0x0A, len := 2, body := doSafeFree }

/-- The rate taken from a pipe, in kpixel/s; 0 of a fenced pipe (R275). -/
def rateTaken (s : State) (p : Nat) : Nat :=
  if (s.corr.pipes.toList.getD p {}).fenced then 0 else ((pipeRegions s p).map fun r => pipeShare s r (entryOf s r)).foldl (· + ·) 0

/-- Bytes of store access at a priority in the second before the one that runs (R275). -/
def accessRate (s : State) (k : Nat) : Nat :=
  let u := s.corr.use_
  let sec := s.now / 1000000000
  if sec = u.second then u.last.getD k 0 else if sec = u.second + 1 then u.bytes.getD k 0 else 0

/-- `correction.status`. -/
def doCorrStatus (_q : Req) (s : State) : Reply :=
  let fenced := bitmap ((List.range 8).filter fun p => (s.corr.pipes.toList.getD p {}).fenced)
  let free := if s.corr.storeLost then 0 else freeUnits (heldMask s ||| newMask s)
  okay ([fenced] ++ by8 (b2n s.corr.storeLost + 2 * b2n (!engineOn s)) ++ by16 free ++ by16 ((s.corr.dir.map (·.2.sUnits)).foldl (· + ·) 0) ++ by16 0 ++
    (List.range 8).flatMap (fun p => by32 (rateTaken s p)) ++ (List.range 4).flatMap fun k => by32 (accessRate s k / 1000000)) s

/-- `correction.status`, 0x506. -/
def cmdCorrStatus : Cmd := { op := 0x506, need := .free 0x0A, len := 0, body := doCorrStatus }

/-- Counters of the correction engine; the first two have an instance for each pipe. -/
def corrRows : List CtrRow := (List.range 10).map fun k => (0x601 + k, if k < 2 then List.range 8 else [0])

/-- `correction.counters`, 0x507. -/
def cmdCorrCounters : Cmd := { op := 0x507, need := .free 0x0A, len := 8, body := devCounters corrRows }

/-! ## The rows -/

/-- CUTTER_MODE_SET (R246). -/
def execCutterModeSet (t : Nat) (q : Req) (s : State) : Answer := command t cmdModeSet q s

/-- CUTTER_RUN (R233). -/
def execCutterRun (t : Nat) (q : Req) (s : State) : Answer := command t cmdRun q s

/-- CUTTER_REGION_SET (R232). -/
def execCutterRegionSet (t : Nat) (q : Req) (s : State) : Answer := command t cmdCutRegionSet q s

/-- CUTTER_ENTRY_GET (R241). -/
def execCutterEntryGet (t : Nat) (q : Req) (s : State) : Answer := command t cmdEntryGet q s

/-- CUTTER_INPUTS_GET (R378). -/
def execCutterInputsGet (t : Nat) (q : Req) (s : State) : Answer := command t cmdInputsGet q s

/-- CUTTER_STATUS (R248). -/
def execCutterStatus (t : Nat) (q : Req) (s : State) : Answer := command t cmdCutStatus q s

/-- CUTTER_COUNTERS (R250). -/
def execCutterCounters (t : Nat) (q : Req) (s : State) : Answer := command t cmdCutCounters q s

/-- CORRECTION_REGION_SET (R263). -/
def execCorrectionRegionSet (t : Nat) (q : Req) (s : State) : Answer := command t cmdCorrRegionSet q s

/-- CORRECTION_REGION_GET (R265). -/
def execCorrectionRegionGet (t : Nat) (q : Req) (s : State) : Answer := command t cmdCorrRegionGet q s

/-- CORRECTION_COMMIT (R266). -/
def execCorrectionCommit (t : Nat) (q : Req) (s : State) : Answer := command t cmdCommit q s

/-- CORRECTION_SAFE_ALLOC (R272). -/
def execCorrectionSafeAlloc (t : Nat) (q : Req) (s : State) : Answer := command t cmdSafeAlloc q s

/-- CORRECTION_SAFE_COMMIT (R272). -/
def execCorrectionSafeCommit (t : Nat) (q : Req) (s : State) : Answer := command t cmdSafeCommit q s

/-- CORRECTION_SAFE_FREE (R272). -/
def execCorrectionSafeFree (t : Nat) (q : Req) (s : State) : Answer := command t cmdSafeFree q s

/-- CORRECTION_STATUS (R275). -/
def execCorrectionStatus (t : Nat) (q : Req) (s : State) : Answer := command t cmdCorrStatus q s

/-- CORRECTION_COUNTERS (R277). -/
def execCorrectionCounters (t : Nat) (q : Req) (s : State) : Answer := command t cmdCorrCounters q s

end Sys2Proof.Machine
end

