-- ==== Sys2Proof/Machine/GuardCmds.lean ====
section
/-! DEFINITION. Commands 0x6xx: safety settings, the password, sessions, orders, release and the safety change log (R279, R280, R290 to R302, R373, R380, R461, R535). -/

namespace Sys2Proof.Machine

/-! ## Passwords (R297, R373) -/

/-- The password of a block, none where its length lies outside 8 to 32. -/
def passwordIn (block : List Byte) : Option (List Byte) :=
  let n := byteAt block 0
  if 8 ≤ n ∧ n ≤ 32 then some (slice block 1 n) else none

/-- The hash that is kept of a password (R297). -/
def passwordHash (salt : BitVec 128) (pw : List Byte) : BitVec 384 := sha384Num (leBytes 16 salt.toNat ++ pw)

/-- Whether a password is the one set. -/
def rightPassword (s : State) (pw : List Byte) : Bool :=
  match s.safety.record.pwHash with
  | some (h, salt) => passwordHash salt pw == h
  | none => false

/-- Start a password check for a command that then waits 200 ms: BAD_ARG for a bad block, DENIED while none is set, BUSY while another runs. -/
def checkPassword (block : List Byte) (q : Req) (s : State) : Reply :=
  guardR (passwordIn block).isSome 3 s <| guardR s.safety.record.pwHash.isSome 6 s <| guardR s.safety.checking.isNone 1 s <|
    .wait 200000000 (modSafety (fun f => { f with checking := some (hostIx q.host).val }) s)

/-- A new password is set, with a new salt, and logged without a value (R297, R300). -/
def setPassword (pw : List Byte) (q : Req) (s : State) : State :=
  let x := drawRandom s
  let salt := x.1.setWidth 128
  x.2 |> modSafety (fun f => { f with record := { f.record with pwHash := some (passwordHash salt pw, salt) } })
      |> safetyLog (hostCode q.host) 0x02 targetDevice (nodeOf q) 0 0 noDigest noDigest []

/-! ## Settings (R279, R280, R298, R302, R535) -/

/-- Whether a request comes in the unlocked session (R298). -/
def inSession (q : Req) (s : State) : Bool :=
  match s.safety.session with
  | some x => x.2.1 == q.token
  | none => false

/-- A safety setting: DENIED outside a session, BUSY during a brown-out warning, NO_CAPACITY when the log is full (R298, R302, R461). -/
def guardSetting (q : Req) (s : State) (k : Reply) : Reply :=
  guardR (inSession q s) 6 s <| guardR s.power.brownout.isNone 1 s <| guardR (!logFull s) 7 s k

/-- The group map as 2,048 bytes (R535). -/
def mapValue (s : State) : List Byte :=
  (List.range 2048).map fun k => BitVec.ofNat 8 ((groupOf s (2 * k)).val + 16 * (groupOf s (2 * k + 1)).val)

/-- The code of a monitor class. -/
def classCode : MonClass → Nat
  | .off => 0
  | .safe => 1
  | .lockout => 2

/-- The monitor class of a code. -/
def classOfCode (n : Nat) : MonClass := if n = 1 then .safe else if n = 2 then .lockout else .off

/-- The settings of a group as 32 bytes (R535). -/
def groupValue (g : GroupSet) : List Byte :=
  by8 (b2n g.substBlack) ++ (List.range 5).flatMap (fun m => by8 (classCode (g.cls.getD m .off)) ++ by16 (g.p1.getD m 0) ++ by16 (g.p2.getD m 0)) ++
    List.replicate 6 0#8

/-- The entry of a setting changed by a request (R300, R535). -/
def logSetting (target : Nat) (q : Req) (old new : List Byte) (s : State) : State :=
  safetyLog (hostCode q.host) 0x01 target (nodeOf q) 0 0 (digest16 old) (digest16 new) (q.payload.take 8) s

/-- The regions that a `safety.group_set` names; none where the request is malformed. -/
def regionsNamed (q : Req) : Option (List Nat) :=
  let n := arg q 2 2
  let first := regionArg q 4
  let last := regionArg q 6
  if arg q 1 1 = 0 ∧ q.payload.length = 8 ∧ first ≤ last then some ((List.range (last + 1 - first)).map (first + ·))
  else if arg q 1 1 = 1 ∧ 1 ≤ n ∧ n ≤ 500 ∧ q.payload.length = 4 + 2 * n then some ((List.range n).map fun k => regionArg q (4 + 2 * k))
  else none

/-- `safety.group_set` (R279). -/
def doGroupSet (q : Req) (s : State) : Reply :=
  let g := arg q 0 1
  match regionsNamed q with
  | none => fail 3 s
  | some l =>
    guardR (g < 16) 3 s <| guardSetting q s <|
      guardR (l.all fun r => (groupOf s r).val == g || (mget? s.safety.grpLock (groupOf s r).val).isNone) 9 s <|
        let s' := modSafety (fun f => { f with record := { f.record with groupOf := l.foldl (fun m r => mset 0 m r g) f.record.groupOf } }) s
        okay [] (logSetting (targetGroup g) q (mapValue s) (mapValue s') s')

/-- `safety.group_set`, 0x600. -/
def cmdGroupSet : Cmd := { op := 0x600, need := .dom 0x0B, len := 6, max := 1004, body := doGroupSet }

/-- The parameters of a `safety.monitor_set` lie in their ranges (R30, R280, R380). -/
def monitorArgs (q : Req) : Bool :=
  let g := arg q 0 1
  let m := arg q 1 1
  let p1 := arg q 4 2
  let p2 := arg q 6 2
  let sub := arg q 3 1
  arg q 2 1 ≤ 2 &&
    if g = 0xFF then m == 6 && arg q 2 1 != 0 && sub == 0xFF && p1 == 0 && p2 == 0
    else g < 16 && (sub ≤ 1 || sub == 0xFF) && (match m with
      | 1 => 10 ≤ p1 && p1 ≤ 2000
      | 2 => 1 ≤ p1 && p1 ≤ 1000
      | 3 => 1 ≤ p1 && 1 ≤ p2 && p2 ≤ 60
      | 4 => true
      | 5 => p1 ≤ 7
      | _ => false)

/-- The settings of a group after a `safety.monitor_set`; a parameter that the monitor does not have reads 0. -/
def setMonitor (q : Req) (g : GroupSet) : GroupSet :=
  let k := arg q 1 1 - 1
  { substBlack := if arg q 3 1 = 0xFF then g.substBlack else arg q 3 1 == 1, cls := g.cls.set k (classOfCode (arg q 2 1)), p1 := g.p1.set k (arg q 4 2),
    p2 := g.p2.set k (if k = 2 then arg q 6 2 else 0) }

/-- `safety.monitor_set` (R280). -/
def doMonitorSet (q : Req) (s : State) : Reply :=
  guardR (monitorArgs q) 3 s <| guardSetting q s <|
    if h : arg q 0 1 < 16 then
      let g := s.safety.record.groups[arg q 0 1]
      let g' := setMonitor q g
      okay [] (s |> modSafety (fun f => { f with record := { f.record with groups := f.record.groups.set (arg q 0 1) g' h } })
                 |> logSetting (targetGroup (arg q 0 1)) q (groupValue g) (groupValue g'))
    else
      let c := classOfCode (arg q 2 1)
      okay [] (s |> modSafety (fun f => { f with record := { f.record with internal := c } })
                 |> logSetting targetDevice q (by8 (classCode s.safety.record.internal)) (by8 (classCode c)))

/-- `safety.monitor_set`, 0x601. -/
def cmdMonitorSet : Cmd := { op := 0x601, need := .dom 0x0B, len := 8, body := doMonitorSet }

/-! ## Sessions and the password (R297, R298) -/

/-- `safety.unlock`. -/
def doUnlock (q : Req) (s : State) : Reply := checkPassword (slice q.payload 0 36) q s

/-- `safety.unlock`, 0x602. -/
def cmdUnlock : Cmd := { op := 0x602, need := .dom 0x0B, len := 36, body := doUnlock }

/-- `safety.lock` ends the session. -/
def doLock (q : Req) (s : State) : Reply := okay [] (endSession q.token s)

/-- `safety.lock`, 0x603. -/
def cmdLock : Cmd := { op := 0x603, need := .dom 0x0B, len := 0, body := doLock }

/-- `safety.password_set`: with none set only the lease is needed, and no check runs (R297, R371). -/
def doPasswordSet (q : Req) (s : State) : Reply :=
  match passwordIn (slice q.payload 36 36) with
  | none => fail 3 s
  | some pw =>
    guardR s.power.brownout.isNone 1 s <| guardR (!logFull s) 7 s <|
      if s.safety.record.pwHash.isNone then okay [] (setPassword pw q s) else checkPassword (slice q.payload 0 36) q s

/-- `safety.password_set`, 0x604. -/
def cmdPasswordSet : Cmd := { op := 0x604, need := .dom 0x0B, len := 72, body := doPasswordSet }

/-! ## Orders and release (R290, R295, R296) -/

/-- `safety.order`. -/
def doOrder (q : Req) (s : State) : Reply :=
  let a := arg q 0 1
  guardR (orderArgs q) 3 s <| guardR (a != 1 || s.safety.record.pwHash.isSome) 6 s <|
    guardR (a != 2 || arg q 1 1 != 2 || !faultPersists s) 0x0A s <| guardR (a != 2 || !logFull s) 7 s <| okay [] (runOrder q s)

/-- `safety.order`, 0x605. -/
def cmdOrder : Cmd := { op := 0x605, need := .order, len := 4, body := doOrder }

/-- Whether a lock-out lies in a scope (R296). -/
def lockIn (s : State) (scope group : Nat) : Bool :=
  if scope = 2 then devLocked s else s.safety.grpLock.any fun e => inScope scope group e.1

/-- `safety.release`. -/
def doSafetyRelease (q : Req) (s : State) : Reply :=
  let scope := arg q 36 1
  let group := arg q 37 1
  guardR ((passwordIn (slice q.payload 0 36)).isSome && scope ≤ 2 && (scope != 0 || group < 16)) 3 s <|
    guardR s.safety.record.pwHash.isSome 6 s <| guardR (lockIn s scope group) 0x0A s <| guardR (!logFull s) 7 s <|
      checkPassword (slice q.payload 0 36) q s

/-- `safety.release`, 0x606. -/
def cmdSafetyRelease : Cmd := { op := 0x606, need := .free 0x0B, len := 40, body := doSafetyRelease }

/-- A release is armed; one that was armed is replaced (R295, R296). -/
def armRelease (q : Req) (s : State) : State :=
  modSafety (fun f => { f with armed := some { scope := arg q 36 1, group := arg q 37 1, at_ := s.now, fell := none, requester := hostCode q.host, node := nodeOf q } }) s

/-- A session opens for the caller's token while it still holds SAFETY; another holder's session ends (R298). -/
def openSession (q : Req) (s : State) : State :=
  if holds s (holderOf q.host q.src) 0x0B ∧ tokenOf s (holderOf q.host q.src) = some q.token then
    modSafety (fun f => { f with session := some (hostCode q.host, q.token, s.now) }) s
  else s

/-- A password has been found right: what the command that waited for it does. -/
def afterCheck (w : Waiting) (s : State) : State :=
  if w.op = 0x602 then openSession w.req s
  else if w.op = 0x606 then armRelease w.req s
  else match passwordIn (slice w.req.payload 36 36) with
    | some pw => setPassword pw w.req s
    | none => s

/-- The check of the password that a host's command brought ends, 200 ms after it was taken; a change of the password waits for the end of a brown-out warning (R297, R461). -/
def endCheck (h : HostId) (s : State) : State :=
  match (ringAt s h).wait with
  | some w =>
    if s.safety.checking = some (hostIx h).val ∧ w.op / 256 = 6 ∧ w.at_ + 200000000 ≤ s.now then
      if rightPassword s (slice w.req.payload 1 (arg w.req 0 1)) then
        if w.op = 0x604 ∧ s.power.brownout.isSome then s
        else s |> modSafety (fun f => { f with checking := none }) |> afterCheck w |> answerWait h 0 []
      else s |> modSafety (fun f => { f with checking := none }) |> countDev 0xB03 0 |> answerWait h 6 []
    else s
  | none => s

/-- PASSWORD_CHECK_DONE (R297): the check that runs ends. -/
def execPasswordCheckDone (t : Nat) (s : State) : Answer := effect t fwRuns (forAll allHosts endCheck) s

/-! ## Status and the log (R293, R301, R380) -/

/-- The reasons of a region: bit m for monitor code m, bit 7 for a host order. -/
def reasonBits (x : RegSafe) : Nat :=
  let f := fun (k : Nat) => x.reasons.any fun q => match q with
    | .monitor m _ => m == k
    | _ => k == 7
  ((List.range 8).map fun k => b2n (f k) * 2 ^ k).foldl (· + ·) 0

/-- `safety.status`. -/
def doSafetyStatus (q : Req) (s : State) : Reply :=
  let first := regionArg q 0
  let groups := ((List.range 16).map fun g => b2n (mget? s.safety.grpLock g).isSome * 2 ^ g).foldl (· + ·) 0
  let safe := s.safety.reg.filter (·.2.inSafe)
  let l := (safe.filter fun e => first ≤ e.1).take 250
  okay (by8 (safetyByte s) ++ by8 (lockByte s) ++ by16 groups ++ by16 safe.length ++ by16 l.length ++
    l.flatMap fun e => by16 e.1 ++ by16 (reasonBits e.2)) s

/-- `safety.status`, 0x607. -/
def cmdSafetyStatus : Cmd := { op := 0x607, need := .free 0x0B, len := 2, body := doSafetyStatus }

/-- The oldest and newest numbers of a log whose next number is given: with no entry, that number and the one before it. -/
def logSpan (seqs : List Nat) (next : BitVec 32) : List Byte :=
  by32 (seqs.headD next.toNat) ++ by32 (seqs.getLastD ((next - 1#32).toNat))

/-- `safety.log_read`: entries of the log from a number on. -/
def doSafetyLogRead (q : Req) (s : State) : Reply :=
  let f := s.safety
  let n := arg q 4 1
  guardR (1 ≤ n && n ≤ 7) 3 s <|
    let l := (f.log.filter fun e => arg q 0 4 ≤ e.seq).take n
    okay (logSpan (f.log.map (·.seq)) f.logNext ++ by8 l.length ++ List.replicate 3 0#8 ++ l.flatMap (·.bytes)) s

/-- `safety.log_read`, 0x608. -/
def cmdSafetyLogRead : Cmd := { op := 0x608, need := .free 0x0B, len := 5, body := doSafetyLogRead }

/-- `safety.log_ack`: entries up to a number are exported, and the acknowledgement is itself logged (R301, R302). -/
def doLogAck (q : Req) (s : State) : Reply :=
  let n := arg q 0 4
  guardR (n < s.safety.logNext.toNat) 3 s <|
    okay [] (s
      |> modSafety (fun f => { f with logAcked := max f.logAcked (n + 1) })
      |> (fun s => modSafety (fun f => { f with fullRaised := f.fullRaised && logFull s }) s)
      |> safetyLog (hostCode q.host) 0x08 targetDevice (nodeOf q) 0 0 noDigest noDigest (by32 n))

/-- `safety.log_ack`, 0x609. -/
def cmdLogAck : Cmd := { op := 0x609, need := .dom 0x0B, len := 4, body := doLogAck }

/-- Counters of the safety controller: trips by monitor and group, substitute frames by gallery. -/
def safetyRows : List CtrRow :=
  [(0x701, ((List.range 5).flatMap fun m => (List.range 16).map fun g => (m + 1) * 16 + g) ++ [0x60]), (0x702, List.range 8), (0x703, [0]), (0x704, [0])]

/-- `safety.counters`, 0x60A. -/
def cmdSafetyCounters : Cmd := { op := 0x60A, need := .free 0x0B, len := 8, body := devCounters safetyRows }

/-! ## The rows -/

/-- SAFETY_GROUP_SET (R279). -/
def execSafetyGroupSet (t : Nat) (q : Req) (s : State) : Answer := command t cmdGroupSet q s

/-- SAFETY_MONITOR_SET (R280). -/
def execSafetyMonitorSet (t : Nat) (q : Req) (s : State) : Answer := command t cmdMonitorSet q s

/-- SAFETY_UNLOCK (R298). -/
def execSafetyUnlock (t : Nat) (q : Req) (s : State) : Answer := command t cmdUnlock q s

/-- SAFETY_LOCK (R298). -/
def execSafetyLock (t : Nat) (q : Req) (s : State) : Answer := command t cmdLock q s

/-- SAFETY_PASSWORD_SET (R297). -/
def execSafetyPasswordSet (t : Nat) (q : Req) (s : State) : Answer := command t cmdPasswordSet q s

/-- SAFETY_ORDER (R290). -/
def execSafetyOrder (t : Nat) (q : Req) (s : State) : Answer := command t cmdOrder q s

/-- SAFETY_RELEASE (R295). -/
def execSafetyRelease (t : Nat) (q : Req) (s : State) : Answer := command t cmdSafetyRelease q s

/-- SAFETY_STATUS (R380). -/
def execSafetyStatus (t : Nat) (q : Req) (s : State) : Answer := command t cmdSafetyStatus q s

/-- SAFETY_LOG_READ (R301). -/
def execSafetyLogRead (t : Nat) (q : Req) (s : State) : Answer := command t cmdSafetyLogRead q s

/-- SAFETY_LOG_ACK (R301). -/
def execSafetyLogAck (t : Nat) (q : Req) (s : State) : Answer := command t cmdLogAck q s

/-- SAFETY_COUNTERS (R305). -/
def execSafetyCounters (t : Nat) (q : Req) (s : State) : Answer := command t cmdSafetyCounters q s

end Sys2Proof.Machine
end

