-- ==== Sys2Proof/Machine/LinkCmds.lean ====
section
/-! DEFINITION. Commands 0x7xx and 0x8xx: node ID, routing, windows, sinks, event rings, remote access, sync, late errors, and the two-wire ports (R307, R312, R313, R319, R320, R325, R328, R335, R351, R381, R382, R416 to R425). -/

namespace Sys2Proof.Machine

/-! ## Node ID and routing (R307, R312, R313, R316) -/

/-- `bridge.node_set`. -/
def doNodeSet (q : Req) (s : State) : Reply :=
  guardR (arg q 0 2 != 0xFFFF) 3 s (okay [] (modLive (fun v => { v with node := BitVec.ofNat 16 (arg q 0 2) }) s))

/-- `bridge.node_set`, 0x700. -/
def cmdNodeSet : Cmd := { op := 0x700, need := .dom 0x0C, len := 2, stage := true, body := doNodeSet }

/-- An entry that `route.set` accepts: no reserved bit set, and a gallery set for FORWARD and REWRITE (R313). -/
def routeOk (e : BitVec 64) : Bool :=
  !e.getLsbD 35 && e.extractLsb' 60 4 == 0#4 && ((e.extractLsb' 32 2).toNat < 2 || e.extractLsb' 36 8 != 0#8)

/-- `route.set`; an entry with an uncorrectable error is good again once written (R316). -/
def doRouteSet (q : Req) (s : State) : Reply :=
  let n := arg q 0 2
  let e := BitVec.ofNat 64 (arg q 4 8)
  guardR (n < 2048 && routeOk e) 3 s <|
    let s := modLive (fun v => { v with routes := mset 0#64 v.routes n e }) s
    okay [] { s with hall := { s.hall with routeBad := s.hall.routeBad.filter (· ≠ n) } }

/-- `route.set`, 0x701. -/
def cmdRouteSet : Cmd := { op := 0x701, need := .dom 0x0C, len := 12, stage := true, body := doRouteSet }

/-- `route.get`. -/
def doRouteGet (q : Req) (s : State) : Reply :=
  let first := arg q 0 2
  let n := arg q 2 2
  guardR (1 ≤ n && n ≤ 84 && first + n ≤ 2048) 3 s <|
    okay ((List.range n).flatMap fun k =>
      by16 (first + k) ++ by8 (b2n (decide (first + k ∈ s.hall.routeBad))) ++ by8 0 ++ leBytes 8 (mget 0#64 s.live.routes (first + k)).toNat) s

/-- `route.get`, 0x702. -/
def cmdRouteGet : Cmd := { op := 0x702, need := .free 0x0C, len := 4, body := doRouteGet }

/-! ## Windows (R319, R320) -/

/-- The window of a request as it would be held: the target follows from the base, and reserved bits read 0. -/
def windowOf (q : Req) : BitVec 128 :=
  let w := BitVec.ofNat 128 (arg q 4 16)
  let fixed := w &&& (0x0000FFFFFFFF0003FF3FFFFFFFFFFFFF#128)
  fixed ||| (BitVec.ofNat 128 ((targetOf (winBase w)).getD 0) <<< 54)

/-- The checks of R320 but for windows 0 and 1. -/
def windowOk (w : BitVec 128) : Bool :=
  let size := winBits w 52 48
  match targetOf (winBase w) with
  | none => false
  | some t =>
    let r := mapRanges.getD t (0, 0)
    8 ≤ size && size ≤ 26 && winBase w + winSize w ≤ r.1 + r.2 && winBase w % winSize w == 0 &&
      winBits w 61 60 != 3 && winBits w 63 62 != 3 && winBits w 65 64 != 3 &&
      !(winFlag w 56 && (t == 0 || t == 3)) && !(winFlag w 57 && t ≤ 1) && !(winFlag w 58 && t != 3) &&
      !((winBits w 61 60 != 0 || winBits w 65 64 != 0) && t ≤ 1) && !(!winFlag w 59 && t == 1)

/-- A window without its source filter. -/
def noFilter (w : BitVec 128) : BitVec 128 := w &&& 0x00000000000000000003FFFFFFFFFFFFFFFF#128 &&& ~~~(0xFFFFFFFF#128 <<< 80)

/-- `bridge.window_set`. -/
def doWindowSet (q : Req) (s : State) : Reply :=
  if h : arg q 0 1 < 16 then
    let w := windowOf q
    guardR (windowOk w && (2 ≤ arg q 0 1 || noFilter w == noFilter s.live.windows[arg q 0 1])) 3 s
      (okay [] (modLive (fun v => { v with windows := v.windows.set (arg q 0 1) w h }) s))
  else fail 3 s

/-- `bridge.window_set`, 0x703. -/
def cmdWindowSet : Cmd := { op := 0x703, need := .dom 0x0C, len := 20, stage := true, body := doWindowSet }

/-- `bridge.window_get`. -/
def doWindowGet (_q : Req) (s : State) : Reply := okay (s.live.windows.toList.flatMap fun w => leBytes 16 w.toNat) s

/-- `bridge.window_get`, 0x704. -/
def cmdWindowGet : Cmd := { op := 0x704, need := .free 0x0C, len := 0, body := doWindowGet }

/-! ## Events (R335, R351) -/

/-- `event.sink_set`. -/
def doSinkSet (q : Req) (s : State) : Reply :=
  let node := arg q 4 2
  if h : arg q 0 1 < 4 then
    guardR (arg q 1 1 ≤ 1 && arg q 2 1 ≤ 4 && node != 0 && node != 0xFFFF) 3 s
      (okay [] (modLive (fun v =>
        { v with sinks := v.sinks.set (arg q 0 1) { enable := arg q 1 1 == 1, minSev := arg q 2 1, node := BitVec.ofNat 16 node } h }) s))
  else fail 3 s

/-- `event.sink_set`, 0x705. -/
def cmdSinkSet : Cmd := { op := 0x705, need := .dom 0x0C, len := 6, stage := true, body := doSinkSet }

/-- `event.ring_set`: the caller's event ring. -/
def doRingSet (q : Req) (s : State) : Reply :=
  guardR (arg q 0 1 ≤ 4) 3 s (okay [] (modRing q.host (fun r => { r with evtMin := arg q 0 1 }) s))

/-- `event.ring_set`, 0x706. -/
def cmdRingSet : Cmd := { op := 0x706, need := .free 0x0C, len := 1, body := doRingSet }

/-- `event.read`: up to 3 entries, which leave the ring. -/
def doEventRead (q : Req) (s : State) : Reply :=
  let l := (ringAt s q.host).evts
  let part := l.take 3
  okay (by8 part.length ++ by8 (l.length - part.length) ++ by16 0 ++ part.flatMap (fit 256)) (modRing q.host (fun r => { r with evts := l.drop 3 }) s)

/-- `event.read`, 0x707. -/
def cmdEventRead : Cmd := { op := 0x707, need := .free 0x0C, len := 0, body := doEventRead }

/-! ## Remote access (R325) -/

/-- The values of a `bridge.remote` lie in their ranges. -/
def remoteArgs (q : Req) : Bool :=
  let kind := arg q 2 1
  let n := arg q 14 2
  let time := arg q 4 4
  time ≤ 1000 && 1 ≤ n &&
    if kind = 1 then n ≤ 1000 && q.payload.length == 16 && !bitOf (arg q 3 1) 0
    else kind == 2 && n ≤ 992 && q.payload.length == 16 + n

/-- The request parcel of a `bridge.remote`. -/
def remoteParcel (q : Req) (s : State) : Parcel :=
  let f := arg q 3 1
  let read := arg q 2 1 == 1
  let attr := bits f 3 2 + 4 * b2n (bitOf f 1)
  let body := slice q.payload 8 8 ++ if read then [] else padTo 4 (q.payload.drop 16)
  let posted := bitOf f 0
  mkParcel (msgHdr (if posted then .pm else .np) false (arg q 2 1) body.length (BitVec.ofNat 16 (arg q 0 2)) (ownNode s)
    (BitVec.ofNat 8 s.bridge.remoteTag) (BitVec.ofNat 8 attr) 0#12 false false 0#32) body

/-- Send a request of the device itself: one for this landing enters the port 9 queue (R311). -/
def sendOwn (p : Parcel) (s : State) : State × Bool :=
  match route s (pDest p) with
  | .here => (sendHere p s, true)
  | _ => sendRouted p none s

/-- `bridge.remote`: a posted write answers once sent; any other request waits for its completion (R325). -/
def doRemote (q : Req) (s : State) : Reply :=
  guardR (remoteArgs q) 3 s <| guardR (gateOn s 22) 4 s <| guardR s.bridge.remote.isNone 1 s <|
    let s := if arg q 4 4 = 0 then s else modLive (fun v => { v with remoteTimeout := arg q 4 4 }) s
    let x := sendOwn (remoteParcel q s) s
    if !x.2 then okay (remotePayload 9 []) x.1
    else if bitOf (arg q 3 1) 0 then okay (remotePayload 0 []) x.1
    else .wait (s.live.remoteTimeout * 100000) (modBridge (fun b =>
      { b with remote := some { tag := b.remoteTag, ring := (hostIx q.host).val, read := arg q 2 1 == 1, count := arg q 14 2, got := [] },
               remoteTag := (b.remoteTag + 1) % 64 }) x.1)

/-- `bridge.remote`, 0x708. -/
def cmdRemote : Cmd := { op := 0x708, need := .dom 0x0C, len := 16, max := 1008, body := doRemote }

/-! ## Posted writes (R327, R328) -/

/-- The source that a `bridge.sync` names: 0xFFFF stands for the node that sent it. -/
def syncSource (q : Req) : BitVec 16 := if arg q 0 2 = 0xFFFF then q.src else BitVec.ofNat 16 (arg q 0 2)

/-- Whether a posted write of a source that entered the device before a point has neither completed nor failed. -/
def writesOut (s : State) (src : BitVec 16) (mark : Nat) : Bool :=
  (s.bridge.posted.any fun w => w.asker.src == src && decide (w.arrival < mark)) ||
    (toBridge s).any fun e => postedWrite (.parcel e.2.2) && pSrc e.2.2 == src && decide (e.2.1 < mark)

/-- The answer of a sync: the failures since the previous one, which restart from 0 (R328). -/
def syncAnswer (src : BitVec 16) (s : State) : List Byte × State :=
  let b := s.bridge
  let r := b.syncs.find? fun x => x.src == src
  let n := (r.map (·.failures)).getD 0
  let ev := match r with
    | some x => x.evicted
    | none => decide (src ∈ b.evicted)
  let rest := b.syncs.filter fun x => x.src != src
  (by16 n ++ by8 (b2n ev) ++ by8 0,
   { s with bridge := { b with syncs := if r.isSome then { src, failures := 0, evicted := false } :: rest else rest, evicted := b.evicted.filter (· ≠ src) } })

/-- `bridge.sync`: it waits while a posted write of its source is outstanding. -/
def doSync (q : Req) (s : State) : Reply :=
  let src := syncSource q
  if writesOut s src s.mbx.frame then .wait 50000000 s
  else let x := syncAnswer src s; okay x.1 x.2

/-- `bridge.sync`, 0x709. -/
def cmdSync : Cmd := { op := 0x709, need := .free 0x0C, len := 2, body := doSync }

/-- A sync that a host waits for answers, once no posted write of its source is outstanding (R328). -/
def endSync (h : HostId) (s : State) : State :=
  match (ringAt s h).wait with
  | some w =>
    if w.op = 0x709 ∧ !writesOut s (syncSource w.req) w.mark then
      let x := syncAnswer (syncSource w.req) s
      answerWait h 0 x.1 x.2
    else s
  | none => s

/-- BRIDGE_SYNC_DONE (R328): syncs whose posted writes have completed or failed answer. -/
def execBridgeSyncDone (t : Nat) (s : State) : Answer := effect t fwRuns (forAll allHosts endSync) s

/-- `bridge.late_errors`. -/
def doLateErrors (_q : Req) (s : State) : Reply :=
  okay (by8 s.bridge.lateLog.length ++ List.replicate 3 0#8 ++ s.bridge.lateLog.flatMap lateBytes) s

/-- `bridge.late_errors`, 0x70A. -/
def cmdLateErrors : Cmd := { op := 0x70A, need := .free 0x0C, len := 0, body := doLateErrors }

/-- Counters of the bridge; 0x805 has an instance for each sink. -/
def bridgeRows : List CtrRow := (List.range 7).map fun k => (0x801 + k, if k = 4 then [0, 1, 2, 3] else [0])

/-- `bridge.counters`, 0x70B. -/
def cmdBridgeCounters : Cmd := { op := 0x70B, need := .free 0x0C, len := 8, body := devCounters bridgeRows }

/-! ## Two-wire ports (R382, R416, R420, R423, R425) -/

/-- `tw.config`; the filter takes effect once the buses are idle. -/
def doTwConfig (q : Req) (s : State) : Reply :=
  guardR (arg q 1 1 ≤ 2 && 8 ≤ arg q 2 1 && arg q 2 1 ≤ 0x77 && arg q 3 1 ≤ 15) 3 s <|
    let s := modLive (fun v =>
      { v with twPec := bitOf (arg q 0 1) 0, twAttn := arg q 1 1, twHost := BitVec.ofNat 8 (arg q 2 1), twFilter := arg q 3 1 }) s
    okay [] (doIf s.portL.lock.isNone (modPortL fun p => { p with filter := arg q 3 1 }) s)

/-- `tw.config`, 0x800. -/
def cmdTwConfig : Cmd := { op := 0x800, need := .dom 0, len := 4, stage := true, body := doTwConfig }

/-- `twl.config`. -/
def doTwlConfig (q : Req) (s : State) : Reply :=
  guardR (arg q 0 1 ≤ 2 && 1 ≤ arg q 1 2 && arg q 1 2 ≤ 1000) 3 s
    (okay [] (modLive (fun v => { v with twlSpeed := arg q 0 1, twlStretch := arg q 1 2 }) s))

/-- `twl.config`, 0x801. -/
def cmdTwlConfig : Cmd := { op := 0x801, need := .dom 0x0C, len := 4, stage := true, body := doTwlConfig }

/-- `twl.recover` runs the nine-clock recovery (R418, R420). -/
def doTwlRecover (_q : Req) (s : State) : Reply :=
  guardR (gateOn s 23) 4 s <| guardR s.portL.lock.isNone 1 s <|
    let s := s |> nineClocks |> failFenced
    okay (by8 (b2n s.portL.fenced)) s

/-- `twl.recover`, 0x802. -/
def cmdTwlRecover : Cmd := { op := 0x802, need := .dom 0x0C, len := 0, body := doTwlRecover }

/-- `tw.counters`, 0x803. -/
def cmdTwCounters : Cmd := { op := 0x803, need := .free 0, len := 8, body := devCounters ((List.range 5).map fun k => (0x901 + k, [0])) }

/-! ## The rows -/

/-- BRIDGE_NODE_SET (R307). -/
def execBridgeNodeSet (t : Nat) (q : Req) (s : State) : Answer := command t cmdNodeSet q s

/-- ROUTE_SET (R312). -/
def execRouteSet (t : Nat) (q : Req) (s : State) : Answer := command t cmdRouteSet q s

/-- ROUTE_GET (R312). -/
def execRouteGet (t : Nat) (q : Req) (s : State) : Answer := command t cmdRouteGet q s

/-- BRIDGE_WINDOW_SET (R320). -/
def execBridgeWindowSet (t : Nat) (q : Req) (s : State) : Answer := command t cmdWindowSet q s

/-- BRIDGE_WINDOW_GET (R319). -/
def execBridgeWindowGet (t : Nat) (q : Req) (s : State) : Answer := command t cmdWindowGet q s

/-- EVENT_SINK_SET (R335). -/
def execEventSinkSet (t : Nat) (q : Req) (s : State) : Answer := command t cmdSinkSet q s

/-- EVENT_RING_SET (R351). -/
def execEventRingSet (t : Nat) (q : Req) (s : State) : Answer := command t cmdRingSet q s

/-- EVENT_READ (R351). -/
def execEventRead (t : Nat) (q : Req) (s : State) : Answer := command t cmdEventRead q s

/-- BRIDGE_REMOTE (R325). -/
def execBridgeRemote (t : Nat) (q : Req) (s : State) : Answer := command t cmdRemote q s

/-- BRIDGE_SYNC (R328). -/
def execBridgeSync (t : Nat) (q : Req) (s : State) : Answer := command t cmdSync q s

/-- BRIDGE_LATE_ERRORS (R327). -/
def execBridgeLateErrors (t : Nat) (q : Req) (s : State) : Answer := command t cmdLateErrors q s

/-- BRIDGE_COUNTERS (R340). -/
def execBridgeCounters (t : Nat) (q : Req) (s : State) : Answer := command t cmdBridgeCounters q s

/-- TW_CONFIG (R425). -/
def execTwConfig (t : Nat) (q : Req) (s : State) : Answer := command t cmdTwConfig q s

/-- TWL_CONFIG (R416). -/
def execTwlConfig (t : Nat) (q : Req) (s : State) : Answer := command t cmdTwlConfig q s

/-- TWL_RECOVER (R420). -/
def execTwlRecover (t : Nat) (q : Req) (s : State) : Answer := command t cmdTwlRecover q s

/-- TW_COUNTERS (R426). -/
def execTwCounters (t : Nat) (q : Req) (s : State) : Answer := command t cmdTwCounters q s

end Sys2Proof.Machine
end

