-- ==== Sys2Proof/Machine/SupplyCmds.lean ====
section
/-! DEFINITION. Commands 0x9xx: power states, references, REFOUT, clock status (R70, R383, R388, R441 to R447). -/

namespace Sys2Proof.Machine

/-- Whether an entry to P2 or P3 may begin (R447); a profile save is over within its own command, so none is in progress here. -/
def mayEnter (s : State) : Bool :=
  decide (s.pins.wakeLow ≤ s.now) && s.power.brownout.isNone && s.safety.armed.isNone && s.upd.state == .idle && s.power.entry.isNone

/-- `power.state_set`: the drain begins, port L's locked sequence ends, and the answer comes at the point of no return. -/
def doStateSet (q : Req) (s : State) : Reply :=
  guardR (arg q 0 1 == 2 || arg q 0 1 == 3) 3 s <| guardR (mayEnter s) 0x0A s <|
    .wait 5000000 (s |> modPower (fun p => { p with entry := some { target := arg q 0 1, startedAt := s.now } }) |> timeoutLock)

/-- `power.state_set`, 0x900. -/
def cmdStateSet : Cmd := { op := 0x900, need := .dom 0x0D, len := 1, body := doStateSet }

/-- `power.status`, 0x901. -/
def cmdPowerStatus : Cmd :=
  { op := 0x901, need := .free 0x0D, len := 0,
    body := fun _ s => okay (by8 (powerCode s) ++ by8 (b2n s.power.brownout.isSome) ++ by16 0 ++ by32 (min ((s.now - s.power.since) / 1000000) (2 ^ 32 - 1))) s }

/-- A reference code that a side may take: the crystal only where REF_MODE selects it (R70). -/
def refAllowed (s : State) (c : Nat) : Bool := c < 2 || (c == 2 && !s.power.sampled.refMode)

/-- `clock.ref_select`: the primary counts from the next reset, the backup from the next failure (R70). -/
def doRefSelect (q : Req) (s : State) : Reply :=
  let p := arg q 1 1
  let b := arg q 2 1
  if h : arg q 0 1 < 2 then
    guardR (refAllowed s p && (b == 0xFF || refAllowed s b) && b != p) 3 s <|
      okay [] (modLive (fun v => { v with refPrimary := v.refPrimary.set (arg q 0 1) (refOf p) h,
                                          refBackup := v.refBackup.set (arg q 0 1) (if b = 0xFF then none else some (refOf b)) h }) s)
  else fail 3 s

/-- `clock.ref_select`, 0x902. -/
def cmdRefSelect : Cmd := { op := 0x902, need := .dom 0x0D, len := 3, stage := true, body := doRefSelect }

/-- `clock.refout_set`. -/
def doRefoutSet (q : Req) (s : State) : Reply :=
  if h : arg q 0 1 < 2 then
    guardR (arg q 1 1 ≤ 1 && arg q 2 1 ≤ 8 && 25 ≤ arg q 3 1 && arg q 3 1 ≤ 65) 3 s <|
      okay [] (s
        |> modLive (fun v => { v with refoutOn := v.refoutOn.set (arg q 0 1) (arg q 1 1 == 1) h,
                                      refoutDepth := v.refoutDepth.set (arg q 0 1) (BitVec.ofNat 4 (arg q 2 1)) h,
                                      refoutRate := v.refoutRate.set (arg q 0 1) (BitVec.ofNat 8 (arg q 3 1)) h })
        |> driveRefout)
  else fail 3 s

/-- `clock.refout_set`, 0x903. -/
def cmdRefoutSet : Cmd := { op := 0x903, need := .dom 0x0D, len := 4, stage := true, body := doRefoutSet }

/-- The clock-enable word: islands on their run clocks, the bridge and port L (R438). -/
def enableWord (s : State) : BitVec 24 := s.clocks.gateOn &&& (s.clocks.onRun.setWidth 24 ||| 0xC00000#24)

/-- `clock.status`, 0x904. -/
def cmdClockStatus : Cmd :=
  { op := 0x904, need := .free 0x0D, len := 0,
    body := fun _ s => okay (by32 (enableWord s).toNat ++ by32 0 ++ s.clocks.meters.toList.flatMap (fun m => by32 m.toNat)) s }

/-- The counters of chapters 14 and 15. -/
def powerRows : List CtrRow := [(0xA01, List.range 22), (0xA02, List.range 22), (0xA03, [0, 1, 2]), (0xA04, [0]), (0xA05, [0])]

/-- `power.counters`, 0x905. -/
def cmdPowerCounters : Cmd := { op := 0x905, need := .free 0x0D, len := 8, body := devCounters powerRows }

/-! ## The rows -/

/-- POWER_STATE_SET (R447). -/
def execPowerStateSet (t : Nat) (q : Req) (s : State) : Answer := command t cmdStateSet q s

/-- POWER_STATUS (R383). -/
def execPowerStatus (t : Nat) (q : Req) (s : State) : Answer := command t cmdPowerStatus q s

/-- CLOCK_REF_SELECT (R70). -/
def execClockRefSelect (t : Nat) (q : Req) (s : State) : Answer := command t cmdRefSelect q s

/-- CLOCK_REFOUT_SET (R442). -/
def execClockRefoutSet (t : Nat) (q : Req) (s : State) : Answer := command t cmdRefoutSet q s

/-- CLOCK_STATUS (R443). -/
def execClockStatus (t : Nat) (q : Req) (s : State) : Answer := command t cmdClockStatus q s

/-- POWER_COUNTERS (R394). -/
def execPowerCounters (t : Nat) (q : Req) (s : State) : Answer := command t cmdPowerCounters q s

end Sys2Proof.Machine
end

