-- ==== Sys2Proof/Machine/DiagCmds.lean ====
section
/-! DEFINITION. Commands 0xAxx and 0xBxx: loops, patterns, eye scans, counter clearing, sensors, the event log and its stream (R384, R385, R390, R485 to R494, R504). -/

namespace Sys2Proof.Machine

/-! ## Loops and patterns (R390, R485 to R487) -/

/-- The lanes that request byte 1 names: one, or all by 0xFF. -/
def lanesNamed (q : Req) : Option (List LaneIx) :=
  if h : arg q 1 1 < 8 then some [⟨arg q 1 1, h⟩] else if arg q 1 1 = 0xFF then some allLanes else none

/-- A command on lanes of a gallery. -/
def onLanes (q : Req) (s : State) (k : GalIx → List LaneIx → Reply) : Reply :=
  onGal q s fun g => match lanesNamed q with
    | some l => k g l
    | none => fail 3 s

/-- A gallery is taken out of service for a test: it is lost with cause 0x4 and keeps its terminations (R390, R485). -/
def takeGallery (g : GalIx) (s : State) : State := s |> loseGallery g 0x4 |> modGal g fun G => { G with testHold := true }

/-- `diag.loop_set`. -/
def doLoopSet (q : Req) (s : State) : Reply :=
  onLanes q s fun g ls =>
    let take := bitOf (arg q 3 1) 0
    guardR (arg q 2 1 ≤ 3) 3 s <|
      guardR ((galAt s g).lost.isSome || (take && galActive s g)) 0x0A s <|
        okay [] (s |> doIf (galAt s g).lost.isNone (takeGallery g) |> forAll ls fun l => modLane g l fun L => { L with loop := arg q 2 1 })

/-- `diag.loop_set`, 0xA00. -/
def cmdLoopSet : Cmd := { op := 0xA00, need := .dom 0x0E, len := 4, body := doLoopSet }

/-- Whether a pattern suits the coding of a tread (R486). -/
def suits (pattern tread : Nat) : Bool := pattern == 0 || (if tread ≤ 3 then pattern ≤ 5 else 6 ≤ pattern)

/-- The coefficients that a lane under test sends with: fixed, or last qualified at the tread (R58, R134, R486). -/
def testCoef (s : State) (g : GalIx) (l : LaneIx) (t : Nat) : Coef :=
  let L := laneAt s g l
  match ((galSet s g).lanes[l]).coef with
  | some c => c
  | none => (mget? L.txSaved t).getD L.coef

/-- A lane's generator and checker are set anew, its counts cleared (R486). -/
def setPattern (q : Req) (g : GalIx) (l : LaneIx) (s : State) : State :=
  let p := arg q 3 1
  let gen := bitOf (arg q 2 1) 0 && p != 0
  let chk := bitOf (arg q 2 1) 1 && p != 0
  let c := testCoef s g l (arg q 4 1)
  modLane g l (fun L => { L with prbs := { gen, chk, pattern := p }, coef := if gen then c else L.coef, txIdle := !gen }) s

/-- The transmitters after a change of generators: lanes with one send its pattern at the tread, the others idle, and the clock lane runs while one does (R486). -/
def sendPatterns (g : GalIx) (t : Tread) (s : State) : State :=
  let on := bitmap ((allLanes.filter fun l => (laneAt s g l).prbs.gen).map (·.val))
  let some_ := on != 0#8
  s |> modTx g (fun x => { x with clkIdle := !some_ })
    |> emit (.idle g (~~~on) (!some_))
    |> doIf some_ (fun s => s |> emit (.retune g t) |> emit (.prbs g on))

/-- `diag.prbs_set`. -/
def doPrbsSet (q : Req) (s : State) : Reply :=
  onLanes q s fun g ls =>
    if h : arg q 4 1 < 6 then
      guardR (arg q 3 1 ≤ 7 && suits (arg q 3 1) (arg q 4 1)) 3 s <|
        guardR (galAt s g).lost.isSome 0x0A s <|
          okay [] (s |> forAll ls (setPattern q g) |> sendPatterns g ⟨arg q 4 1, h⟩)
    else fail 3 s

/-- `diag.prbs_set`, 0xA01. -/
def cmdPrbsSet : Cmd := { op := 0xA01, need := .dom 0x0E, len := 5, body := doPrbsSet }

/-- `diag.prbs_get`. -/
def doPrbsGet (q : Req) (s : State) : Reply :=
  onGal q s fun g =>
    okay (allLanes.flatMap fun l =>
      let p := (laneAt s g l).prbs
      by8 p.pattern ++ by8 (b2n p.locked) ++ by16 0 ++ leBytes 8 p.errors ++ leBytes 8 p.bits) s

/-- `diag.prbs_get`, 0xA02. -/
def cmdPrbsGet : Cmd := { op := 0xA02, need := .free 0x0E, len := 1, body := doPrbsGet }

/-! ## Eye scans (R488, R489) -/

/-- Whether a receive lane is in lock. -/
def laneLocked (L : Lane) : Bool := L.block == .locked || L.cw == .locked

/-- Whether a point of a scan is open. -/
def isOpen (e : EyeScan) (p v : Nat) : Bool := (e.points.getD p 0#128).getLsbD v

/-- How far a run reaches from a place: the steps for which a test holds without a break. -/
def reach (f : Nat → Bool) (n : Nat) : Nat := ((List.range n).takeWhile f).length

/-- The open run through the centre along phases: its first phase and its length. -/
def phaseRun (e : EyeScan) : Nat × Nat :=
  let up := reach (fun k => isOpen e (32 + k) 64) 32
  let down := reach (fun k => isOpen e (31 - k) 64) 32
  if up = 0 then (32, 0) else (32 - down, down + up)

/-- The open run through the centre along voltages. -/
def voltRun (e : EyeScan) : Nat × Nat :=
  let up := reach (fun k => isOpen e 32 (64 + k)) 64
  let down := reach (fun k => isOpen e 32 (63 - k)) 64
  if up = 0 then (64, 0) else (64 - down, down + up)

/-- The midpoint of a run; which way a half is rounded, and the centre of an eye without an open run, are left open (note 15). -/
def midpoint (draw : Nat) (r : Nat × Nat) : Nat :=
  let twice := 2 * r.1 + r.2 - 1
  if r.2 = 0 then (Config.noCentre draw).toNat else twice / 2 + b2n (twice % 2 == 1 && Config.midUp twice)

/-- `diag.eye_scan`. -/
def doEyeScan (q : Req) (s : State) : Reply :=
  onGal q s fun g =>
    if h : arg q 1 1 < 8 then
      let L := laneAt s g ⟨arg q 1 1, h⟩
      let pam := decide (((galAt s g).rx.tread.getD 0).val ≥ 4)
      guardR ((arg q 2 1 == 0 || (pam && arg q 2 1 ≤ 2)) && arg q 3 1 ≤ 1) 3 s <|
        guardR (laneLocked L) 0x0A s <|
          match mget? L.eyes (arg q 2 1) with
          | some e =>
            let w := phaseRun e
            let v := voltRun e
            let half := (List.range 32).flatMap fun k => leBytes 16 (e.points.getD (32 * arg q 3 1 + k) 0#128).toNat
            okay (by8 w.2 ++ by8 v.2 ++ by8 (midpoint s.free w) ++ by8 (midpoint (s.free + 1) v) ++
              by32 (min ((s.now - e.at_) / 1000000) (2 ^ 32 - 1)) ++ half) { s with free := s.free + 2 }
          | none => fail 0x0A s
    else fail 3 s

/-- `diag.eye_scan`, 0xA03. -/
def cmdEyeScan : Cmd := { op := 0xA03, need := .free 0x0E, len := 4, body := doEyeScan }

/-- EYE_SCAN_COMPLETE (R489): a lane in lock ends the scan of an eye; an NRZ tread has eye 0 alone, and a lane darned or idle has stopped its scan. -/
def execEyeScanComplete (t : Nat) (g : GalIx) (lane : LaneIx) (eye : Fin 3) (points : List (BitVec 128)) (s : State) : Answer :=
  effect t (fun s => hopRuns s g && laneLocked (laneAt s g lane) && !(laneAt s g lane).failed && !(laneAt s g lane).rxIdle) (fun s =>
    let pam := decide (((galAt s g).rx.tread.getD 0).val ≥ 4)
    if eye = 0 ∨ pam then modLane g lane (fun L => { L with eyes := mput L.eyes eye.val { at_ := s.now, points } }) s else s) s

/-! ## Counters, sensors (R384, R490, R491) -/

/-- `diag.counters_clear`, 0xA04: every counter but the violations. -/
def cmdCountersClear : Cmd :=
  { op := 0xA04, need := .dom 0x0E, len := 0, body := fun _ s => okay [] { s with ctr := keptCounters .command s.ctr } }

/-- The readings of `sensor.read`: nine temperatures, twelve supplies. -/
def sensorBytes (s : State) : List Byte :=
  s.diag.temps.toList.flatMap (fun t => by16 (t % 65536).toNat) ++ s.diag.supplies.toList.flatMap (fun v => by16 v)

/-- `sensor.read`, 0xB00. -/
def cmdSensorRead : Cmd := { op := 0xB00, need := .free 0x0E, len := 0, body := fun _ s => okay (sensorBytes s) s }

/-! ## The event log (R492 to R494) -/

/-- An entry of the event log as stored. -/
def logBytes (e : LogEntry) : List Byte :=
  let head := by32 e.seq ++ by16 e.code ++ by8 e.severity ++ by8 (b2n (decide (e.body.length > 16)) + 2 * b2n e.deferred + 4 * b2n e.gap) ++
    leBytes 6 e.uptimeUs ++ by8 e.boot
  let body := fit 16 e.body
  head ++ [crc8 (head ++ body)] ++ body

/-- `log.read`: entries of MRAM from a number on. -/
def doLogRead (q : Req) (s : State) : Reply :=
  let n := arg q 4 1
  guardR (1 ≤ n && n ≤ 31) 3 s <|
    let l := (s.log.entries.filter fun e => arg q 0 4 ≤ e.seq).take n
    okay (logSpan (s.log.entries.map (·.seq)) s.log.next ++ by8 l.length ++ List.replicate 3 0#8 ++ l.flatMap logBytes) s

/-- `log.read`, 0xB01. -/
def cmdLogRead : Cmd := { op := 0xB01, need := .free 0x0E, len := 5, body := doLogRead }

/-- Change the event log. -/
def modLog (f : EventLog → EventLog) (s : State) : State := { s with log := f s.log }

/-- The stream ends, and ring 12 with it. -/
def endStream (s : State) : State := modLog (fun f => { f with stream := none, ring12 := [], streamGap := false }) s

/-- `log.stream`: stop, start or read. -/
def doLogStream (q : Req) (s : State) : Reply :=
  let w := holderOf q.host q.src
  let other : Bool := match s.log.stream with
    | some h => holderOf h.host h.src != w
    | none => false
  let a := arg q 0 1
  guardR (a ≤ 2 && (a != 1 || arg q 1 1 ≤ 4)) 3 s <|
    guardR (!other) 1 s <|
      if a = 0 then okay [] (endStream s)
      else if a = 1 then
        okay [] (s |> endStream |> modLog fun f => { f with stream := some { host := q.host, src := q.src, minSev := arg q 1 1, lastRead := s.now } })
      else
        let l := s.log.ring12.take 31
        okay (by8 l.length ++ List.replicate 3 0#8 ++ l.flatMap logBytes)
          (modLog (fun f => { f with ring12 := f.ring12.drop 31, stream := f.stream.map fun h => { h with lastRead := s.now } }) s)

/-- `log.stream`, 0xB02. -/
def cmdLogStream : Cmd := { op := 0xB02, need := .free 0x0E, len := 2, body := doLogStream }

/-- LOG_STREAM_HOLDER_EXPIRY (R385): 10 s without a read release ring 12. -/
def execLogStreamHolderExpiry (t : Nat) (s : State) : Answer :=
  effect t active (fun s =>
    match s.log.stream with
    | some h => if h.lastRead + 10000000000 ≤ s.now then endStream s else s
    | none => s) s

/-- LOG_WRITER_FLUSH (R461, R493): one staged entry a millisecond goes to MRAM, but not during a brown-out warning. -/
def execLogWriterFlush (t : Nat) (s : State) : Answer :=
  effect t (fun s => guarding s && s.power.brownout.isNone) (fun s =>
    let due : Bool := match s.log.lastWrite with
      | some a => a + 1000000 ≤ s.now
      | none => true
    match s.log.staging with
    | e :: l =>
      if due then
        let all := s.log.entries ++ [e]
        modLog (fun f => { f with entries := all.drop (all.length - 16384), staging := l, written := f.written + 1#32, lastWrite := some s.now }) s
      else s
    | [] => s) s

/-! ## The rows -/

/-- DIAG_LOOP_SET (R390). -/
def execDiagLoopSet (t : Nat) (q : Req) (s : State) : Answer := command t cmdLoopSet q s

/-- DIAG_PRBS_SET (R486). -/
def execDiagPrbsSet (t : Nat) (q : Req) (s : State) : Answer := command t cmdPrbsSet q s

/-- DIAG_PRBS_GET (R487). -/
def execDiagPrbsGet (t : Nat) (q : Req) (s : State) : Answer := command t cmdPrbsGet q s

/-- DIAG_EYE_SCAN (R489). -/
def execDiagEyeScan (t : Nat) (q : Req) (s : State) : Answer := command t cmdEyeScan q s

/-- DIAG_COUNTERS_CLEAR (R384). -/
def execDiagCountersClear (t : Nat) (q : Req) (s : State) : Answer := command t cmdCountersClear q s

/-- SENSOR_READ (R490). -/
def execSensorRead (t : Nat) (q : Req) (s : State) : Answer := command t cmdSensorRead q s

/-- LOG_READ (R494). -/
def execLogRead (t : Nat) (q : Req) (s : State) : Answer := command t cmdLogRead q s

/-- LOG_STREAM (R494). -/
def execLogStream (t : Nat) (q : Req) (s : State) : Answer := command t cmdLogStream q s

end Sys2Proof.Machine
end

