-- ==== Sys2Proof/Machine/UpdateCmds.lean ====
section
/-! DEFINITION. Commands 0xCxx, and the ends of a verification and of a commit: the firmware update (R386, R471 to R477, R484). -/

namespace Sys2Proof.Machine

/-- Change the update in progress. -/
def modUpd (f : Update → Update) (s : State) : State := { s with upd := f s.upd }

/-- The slot an update writes: the one not running; in RECOVERY the one not valid, slot A where neither is, and the older where both are (R475, R476). -/
def updateTarget (s : State) : Nat :=
  match s.mez.slot with
  | some n => 1 - n
  | none =>
    let a := slotValid s.otp (fwSlot s 0)
    let b := slotValid s.otp (fwSlot s 1)
    if a && b then (if (fwSlot s 0).generation ≤ (fwSlot s 1).generation then 0 else 1) else if a then 1 else 0

/-- `update.begin`; during a brown-out warning the slot is erased at its end. -/
def doUpdBegin (q : Req) (s : State) : Reply :=
  let n := arg q 0 4
  guardR (n % 4 == 0) 3 s <| guardR (n ≤ 1572864) 7 s <|
    let t := updateTarget s
    let s := modUpd (fun _ => { state := .receiving, target := t, length := n }) s
    okay (by8 t) (if s.power.brownout.isSome then modUpd (fun u => { u with eraseDue := true }) s else eraseSlot s)

/-- `update.begin`, 0xC00. -/
def cmdUpdBegin : Cmd := { op := 0xC00, need := .dom 0, len := 4, body := doUpdBegin }

/-- `update.chunk`: written at once, or kept in ring 15 during a brown-out warning while it has room. -/
def doUpdChunk (q : Req) (s : State) : Reply :=
  let off := arg q 0 4
  let data := q.payload.drop 4
  guardR (off % 4 == 0) 3 s <|
    guardR ((s.upd.state == .receiving || s.upd.state == .verified) && !committing s) 0x0A s <|
      guardR (off + data.length ≤ s.upd.length) 3 s <|
        guardR (s.power.brownout.isNone || s.upd.chunks.length < 4) 1 s <|
          let s := modUpd (fun u => { u with state := .receiving }) s
          okay [] (if s.power.brownout.isSome then modUpd (fun u => { u with chunks := u.chunks ++ [(off, data)] }) s else putChunk off data s)

/-- `update.chunk`, 0xC01. -/
def cmdUpdChunk : Cmd := { op := 0xC01, need := .dom 0, len := 8, max := 1008, body := doUpdChunk }

/-- The image received. -/
def image (u : Update) : List Byte := u.bytes.map (·.2)

/-- Whether every byte of an image has arrived. -/
def wholeImage (u : Update) : Bool := u.bytes.length == u.length && u.chunks.isEmpty

/-- `update.verify`. -/
def doUpdVerify (_ : Req) (s : State) : Reply :=
  guardR ((s.upd.state == .receiving || s.upd.state == .verified) && wholeImage s.upd && !committing s) 0x0A s (.wait 1000000000 s)

/-- `update.verify`, 0xC02. -/
def cmdUpdVerify : Cmd := { op := 0xC02, need := .dom 0, len := 0, body := doUpdVerify }

/-- The waiting command of an update answers. -/
def answerUpd (op status : Nat) (payload : List Byte) (s : State) : State := answerWaiting (fun w => w.op == op) status payload s

/-- Whether a command of an opcode waits on some ring. -/
def someWaits (op : Nat) (s : State) : Bool := allHosts.any fun h => (ringAt s h).wait.any fun w => w.op == op

/-- UPDATE_VERIFY_DONE (R472, R476, R482). -/
def execUpdateVerifyDone (t : Nat) (s : State) : Answer :=
  effect t (fun s => active s && (fwRuns s || romServes s) && someWaits 0xC02 s) (fun s =>
    let b := image s.upd
    if !wholeImage s.upd then answerUpd 0xC02 0x0A [] s
    else if !imageSigned s.otp b then s |> countDev 0xB05 0 |> answerUpd 0xC02 0x0B []
    else if !authentic s.otp b then s |> countDev 0xB05 0 |> answerUpd 0xC02 6 []
    else s |> modUpd (fun u => { u with state := .verified, digest := sha384Num b }) |> answerUpd 0xC02 0 (slice b 8 4)) s

/-- `update.commit`: the slot is COMMITTING until the commit ends. -/
def doUpdCommit (_ : Req) (s : State) : Reply :=
  guardR (s.upd.state == .verified && !committing s) 0x0A s <| guardR s.power.brownout.isNone 1 s <|
    .wait 5000000000 (modFwSlot s.upd.target (fun x => { x with state := .committing }) s)

/-- `update.commit`, 0xC03. -/
def cmdUpdCommit : Cmd := { op := 0xC03, need := .dom 0, len := 0, body := doUpdCommit }

/-- The slot record that a commit writes (R473, R476). -/
def trialSlot (s : State) : Slot :=
  let b := image s.upd
  { state := .trial, generation := (fwSlot s (1 - s.upd.target)).generation + 1, level := BitVec.ofNat 32 (field b 8 4), secVersion := byteAt b 12,
    length := b.length, digest := s.upd.digest, image := b }

/-- A commit fails: the slot is INVALID, and the update is over (R371, R476). -/
def failCommit (s : State) : State := s |> modFwSlot s.upd.target (fun x => { x with state := .invalid }) |> modUpd fun _ => {}

/-- UPDATE_COMMIT_DONE (R461, R476): the slot has been read back, and `same` tells whether its SHA-384 is the verified one. -/
def execUpdateCommitDone (t : Nat) (same : Bool) (s : State) : Answer :=
  effect t (fun s => active s && (fwRuns s || romServes s) && s.power.brownout.isNone && someWaits 0xC03 s) (fun s =>
    if !committing s then answerUpd 0xC03 0x0A [] s
    else if same then
      let x := trialSlot s
      s |> modFwSlot s.upd.target (fun _ => x)
        |> modUpd (fun u => { u with state := .committed })
        |> answerUpd 0xC03 0 []
        |> raise 0x0C01 (by8 s.upd.target ++ List.replicate 3 0#8 ++ by32 x.level.toNat)
    else s |> failCommit |> answerUpd 0xC03 0x0B []) s

/-- `update.activate`: it answers, and the restart follows within 1 ms. -/
def doUpdActivate (_ : Req) (s : State) : Reply :=
  guardR (s.upd.state == .committed) 0x0A s <|
    let a := fwSlot s 0
    let b := fwSlot s 1
    let n := (newestSlot a b (slotValid s.otp a) (slotValid s.otp b)).getD s.upd.target
    okay (by8 n ++ List.replicate 3 0#8 ++ by32 (fwSlot s n).level.toNat)
      { (modMez (fun m => { m with activateDue := some (s.now + Config.restartDelay s.free % 1000001) }) s) with upd := {}, free := s.free + 1 }

/-- `update.activate`, 0xC04. -/
def cmdUpdActivate : Cmd := { op := 0xC04, need := .dom 0, len := 0, body := doUpdActivate }

/-- The code of an update's state. -/
def updCode : UpdState → Nat
  | .idle => 0
  | .receiving => 1
  | .verified => 2
  | .committed => 3

/-- `update.status`. -/
def doUpdStatus (_ : Req) (s : State) : Reply :=
  let level := fun (n : Nat) => if slotValid s.otp (fwSlot s n) then (fwSlot s n).level.toNat else 0
  okay (by8 (updCode s.upd.state) ++ by8 s.upd.target ++ by16 0 ++ by32 s.upd.bytes.length ++ by32 (level 0) ++ by32 (level 1) ++
    by8 (rollbackCount s.otp)) s

/-- `update.status`, 0xC05. -/
def cmdUpdStatus : Cmd := { op := 0xC05, need := .free 0, len := 0, body := doUpdStatus }

/-! ## The rows -/

/-- UPDATE_BEGIN (R476). -/
def execUpdateBegin (t : Nat) (q : Req) (s : State) : Answer := command t cmdUpdBegin q s

/-- UPDATE_CHUNK (R476). -/
def execUpdateChunk (t : Nat) (q : Req) (s : State) : Answer := command t cmdUpdChunk q s

/-- UPDATE_VERIFY (R476). -/
def execUpdateVerify (t : Nat) (q : Req) (s : State) : Answer := command t cmdUpdVerify q s

/-- UPDATE_COMMIT (R476). -/
def execUpdateCommit (t : Nat) (q : Req) (s : State) : Answer := command t cmdUpdCommit q s

/-- UPDATE_ACTIVATE (R476). -/
def execUpdateActivate (t : Nat) (q : Req) (s : State) : Answer := command t cmdUpdActivate q s

/-- UPDATE_STATUS (R476). -/
def execUpdateStatus (t : Nat) (q : Req) (s : State) : Answer := command t cmdUpdStatus q s

end Sys2Proof.Machine
end

