-- ==== Sys2Proof/Machine/DebugCmds.lean ====
section
/-! DEFINITION. Commands 0xDxx and `freeze.arm`, `freeze.now`, and the FREEZE_N pin: nonces, tokens, lifecycle, violations, freeze triggers (R387, R388, R467 to R469, R478, R479, R482, R496). -/

namespace Sys2Proof.Machine

/-! ## Nonce and token (R479) -/

/-- Change the debug state. -/
def modDbg (f : Debug → Debug) (s : State) : State := { s with dbg := f s.dbg }

/-- A new nonce, which replaces any nonce held. -/
def newNonce (s : State) : State :=
  let r := drawRandom s
  modDbg (fun d => { d with nonce := some r.1 }) r.2

/-- A nonce and the serial number as both paths return them. -/
def nonceBytes (s : State) : List Byte := leBytes 32 (s.dbg.nonce.getD 0#256).toNat ++ leBytes 8 s.otp.serial.toNat

/-- `debug.nonce`. -/
def doNonce (_ : Req) (s : State) : Reply :=
  let s := newNonce s
  okay (nonceBytes s) s

/-- `debug.nonce`, 0xD00. -/
def cmdNonce : Cmd := { op := 0xD00, need := .free 0, len := 0, body := doNonce }

/-- The key hash that a key code names, where it counts (R467, R470, R479). -/
def debugKey (o : Otp) (key : Nat) : Option (BitVec 384) :=
  if key = 0 then (if lifecycle o = 0 then none else some o.dbgKey)
  else if lifecycle o = 1 ∧ o.custKey ≠ 0#384 ∧ o.custKey ≠ BitVec.allOnes 384 then some o.custKey
  else none

/-- Whether a token opens a level under a nonce. -/
def tokenOk (s : State) (nonce : BitVec 256) (level key : Nat) (sig : List Byte) : Bool :=
  match debugKey s.otp key with
  | some h => signedBy h (leBytes 8 s.otp.serial.toNat ++ leBytes 32 nonce.toNat ++ by8 level ++ by8 key) sig
  | none => false

/-- A token is checked: the nonce is consumed; success opens the level, failure counts a violation. -/
def useToken (nonce : BitVec 256) (level key : Nat) (sig : List Byte) (s : State) : Bool × State :=
  let ok := tokenOk s nonce level key sig
  let s := modDbg (fun d => { d with nonce := none, last := if ok then 1 else 2 }) s
  if ok then (true, s |> setLevel level true |> raise 0x0D01 (by8 level ++ by8 key)) else (false, countDev 0xB02 0 s)

/-- `debug.open`. -/
def doDebugOpen (q : Req) (s : State) : Reply :=
  let level := arg q 0 1
  let key := arg q 1 1
  guardR ((level == 1 || level == 2) && key ≤ 1) 3 s <|
    if lifecycle s.otp = 0 then okay (by8 2) s
    else match s.dbg.nonce with
      | none => fail 0x0A s
      | some n =>
        let r := useToken n level key (slice q.payload 4 96) s
        if r.1 then okay (by8 r.2.dbg.level) r.2 else fail 6 r.2

/-- `debug.open`, 0xD01. -/
def cmdDebugOpen : Cmd := { op := 0xD01, need := .free 0, len := 100, body := doDebugOpen }

/-- `debug.close`, 0xD02. -/
def cmdDebugClose : Cmd := { op := 0xD02, need := .free 0, len := 0, body := fun _ s => okay [] (setLevel (lifeLevel s.otp) false s) }

/-! ## Lifecycle (R468, R469, R484) -/

/-- The event of a transition. -/
def lifecycleChanged (old : Nat) (s : State) : State := raise 0x0D02 (by8 old ++ by8 (lifecycle s.otp)) s

/-- FACTORY to SECURED: the customer's key is enrolled, the open level falls, and the debug host's leases end as for a reset. -/
def secure (key : List Byte) (s : State) : State :=
  let s := { s with otp := { s.otp with custKey := BitVec.ofNat 384 (beNat key), secured := 0xFF#8 } }
  s |> setLevel 0 false
    |> endLeases (fun l => l.holder.any fun w => w.host == .debug) (some 3)
    |> lifecycleChanged 0

/-- To RETURNED: the open level falls, and the erasure is due. -/
def retire (s : State) : State :=
  let old := lifecycle s.otp
  { s with otp := { s.otp with returned := 0xFF#8 } }
    |> setLevel 0 false
    |> lifecycleChanged old
    |> modMram fun m => { m with erasing := true }

/-- `security.lifecycle_set`. -/
def doLifecycle (q : Req) (s : State) : Reply :=
  let target := arg q 0 1
  let key := slice q.payload 4 48
  let life := lifecycle s.otp
  guardR ((target == 1 || target == 2) && arg q 52 4 == s.otp.serial.toNat % 2 ^ 32 && (target == 1 || beNat key == 0)) 3 s <|
    guardR (if target = 1 then life == 0 else life != 2) 0x0A s <|
      guardR s.power.brownout.isNone 1 s <|
        okay [] (if target = 1 then secure key s else retire s)

/-- `security.lifecycle_set`, 0xD03. -/
def cmdLifecycle : Cmd := { op := 0xD03, need := .dom 0, len := 56, body := doLifecycle }

/-- The counters of violations (R482). -/
def violationRows : List CtrRow := (List.range 5).map fun k => (0xB01 + k, [0])

/-- `security.violations`, 0xD04: `clear` is ignored. -/
def cmdViolations : Cmd := { op := 0xD04, need := .free 0, len := 8, body := fun q s => countersReply (devRecords violationRows s) false q s }

/-! ## Freeze (R388, R496) -/

/-- Every event code (R393). -/
def eventCodes : List Nat :=
  [0x0001, 0x0002, 0x0003, 0x0004, 0x0101, 0x0201, 0x0202, 0x0203, 0x0204, 0x0205, 0x0206, 0x0207, 0x0208, 0x0301, 0x0302, 0x0303, 0x0304, 0x0305,
   0x0306, 0x0307, 0x0401, 0x0402, 0x0403, 0x0404, 0x0405, 0x0406, 0x0501, 0x0502, 0x0503, 0x0504, 0x0505, 0x0506, 0x0601, 0x0602, 0x0603, 0x0604,
   0x0605, 0x0606, 0x0607, 0x0608, 0x0701, 0x0702, 0x0801, 0x0901, 0x0902, 0x0903, 0x0904, 0x0905, 0x0C01, 0x0C02, 0x0D01, 0x0D02]

/-- `freeze.arm`. -/
def doFreezeArm (q : Req) (s : State) : Reply :=
  let code := arg q 2 2
  guardR (arg q 0 1 == 0 || (arg q 0 1 == 1 && decide (code ∈ eventCodes))) 3 s <|
    okay [] { s with diag := { s.diag with trigger := if arg q 0 1 = 0 then none else some (BitVec.ofNat 16 code) } }

/-- `freeze.arm`, 0xE00. -/
def cmdFreezeArm : Cmd := { op := 0xE00, need := .dom 0x0E, len := 4, body := doFreezeArm }

/-- `freeze.now`: OK, and the freeze starts within 10 us. -/
def doFreezeNow (_ : Req) (s : State) : Reply :=
  okay [] { s with diag := { s.diag with freezeDue := some (s.now + Config.freezeDelay s.free % 10001) }, free := s.free + 1 }

/-- `freeze.now`, 0xE01. -/
def cmdFreezeNow : Cmd := { op := 0xE01, need := .dom 0x0E, len := 0, body := doFreezeNow }

/-- Whether a freeze of another cause has begun at this very time. -/
def freezeTie (s : State) : Bool := s.power.inReset.isNone && s.frz.on && s.frz.at_ == s.now

/-- FREEZE_N_FALL (R496, R504): the pin had been high for `highFor` ns; one that was low when reset released starts nothing before it has been high for 1 us. It wins a tie with another cause. -/
def execFreezeNFall (t : Nat) (highFor : Nat) (s : State) : Answer :=
  effect t (fun s => canFreeze s || freezeTie s) (fun s =>
    if highFor < 1000 ∧ s.power.bootAt < s.now - highFor then s
    else if s.frz.on then { s with frz := { s.frz with cause := 1 } }
    else freezeNow 1 s) s

/-! ## The rows -/

/-- DEBUG_NONCE (R479). -/
def execDebugNonce (t : Nat) (q : Req) (s : State) : Answer := command t cmdNonce q s

/-- DEBUG_OPEN (R479). -/
def execDebugOpen (t : Nat) (q : Req) (s : State) : Answer := command t cmdDebugOpen q s

/-- DEBUG_CLOSE (R478). -/
def execDebugClose (t : Nat) (q : Req) (s : State) : Answer := command t cmdDebugClose q s

/-- SECURITY_LIFECYCLE_SET (R468). -/
def execSecurityLifecycleSet (t : Nat) (q : Req) (s : State) : Answer := command t cmdLifecycle q s

/-- SECURITY_VIOLATIONS (R482). -/
def execSecurityViolations (t : Nat) (q : Req) (s : State) : Answer := command t cmdViolations q s

/-- FREEZE_ARM (R496). -/
def execFreezeArm (t : Nat) (q : Req) (s : State) : Answer := command t cmdFreezeArm q s

/-- FREEZE_NOW (R496). -/
def execFreezeNow (t : Nat) (q : Req) (s : State) : Answer := command t cmdFreezeNow q s

end Sys2Proof.Machine
end

