-- ==== Sys2Proof/Machine/LaneCmds.lean ====
section
/-! DEFINITION. Commands of the lanes: received codewords and blocks, deskew, the clock lane, idle and wake, adaptation (chapters 02 and 03). -/

namespace Sys2Proof.Machine

/-- RECEIVE_CODEWORD (R113); on a gallery under test, the bits that a lane's receiver decides in that time (R485, R487). -/
def execReceiveCodeword (t : Nat) (g : GalIx) (lane : LaneIx) (bits : BitVec 5440) (reads : List Nat) (s : State) : Answer :=
  effect t (fun s => underTest s g || (hopRuns s g && (galAt s g).rx.fec))
    (fun s => if underTest s g then testCodeword g lane bits s else s |> receiveCw g lane bits reads |> tryRejoin g) s

/-- RECEIVE_BLOCK (R110); on a gallery under test, the bits that a lane's receiver decides in that time (R485, R487). -/
def execReceiveBlock (t : Nat) (g : GalIx) (lane : LaneIx) (b : Block) (reads : Nat) (s : State) : Answer :=
  effect t (fun s => underTest s g || (hopRuns s g && !(galAt s g).rx.fec))
    (fun s => if underTest s g then testBlock g lane b s else receiveBlk g lane b reads s) s

/-- DESKEW_MARKER_RECEIVE (R111). -/
def execDeskewMarkerReceive (t : Nat) (g : GalIx) (lane : LaneIx) (seq : BitVec 10) (lanePos : BitVec 6) (sideband : BitVec 16)
    (s : State) : Answer :=
  effect t (hopRuns · g) (fun s => s
    |> takeHop g (.marker seq lanePos sideband)
    |> takeMarker g lane seq.toNat lanePos sideband
    |> tryRejoin g
    |> walkOn g) s

/-- DESKEW_TIMEOUT (R116, R137): a lane of the active set whose slot for the walk's key has not come while another lane holds more than 128 slots from that key on; in REPORT a lane that lags so fails qualification. -/
def execDeskewTimeout (t : Nat) (g : GalIx) (lane : LaneIx) (s : State) : Answer :=
  effect t (hopRuns · g) (fun s =>
    let G := galAt s g
    let k := (G.rx.walkSeq, G.rx.walkSlot)
    let late := (setAt G.rx k.1).getLsbD (posOf G lane) && (slotAt G.lanes[lane] k).isNone
    let ahead := allLanes.any fun l => ((G.lanes[l].deskew.filter fun e => keyGe (e.1, e.2.1) k).length > 128 : Bool)
    let fails := (G.rx.ts == .active && late && ahead) || (G.rx.ts == .report && G.rx.pass.getLsbD (posOf G lane))
    if fails then s |> countLane 0x30C g lane |> laneFail g lane 0x7 |> walkOn g else s) s

/-- CLOCK_LANE_LOCK (R51): the DLL has locked; at a new tread the measured frequency must lie from -0.60 % to +0.03 % of nominal, given in ppm. Lock moves the receive island to the received clock (R433). -/
def execClockLaneLock (t : Nat) (g : GalIx) (ppm : Int) (s : State) : Answer :=
  effect t (hopRuns · g) (fun s =>
    let G := galAt s g
    let s := modRx g (fun r => { r with freqPpm := ppm }) s
    if G.rx.ts = .clock then
      if -6000 ≤ ppm ∧ ppm ≤ 300 then
        s |> lockIsland g
          |> modRx g (fun r => { r with clkLock := true, ts := .align, at_ := s.now })
          |> modTx g (fun x => if fromDetect G && x.ts == .clock && G.farCap.isNone then { x with ts := .align, at_ := s.now } else x)
      else s
    else if G.rx.clkStopped then s |> lockIsland g |> modRx g (fun r => { r with clkLock := true })
    else s) s

/-- CLOCK_LANE_LOST (R52): the receive island asks at once for its park clock (R433); an announced stop is no loss; in training the attempt fails with reason 0x9; otherwise the gallery is lost. -/
def execClockLaneLost (t : Nat) (g : GalIx) (s : State) : Answer :=
  effect t (hopRuns · g) (fun s =>
    let G := galAt s g
    let park := requestSwitch g.val false .xin
    if G.rx.clkStopped then s
    else
      match G.rx.ts with
      | .detect => modRx g (fun r => { r with activity := false }) (park s)
      | .backoff => park s
      | .active => s |> park |> modRx g (fun r => { r with clkLock := false }) |> loseGallery g 0x1
      | .guarding => s |> park |> modRx g (fun r => { r with clkLock := false }) |> loseGallery g 0x1
      | _ => s |> park |> failAttempt g 0x9 false) s

/-- IDLE_NOTICE_RECEIVE (R73): the lane named leaves striping as planned after the sequence named. The notice of a lane that was darned stops the attempts on it (R178); one that names a period left behind says that the lane was idled and its notice missed: the lane is idle, and its darning is not counted (R74, R179). -/
def execIdleNoticeReceive (t : Nat) (g : GalIx) (_lane : LaneIx) (last : BitVec 10) (lanePos : BitVec 6) (s : State) : Answer :=
  effect t (hopRuns · g) (fun s =>
    let s := takeHop g (.idleNotice last lanePos) s
    let G := galAt s g
    let p := (lanePos.extractLsb' 0 3).toNat
    let l := physOf G p
    let q := last.toNat
    let L := G.lanes[l]
    let missed := L.failed && (G.rx.held || !keyGe (q, 0) (G.rx.walkSeq, 0) || G.rx.jumps.any fun j => !keyGe (q, 0) (j.restart, 0))
    if G.rx.ts = .active ∧ (!L.rxIdle ∨ L.failed) then
      s |> modLane g l (fun L => { L with idleNote := some q, rxIdle := true, failed := L.failed && !missed, nextTry := none })
        |> doIf missed (modRx g fun r => { r with darnTimes := dropLast p r.darnTimes })
        |> doIf L.failed (modRx g fun r => if r.attempt.pos = p then { r with attempt := {}, prbsOn := false } else r)
        |> doIf (!L.failed) (rxChange g (q + 1) (· &&& ~~~bit8 p))
        |> walkOn g
    else s) s
where
  /-- The last darning of a lane is taken back. -/
  dropLast (p : Nat) (l : List (Nat × Nat)) : List (Nat × Nat) := (l.reverse.eraseP fun e => e.2 == p).reverse

/-- CLOCK_STOP_NOTICE_RECEIVE (R73, R433): the receive island parks before the clock stops, and the stop is no loss. -/
def execClockStopNoticeReceive (t : Nat) (g : GalIx) (_lane : LaneIx) (seq : BitVec 10) (lanePos : BitVec 6) (s : State) : Answer :=
  effect t (hopRuns · g) (fun s =>
    let s := takeHop g (.clockStop seq lanePos) s
    if (galAt s g).rx.ts = .active then
      s |> modRx g (fun r => { r with clkStopped := true, clkStopSeq := some seq.toNat }) |> modClocks (runBit s.now g.val false)
    else s) s

/-- AUTO_WAKE (R75): a transmit side whose lanes are all idle wakes every lane of the mask when it has a parcel or a hop-control block to send. -/
def execAutoWake (t : Nat) (g : GalIx) (s : State) : Answer :=
  effect t (hopRuns · g) (fun s =>
    let G := galAt s g
    if G.tx.ts = .active ∧ txSet G.tx = 0#8 ∧ txWaiting G ∧ !G.tx.preamble then
      s |> modTx g (fun x => { x with selfWoken := true, emptyAt := none }) |> wakeLanes g (galSet s g).idleMask
    else s) s

/-- IDLE_RETURN (R75): after 10 us of empty queues the lanes that woke by themselves return to idle. -/
def execIdleReturn (t : Nat) (g : GalIx) (s : State) : Answer :=
  effect t (hopRuns · g) (fun s =>
    let G := galAt s g
    if !G.tx.selfWoken ∨ txWaiting G then s
    else match G.tx.emptyAt with
    | some e =>
      if e + 10000 ≤ s.now then
        s |> modTx g (fun x => { x with selfWoken := false, emptyAt := none }) |> idleEnter g (galSet s g).idleMask (galSet s g).stopClock
      else s
    | none => modTx g (fun x => { x with emptyAt := some s.now }) s) s

/-- TACK_BLOCK_RECEIVE (R95). -/
def execTackBlockReceive (t : Nat) (g : GalIx) (lane : LaneIx) (b : Block) (s : State) : Answer :=
  effect t (fun s => hopRuns s g && (galAt s g).rx.ts == .active) (takeTack g lane b) s

/-- TACK_BURST_END (R77). -/
def execTackBurstEnd (t : Nat) (g : GalIx) (lane : LaneIx) (drift : Int) (s : State) : Answer :=
  effect t (fun s => hopRuns s g && (galAt s g).rx.ts == .active) (fun s => s |> endTack g lane drift |> walkOn g) s

/-- CLOCK_PREAMBLE_END (R78): 1.0 us after it began, the tack bursts of all waking lanes start at the transmitter, whose drivers came on during it; a receiver whose clock lane has not locked again declares it lost. -/
def execClockPreambleEnd (t : Nat) (g : GalIx) (rx : Bool) (relocked : Bool) (s : State) : Answer :=
  effect t (hopRuns · g) (fun s =>
    let G := galAt s g
    if rx then
      if G.rx.ts = .active ∧ G.rx.clkStopped then
        let s := modRx g (fun r => { r with clkStopped := false, clkStopSeq := none, clkLock := relocked }) s
        if relocked then lockIsland g s else loseGallery g 0x1 s
      else s
    else if G.tx.preamble ∧ G.tx.preambleAt + 1000 ≤ s.now then
      let w := (List.range 8).filter fun p => G.lanes[laneOf p].txIdle && G.lanes[laneOf p].txWaking.isSome
      s |> modTx g (fun x => { x with preamble := false, clkIdle := false }) |> tackLanes g w 0 |> answerHeld g
    else s) s

/-- What a window of adaptation makes of a lane: each enabled tap steps by sign-sign LMS, the amplifier reaches its gain, and the phase tracker moves (R53, R60, R63). Out of striping the values hold (R66). -/
def adaptLane (training held : Bool) (acc : List Int) (vga : BitVec 8) (drift : Int) (L : Lane) : EqLive :=
  let lim : Int := if training then 16 else 64
  let stepTap := fun (k : Nat) (v : Int) =>
    let a := acc.getD (k - 1) 0
    if a ≥ lim then min (v + 1) (tapMax k) else if a ≤ -lim then max (v - 1) (-(tapMax k)) else v
  let adapts := match L.modeNow with
    | .adapt => true
    | .hold => training
    | .fixed => false
  let v := if held then L.live else if training then setPhase drift L.live else trackPhase 16 drift L.live
  if !adapts || held then v
  else { v with taps := L.live.taps.mapIdx fun i v => stepTap (i + 1) v
                fval := L.live.fval.mapIdx fun i v => if L.live.fpos.getD i 0 = 0 then v else stepTap (13 + i) v
                vga := if L.vgaHoldNow then L.live.vga else vga }

/-- Whether a receive lane equalises: in EQUALISE, or in the second step of a background attempt (R133, R174). -/
def equalising (G : Gal) (p : Nat) : Bool :=
  G.rx.ts == .equalise || (G.rx.ts == .active && G.rx.attempt.step == 2 && p == G.rx.attempt.pos)

/-- Whether a receive lane adapts at all: under its hop engine, or in a loop of a gallery under test (R63, R485). -/
def adapting (s : State) (g : GalIx) (l : LaneIx) : Bool := hopRuns s g || (underTest s g && (laneAt s g l).loop != 0)

/-- ADAPTATION_WINDOW_END (R60, R63, R65): the sums of the window step each enabled tap; pending ADAPT, HOLD and VGA-hold changes take effect. `vga` is the gain the amplifier reached, and `drift` the steps by which the phase tracker moved, or in training the phase it set (R53). The last of the 64 windows that end a search places the floating taps and sends done (R133). -/
def execAdaptationWindowEnd (t : Nat) (g : GalIx) (lane : LaneIx) (sums : TapSums) (vga : BitVec 8) (drift : Int) (s : State) : Answer :=
  effect t (adapting · g lane) (fun s =>
    let G := galAt s g
    let p := posOf G lane
    let ls := (galSet s g).lanes[lane]
    let training := equalising G p
    let held := G.rx.ts == .active && (G.lanes[lane].failed || G.lanes[lane].rxIdle) && !training
    let s := modLane g lane (fun L =>
      { L with live := adaptLane training held sums.acc vga drift L, sampled := vga, residuals := sums.residuals, vgaHoldNow := ls.vgaHold,
               modeNow := if L.modeNow = .fixed ∨ ls.mode = .fixed then L.modeNow else ls.mode }) s
    match training, G.lanes[lane].search with
    | true, .adapt n k a => if n ≤ 1 then endSearch g p k s else modLane g lane (fun L => { L with search := .adapt (n - 1) k a }) s
    | _, _ => s) s

end Sys2Proof.Machine
end

