-- ==== Sys2Proof/Machine/Snapshot.lean ====
section
/-! DEFINITION. The snapshot: its blocks, and `snapshot.read` (R22, R388, R499 to R503). Where the spec lists a block's content without offsets, the parts stand in the listed order, little-endian, cut or padded to 256 bytes (note 17). -/

namespace Sys2Proof.Machine

/-! ## Depths (R499, R500, R502) -/

/-- Blocks of the public snapshot. -/
def publicBlocks : Nat := 616

/-- Blocks of the full snapshot. -/
def fullBlocks : Nat := 30328

/-- Whether the TAP and port M read a frozen snapshot (R400, R503). -/
def snapFrozen (s : State) : Bool := s.frz.on

/-- Records of counters as bytes. -/
def recordBytes (rows : List CtrRow) (g lane : Nat) (s : State) : List Byte := (ctrRecords rows g lane s).flatMap ctrBytes

/-- Block 0 of a depth: 1 public, 2 full. -/
def headerBlock (depth : Nat) (s : State) : List Byte :=
  let f := s.frz
  let q := quick s
  let up := if f.on then (f.at_ - s.power.porAt) / 1000 else uptime s / 1000
  let frozen := fun (n : Nat) => if f.on then n else 0
  let b := by32 0x534E4150 ++ by16 1 ++ by16 0 ++ by32 (if depth = 1 then publicBlocks else fullBlocks) ++ leBytes 8 s.otp.serial.toNat ++
    by8 (if f.on then 2 else 1) ++ by8 depth ++ by8 (frozen f.cause) ++ by8 (byteAt q 8 % 16 + 16 * (byteAt q 11 % 4)) ++
    by16 (frozen f.trigger.toNat) ++ by16 0 ++ slice q 12 4 ++ leBytes 8 up ++ by32 (frozen f.stopTime) ++ by32 (frozen f.stopped.toNat) ++
    by32 (frozen f.notRunning.toNat)
  let c := fit 252 b
  c ++ by32 (crc32c c).toNat

/-- The code of a slot's state (R473). -/
def slotCode : SlotState → Nat
  | .erased => 0
  | .writing => 1
  | .committing => 2
  | .trial => 3
  | .confirmed => 4
  | .invalid => 5

/-- Block 1, package and die. -/
def dieBlock (s : State) : List Byte :=
  quick s ++ by32 (enableWord s).toNat ++ by8 (lifecycle s.otp) ++ by8 s.dbg.level ++ by8 (rollbackCount s.otp) ++ by8 (slotCode (fwSlot s 0).state) ++
    by8 (slotCode (fwSlot s 1).state) ++ by16 s.live.node.toNat

/-- The last period sent on a transmit direction. -/
def lastSent (G : Gal) : Nat := (G.tx.seq + 1023) % 1024

/-- The first block of a gallery. -/
def galleryBlock (s : State) (g : GalIx) : List Byte :=
  let G := galAt s g
  by8 (galleryByte s g) ++ by8 G.rx.active.toNat ++ by8 G.tx.active.toNat ++ by8 (galSet s g).idleMask.toNat ++ by32 (rxWord G) ++ by32 (txWord G) ++
    by8 (G.landing.getD 0xFF) ++ by16 G.flight.toNat ++
    classes.flatMap (fun k => by32 (cget G.ctx.sent k) ++ by16 (cget G.ctx.limit k) ++ by32 (cget G.crx.received k) ++ by32 (cget G.crx.stored k) ++
      by16 (cget G.crx.limit k)) ++
    classes.flatMap (fun k => by32 (queueBytes (cget G.bobbin k))) ++ classes.flatMap (fun k => by32 (queueBytes (cget G.egress k))) ++
    by16 (lastSent G) ++ by16 G.rx.walkSeq ++ by16 G.rx.walkSlot ++ by8 G.rx.reportId ++ by8 (G.tx.lastReport.getD 0)

/-- The counter records of a gallery, 19 a block. -/
def galleryCounters (s : State) (g : GalIx) (n : Nat) : List Byte :=
  let all := galRows.flatMap fun r => r.2.map fun i => (r.1, i, ctrAt s r.1 (if r.1 = 0x43B then 0 else g.val) 0 i)
  ((all.drop (19 * n)).take 19).flatMap ctrBytes

/-- The block of a data lane (R501). -/
def laneBlock (s : State) (g : GalIx) (l : LaneIx) : List Byte :=
  let G := galAt s g
  let L := laneAt s g l
  by32 (laneWord G l) ++ by8 L.live.ctle ++ [L.live.vga] ++ by8 L.live.phase ++ by8 L.seam ++ by8 L.deskew.length ++ [ibyte L.live.fifo] ++
    by16 (lastSent G) ++ (List.range 12).map (fun k => ibyte (L.live.taps.getD k 0)) ++ (List.range 4).flatMap (fun k => by8 (L.live.fpos.getD k 0)) ++
    (List.range 4).map (fun k => ibyte (L.live.fval.getD k 0)) ++ recordBytes laneRows g.val l.val s

/-- The block of a clock lane. -/
def clockBlock (s : State) (g : GalIx) : List Byte :=
  let G := galAt s g
  by32 (clockWord G) ++ by32 ((s.clocks.meters.toList.getD g.val 0#32).toNat) ++ by8 (b2n G.rx.clkLock) ++ by32 (BitVec.ofInt 32 G.rx.freqPpm).toNat

/-- The block of the Hall; a lookup ends within the step that asks for it, so none is pending. -/
def hallBlock (s : State) : List Byte :=
  let h := s.hall
  h.grants.toList.flatMap (fun o => by8 ((o.map (·.val)).getD 0xFF)) ++ by32 (queueBytes s.corr.inQ) ++ by32 (queueBytes s.corr.outQ) ++
    by32 (queueBytes h.mgmtOut) ++ by32 ((h.mgmtIn.map fun e => parcelLen e.2.2).foldl (· + ·) 0) ++ by32 0

/-- The payload of an answer. -/
def Reply.payload : Reply → List Byte
  | .done _ p _ => p
  | .wait _ _ => []

/-- A request that asks nothing in particular. -/
def plainReq : Req := { host := .service, src := 0#16, gallery := none, tag := 0#8, dryRun := false, stage := false, token := 0#32, seq := 0#32, payload := [] }

/-- The block of the Cutter. -/
def cutterBlock (s : State) : List Byte := (doCutStatus plainReq s).payload ++ by8 (b2n s.cutter.running.isSome)

/-- Sixteen entries of an in-force plane. -/
def forceBlock (p : CopyPlane) (n : Nat) : List Byte := (List.range 16).flatMap fun k => entryBytes (mget {} p.inForce (16 * n + k))

/-- Sixteen entries of a pending plane; zeros where nothing is pending. -/
def pendBlock (p : CopyPlane) (n : Nat) : List Byte :=
  (List.range 16).flatMap fun k => match mget? p.pend (16 * n + k) with
    | some e => entryBytes e.e
    | none => List.replicate 16 0#8

/-- The copy a public snapshot shows: A, or B when A is fenced. -/
def shownCopy (s : State) : CopyPlane := if s.cutter.copyA.fenced then s.cutter.copyB else s.cutter.copyA

/-- The other copy. -/
def otherCopy (s : State) : CopyPlane := if s.cutter.copyA.fenced then s.cutter.copyA else s.cutter.copyB

/-- The block of the correction engine. -/
def corrBlock (s : State) : List Byte :=
  (doCorrStatus plainReq s).payload ++ s.corr.pipes.toList.flatMap (fun p => by16 ((p.hold.map (·.region)).getD 0xFFFF)) ++ recordBytes corrRows 0 0 s

/-- The block of the DRAM controller: what waits of each priority are the host writes alone (R261). -/
def dramBlock (s : State) : List Byte :=
  by8 (b2n s.corr.selfRefresh) ++ by16 0 ++ by16 0 ++ by16 s.corr.queue.length ++ by16 0 ++ by32 s.corr.scrubPos ++ by8 (b2n s.corr.storeLost)

/-- The block of the Mezzanine. -/
def mezBlock (s : State) : List Byte :=
  s.mbx.rings.toList.flatMap (fun r => [r.head, r.tail] ++ by8 r.cmds.length ++ by8 r.rsps.length ++ by8 r.evts.length) ++
    by8 s.log.ring12.length ++ by8 s.mbx.ring13.length ++ by8 s.diag.ring14.length ++ by8 s.upd.chunks.length ++
    (doLeaseStatus plainReq s).payload ++ recordBytes mbxRows 0 0 s ++ recordBytes bridgeRows 0 0 s

/-- The block of the always-on island. -/
def aonBlock (s : State) : List Byte :=
  slice (quick s) 9 2 ++ by16 ((s.safety.grpLock.map fun e => 2 ^ e.1).foldl (· + ·) 0) ++ sensorBytes s ++
    s.clocks.meters.toList.flatMap (fun m => by32 m.toNat) ++ recordBytes violationRows 0 0 s ++ recordBytes powerRows 0 0 s ++
    recordBytes ((List.range 5).map fun k => (0x901 + k, [0])) 0 0 s

/-- A block of a gallery's twelve. -/
def galleryUnit (s : State) (g : GalIx) (k : Nat) : List Byte :=
  if k = 0 then galleryBlock s g
  else if k < 3 then galleryCounters s g (k - 1)
  else if h : k - 3 < 8 then laneBlock s g ⟨k - 3, h⟩
  else clockBlock s g

/-- A block of the public snapshot, but for its header (R500). -/
def publicBody (n : Nat) (s : State) : List Byte :=
  if n < 2 then dieBlock s
  else if n < 98 then galleryUnit s (galOf ((n - 2) / 12)) ((n - 2) % 12)
  else if n = 98 then hallBlock s
  else if n = 99 then cutterBlock s
  else if n < 356 then forceBlock (shownCopy s) (n - 100)
  else if n < 612 then pendBlock (shownCopy s) (n - 356)
  else if n = 612 then corrBlock s
  else if n = 613 then dramBlock s
  else if n = 614 then mezBlock s
  else aonBlock s

/-- The state whose times a snapshot shows: those of the freeze, while FROZEN. -/
def atFreeze (s : State) : State := if s.frz.on then { s with now := s.frz.at_ } else s

/-- A block of the public snapshot, 256 bytes. -/
def publicBlock (n : Nat) (s : State) : List Byte := if n = 0 then headerBlock 1 s else fit 256 (publicBody n (atFreeze s))

/-! ## The full snapshot (R502) -/

/-- Blocks of memory whose contents the spec does not lay out: free values (note 16). -/
def memoryBlocks (draw unit n : Nat) : List Byte := (List.range (256 * n)).map fun k => Config.memory draw unit k

/-- Sixteen entries of the store directory. -/
def dirBlock (s : State) (n : Nat) : List Byte :=
  (List.range 16).flatMap fun k =>
    let d := dirOf s (16 * n + k)
    by16 d.base ++ by16 d.units ++ by8 (b2n d.dbuf + 2 * b2n d.bank) ++ by8 (corrStateOf d) ++ by16 d.sBase ++ by16 d.sUnits ++ by16 d.sW ++ by16 d.sH ++
      by8 (match d.sState with
        | .none => 0
        | .allocated => 1
        | .valid => 2) ++ by8 0

/-- Thirty-two entries of the routing table. -/
def routeBlock (s : State) (n : Nat) : List Byte := (List.range 32).flatMap fun k => leBytes 8 (mget 0#64 s.live.routes (32 * n + k)).toNat

/-- The blocks of a gallery with its memories. -/
def galleryFull (draw : Nat) (s : State) (g : GalIx) : List Byte :=
  let pub := fun (k : Nat) => fit 256 (galleryUnit s g k)
  pub 0 ++ pub 1 ++ pub 2 ++ memoryBlocks draw (16 * g.val) 1986 ++
    (List.range 8).flatMap (fun l => pub (3 + l) ++ memoryBlocks draw (16 * g.val + 1 + l) 171) ++ pub 11

/-- The whole of a snapshot: every public block, with the memories after their units at full depth. -/
def snapshot (full : Bool) (s : State) : List Byte :=
  if full then
    let d := s.free
    let pub := fun (n : Nat) => publicBlock n s
    headerBlock 2 s ++ pub 1 ++ allGals.flatMap (galleryFull d s) ++ pub 98 ++ (List.range 64).flatMap (routeBlock s) ++
      (List.range 513).flatMap (fun k => pub (99 + k)) ++
      (List.range 256).flatMap (forceBlock (otherCopy s)) ++ (List.range 256).flatMap (pendBlock (otherCopy s)) ++
      pub 612 ++ pub 613 ++ (List.range 256).flatMap (dirBlock s) ++ pub 614 ++ memoryBlocks d 256 2048 ++ pub 615
  else (List.range publicBlocks).flatMap fun n => publicBlock n s

/-! ## `snapshot.read` (R388, R503) -/

/-- `snapshot.read`: the block is captured as it is read, through ring 14; the ring is free again after the last block. -/
def doSnapRead (q : Req) (s : State) : Reply :=
  let n := arg q 0 2
  let me := hostCode q.host - 1
  guardR (n < publicBlocks) 3 s <|
    guardR (s.diag.snapHost.isNone || s.diag.snapHost == some me) 1 s <|
      let b := publicBlock n s
      let ring := s.diag.ring14 ++ [b]
      okay (by16 n ++ by16 publicBlocks ++ b)
        { s with diag := { s.diag with snapHost := if n + 1 = publicBlocks then none else some me, ring14 := ring.drop (ring.length - 16) } }

/-- `snapshot.read`, 0xE02. -/
def cmdSnapRead : Cmd := { op := 0xE02, need := .free 0x0E, len := 2, body := doSnapRead }

/-- SNAPSHOT_READ (R503). -/
def execSnapshotRead (t : Nat) (q : Req) (s : State) : Answer := command t cmdSnapRead q s

end Sys2Proof.Machine
end

