-- ==== Sys2Proof/Machine/Mail.lean ====
section
/-! DEFINITION. The dispatcher: command frames taken from the rings, staged changes committed, waiting commands timed out; the mailbox window's registers; leases that expire (R342 to R350, R355 to R358, R360 to R362, R371, R375). -/

namespace Sys2Proof.Machine

/-! ## Staged changes (R357) -/

/-- The commands that may be staged. -/
def stageable : List Cmd :=
  [cmdProvision, cmdIdle, cmdCreditSet, cmdEqSet, cmdTxSet, cmdTrainSet, cmdModeSet, cmdCutRegionSet, cmdCorrRegionSet, cmdNodeSet, cmdRouteSet, cmdWindowSet, cmdSinkSet, cmdTwConfig, cmdTwlConfig, cmdRefSelect, cmdRefoutSet]

/-- The command of a staged change. -/
def stagedCmd (e : Staged) : Option Cmd := stageable.find? fun c => c.op == e.op

/-- The status of a staged change, checked again. -/
def recheck (s : State) (e : Staged) : Nat :=
  match stagedCmd e with
  | some c => if leaseStep c e.req s ≠ 0 then leaseStep c e.req s else (c.body e.req s).status
  | none => 3

/-- Apply a staged change. -/
def applyStaged (e : Staged) (s : State) : State :=
  match stagedCmd e with
  | some c => match c.body e.req s with
    | .done _ _ s' => s'
    | .wait _ s' => s'
  | none => s

/-- `lease.commit`: every staged change of the token is checked again, and all are applied in order, or none. -/
def doLeaseCommit (q : Req) (s : State) : Reply :=
  let l := stagedOf q.token s
  match ((List.range l.length).zip (l.map (recheck s))).find? fun e => e.2 ≠ 0 with
  | some (i, st) => .done st (by8 i ++ by8 st) s
  | none => okay (by8 l.length) (s |> forAll l applyStaged |> dropStaged q.token)

/-- `lease.commit`, 0x103. -/
def cmdLeaseCommit : Cmd := { op := 0x103, need := .token, len := 0, body := doLeaseCommit }

/-- LEASE_COMMIT (R357). -/
def execLeaseCommit (t : Nat) (q : Req) (s : State) : Answer := command t cmdLeaseCommit q s

/-! ## Frames from the rings (R344 to R346) -/

/-- Every command of the interface level. -/
def allCmds : List Cmd :=
    [cmdInfo, cmdReset, cmdStatus, cmdMbxCounters, cmdProfileSave, cmdProfileSelect, cmdProfileErase, cmdProfileList] ++
    [cmdAcquire, cmdRelease, cmdRenew, cmdLeaseCommit, cmdDiscard, cmdLeaseStatus] ++
    [cmdGalStatus, cmdProvision, cmdGalReset, cmdIdle, cmdCreditSet, cmdCreditGet, cmdGalCounters, cmdEqSet, cmdEqGet, cmdTxSet, cmdLaneCounters] ++
    [cmdTrainSet, cmdTrainStatus, cmdRetrain] ++
    [cmdModeSet, cmdRun, cmdCutRegionSet, cmdEntryGet, cmdInputsGet, cmdCutStatus, cmdCutCounters] ++
    [cmdCorrRegionSet, cmdCorrRegionGet, cmdCommit, cmdSafeAlloc, cmdSafeCommit, cmdSafeFree, cmdCorrStatus, cmdCorrCounters] ++
    [cmdGroupSet, cmdMonitorSet, cmdUnlock, cmdLock, cmdPasswordSet, cmdOrder, cmdSafetyRelease, cmdSafetyStatus, cmdSafetyLogRead, cmdLogAck, cmdSafetyCounters] ++
    [cmdNodeSet, cmdRouteSet, cmdRouteGet, cmdWindowSet, cmdWindowGet, cmdSinkSet, cmdRingSet, cmdEventRead, cmdRemote, cmdSync, cmdLateErrors, cmdBridgeCounters] ++
    [cmdTwConfig, cmdTwlConfig, cmdTwlRecover, cmdTwCounters] ++
    [cmdStateSet, cmdPowerStatus, cmdRefSelect, cmdRefoutSet, cmdClockStatus, cmdPowerCounters] ++
    [cmdLoopSet, cmdPrbsSet, cmdPrbsGet, cmdEyeScan, cmdCountersClear] ++
    [cmdSensorRead, cmdLogRead, cmdLogStream] ++
    [cmdUpdBegin, cmdUpdChunk, cmdUpdVerify, cmdUpdCommit, cmdUpdActivate, cmdUpdStatus] ++
    [cmdNonce, cmdDebugOpen, cmdDebugClose, cmdLifecycle, cmdViolations] ++
    [cmdFreezeArm, cmdFreezeNow, cmdSnapRead]

/-- An answer to a frame that fails its own checks: counted, and not remembered (R346). -/
def answerBad (counter status : Nat) (op : Nat) (q : Req) (s : State) : State :=
  s |> countDev counter (cmdRing q.host) |> pushRsp q.host q.src (reqRsp op q 0 status q.token.toNat [])

/-- A frame is taken: the checks of R346 before the lease, and the command served by who serves the ring. -/
def takeFrame (h : HostId) (f : Submitted) (s : State) : State :=
  let b := f.bytes
  let q := reqOf h f
  let op := frOp b
  if softServes q s then
    if !frameCrc b then answerBad 0x101 0x0B op q s
    else if !frameFields b then answerBad 0x102 3 op q s
    else match allCmds.find? fun c => c.op == op with
      | some c => serve c q s
      | none => if fwRuns s then answerBad 0x102 0x0C op q s else pushRsp h q.src (reqRsp op q 0 0x0A q.token.toNat []) s
  else serveHw op q (frameCrc b && frameFields b) s

/-! ## Dispatch (R349) -/

/-- The frame that is taken next, of every ring whose host can be answered. -/
def nextFrame (s : State) : Option (HostId × Nat × Submitted) := nextOf (allHosts.filter fun h => canTake h s) s

/-- DISPATCH_COMMAND (R349): the dispatcher, or the hardware of the rings, takes the next frame. -/
def execDispatchCommand (t : Nat) (s : State) : Answer :=
  effect t (fun _ => true) (fun s =>
    match nextFrame s with
    | some (h, i, f) => s |> popFrame h i f |> takeFrame h f
    | none => s) s

/-! ## Limits (R343, R355, R371) -/

/-- Waiting commands that end in TIMEOUT, those of R371 but for password checks and `update.activate`, which answers at once. -/
def timesOut (op : Nat) : Bool := op == 0x502 || op == 0x504 || op == 0x708 || op == 0x709 || op == 0xC02 || op == 0xC03

/-- The effect of a TIMEOUT (R371). -/
def timeoutEffect (w : Waiting) (s : State) : State :=
  let r := regionArg w.req 0
  if w.op = 0x502 then s |> modCorr (dropMark false r) |> modDir r fun d => { d with commitPending := false, drained := false }
  else if w.op = 0x504 then modCorr (dropMark true r) s
  else if w.op = 0x708 then s |> modBridge (fun b => { b with remote := none }) |> countDev 0x807 0
  else if w.op = 0xC03 then (if !committing s then s else if s.power.brownout.isSome then modUpd (fun _ => {}) s else failCommit s)
  else s

/-- The waiting command of a host whose limit has passed ends in TIMEOUT (R371). -/
def endWait (h : HostId) (s : State) : State :=
  match (ringAt s h).wait with
  | some w => if timesOut w.op ∧ w.due ≤ s.now then s |> timeoutEffect w |> answerWait h 8 [] else s
  | none => s

/-- WAITING_COMMAND_TIMEOUT (R371). -/
def execWaitingCommandTimeout (t : Nat) (s : State) : Answer := effect t (fun s => fwRuns s || (active s && romServes s)) (forAll allHosts endWait) s

/-- A binding of an aperture lapses 1 ms after its first write (R343). -/
def lapseBinding (h : HostId) (s : State) : State :=
  match (ringAt s h).bound with
  | some b => if b.2 + 1000000 ≤ s.now then modRing h (fun r => { r with bound := none, aperture := [] }) s else s
  | none => s

/-- APERTURE_BINDING_LAPSE (R343): 1 ms without a doorbell. -/
def execApertureBindingLapse (t : Nat) (s : State) : Answer :=
  effect t (fun s => active s && gateOn s 20) (forAll [HostId.link, HostId.second] lapseBinding) s

/-- The responses of a host that stood 1 s unacknowledged are dropped and counted (R343). -/
def dropOldResponses (h : HostId) (s : State) : State :=
  let old := (ringAt s h).rsps.filter fun x => decide (x.at_ + 1000000000 ≤ s.now)
  if old.isEmpty then s
  else s |> modRing h (fun r => { r with rsps := r.rsps.filter fun x => decide (s.now < x.at_ + 1000000000) })
         |> countN 0x105 0 0 (rspRing h) old.length

/-- RESPONSE_EXPIRY (R343): 1 s without an acknowledgement. -/
def execResponseExpiry (t : Nat) (s : State) : Answer := effect t (fun s => active s && gateOn s 20) (forAll allHosts dropOldResponses) s

/-- The lease of a domain ends 10 s after its last renewal, and is counted (R355). -/
def expireLease (d : Nat) (s : State) : State :=
  let l := leaseAt s d
  if l.holder.isSome ∧ l.renewed + 10000000000 ≤ s.now then s |> endLease d (some 1) |> countDev 0x107 d else s

/-- LEASE_EXPIRY (R355): 10 s after the last renewal, as the always-on island counts. -/
def execLeaseExpiry (t : Nat) (s : State) : Answer := effect t guarding (forAll (List.range 15) expireLease) s

/-! ## The mailbox window (R342, R343) -/

/-- Whether the ring hardware serves the mailbox window. -/
def windowUp (s : State) : Bool := active s && gateOn s 20

/-- MAILBOX_APERTURE_WRITE (R343): frame bytes at an offset from the first byte of the window. -/
def execMailboxApertureWrite (t : Nat) (g : GalIx) (src : BitVec 16) (off : Nat) (data : List Byte) (s : State) : Answer :=
  effect t windowUp (fun s => if 0x100 ≤ off ∧ off + data.length ≤ 0x800 ∧ data ≠ [] then (mailWrite g src s.hall.arrivalSeq off data s).2 else s) s

/-- MAILBOX_DOORBELL (R343). -/
def execMailboxDoorbell (t : Nat) (g : GalIx) (src : BitVec 16) (s : State) : Answer := effect t windowUp (fun s => doorbell g src s.hall.arrivalSeq s) s

/-- MAILBOX_RSP_ACK (R343). -/
def execMailboxRspAck (t : Nat) (g : GalIx) (src : BitVec 16) (s : State) : Answer := effect t windowUp (rspAck (hostOfGal g) src) s

/-- MAILBOX_DB_REFUSED_CLEAR (R342). -/
def execMailboxDbRefusedClear (t : Nat) (g : GalIx) (s : State) : Answer :=
  effect t windowUp (modRing (hostOfGal g) fun r => { r with dbRefused := false }) s

/-- REGISTER_WRITE (R9, R10): a byte of the window's registers. -/
def execRegisterWrite (t : Nat) (g : GalIx) (src : BitVec 16) (off : Nat) (b : Byte) (s : State) : Answer :=
  effect t windowUp (fun s => mailRegWrite g src s.hall.arrivalSeq off b s) s

end Sys2Proof.Machine
end

