-- ==== Sys2Proof/Machine/PlaceCmds.lean ====
section
/-! DEFINITION. Commands of the Cutter: records that arrive and expire, runs, pending entries, overdue cut marks, and the records the device originates (R222 to R246, R285). -/

namespace Sys2Proof.Machine

/-- Take a placement message that waits in a gallery's queue for the Cutter, if it is there. -/
def takeQueued (g : GalIx) (p : Parcel) (s : State) : State := modGal g (fun G => { G with toCutter := G.toCutter.erase p }) s

/-- Take one announcement record from a North gallery (R224 to R226). -/
def takeAnn (g : GalIx) (r : Nat) (withdraw : Bool) (a : AnnRec) (s : State) : State :=
  let x := regionIn s r
  let old := mget? x.ann g.val
  let before := recordOf s r
  if withdraw then s |> modRegionIn r (fun x => { x with ann := merase x.ann g.val }) |> announceChange r before true
  else
    let others := x.ann.filter fun e => e.1 != g.val
    let paired := others.any fun p => others.any fun q => p.1 < q.1 && fitsPair p q
    if paired && old.isNone then countDev 0x509 0 s
    else
      let far := others.filter fun e => e.2.flight != a.flight
      let s := modRegionIn r (fun x => { x with ann := mput (x.ann.filter fun e => e.1 == g.val || e.2.flight != a.flight) g.val a }) s
      s |> doIf (!far.isEmpty && far.all fun e => !sameRecord e.2 a) (countDev 0x509 0)
        |> announceChange r before false

/-- ANNOUNCE_RECEIVE (R222 to R225): a North gallery's records enter the placement inputs while the Cutter is clocked. -/
def execAnnounceReceive (t : Nat) (g : GalIx) (p : Parcel) (s : State) : Answer :=
  effect t (fun s => active s && gateOn s 17 && isNorth g && pKind p == 0x05) (fun s =>
    let s := takeQueued g p s
    match recordsOf p.payload with
    | none => countDev 0x507 0 s
    | some l => forAll l (fun b s =>
        match annOf (pSrc p) s.now b with
        | some (r, w, a) => takeAnn g r w a s
        | none => countDev 0x507 0 s) s) s

/-- CLAIM_RECEIVE (R227 to R229): a South gallery's claims. -/
def execClaimReceive (t : Nat) (g : GalIx) (p : Parcel) (s : State) : Answer :=
  effect t (fun s => active s && gateOn s 17 && !isNorth g && pKind p == 0x06) (fun s =>
    let s := takeQueued g p s
    match recordsOf p.payload with
    | none => countDev 0x507 0 s
    | some l => forAll l (fun b s =>
        match claimOf g s.now b with
        | some (r, c) =>
          modRegionIn r (fun x => { x with claims := (x.claims.filter fun k => k.gallery != g.val || k.claimant != c.claimant) ++ [c] }) s
        | none => countDev 0x507 0 s) s) s

/-- Whether a region leaves this landing on some gallery (R285). -/
def leavesHere (s : State) (r : Nat) : Bool :=
  let e := entryOf s r
  if inUse e then e.egress ||| e.dropEgress != 0#4 else (leavesOn s r).any fun g => !isNorth g

/-- DRIVER_FAULT_RECEIVE (R285). -/
def execDriverFaultReceive (t : Nat) (g : GalIx) (p : Parcel) (s : State) : Answer :=
  effect t (fun s => active s && !isNorth g && pKind p == 0x07) (fun s =>
    let s := takeQueued g p s
    let w := field p.payload 0 2
    let r := bits w 11 0
    let kind := bits w 13 12
    let driver := BitVec.ofNat 64 (field p.payload 8 8)
    let m := monAt s r g
    let rest := m.faults.filter fun f => f.1 != driver || f.2.1 != kind
    if p.payload.length ≠ 16 ∨ kind = 0 then s
    else if bitOf w 14 then
      if rest.length = m.faults.length then s
      else s |> modMon r g (fun m => { m with faults := rest }) |> doIf rest.isEmpty (clearMon 5 r g)
    else if leavesHere s r && (par1 s r 5).testBit (kind - 1) then
      s |> modMon r g (fun m => { m with faults := rest ++ [(driver, kind, s.now)] }) |> tripMon 5 r g
    else s) s

/-- PLACEMENT_RUN_START (R233): a change starts a run in AUTO, a forced trigger that holds in AUTO and MANUAL. -/
def execPlacementRunStart (t : Nat) (trig : RunTrigger) (s : State) : Answer :=
  effect t (fun s => match s.live.cutMode, trig with
    | .automatic, _ => true
    | .manual, .forced => forcedHolds s
    | _, _ => false) startRun s

/-- PLACEMENT_RUN_DONE (R242, R246): the run in progress ends; a discarded one writes nothing. -/
def execPlacementRunDone (t : Nat) (s : State) : Answer :=
  effect t (fun s => active s && gateOn s 17) (fun s =>
    match s.cutter.running with
    | none => s
    | some i =>
      let s := auditAll s
      if s.cutter.discard || s.cutter.tableLost then runAgain { s with cutter := { s.cutter with running := none, discard := false } }
      else endRun i s) s

/-- PENDING_ENTRY_TIMEOUT (R242): 250 ms after its write a pending entry takes effect. -/
def execPendingEntryTimeout (t : Nat) (region : Region) (s : State) : Answer :=
  effect t active (fun s =>
    match mget? (pendPlane s) region.toNat with
    | some pe => doIf (pe.at_ + 250000000 ≤ s.now) (applyEntry region.toNat pe) s
    | none => s) s

/-- CUT_MARK_OVERDUE (R245): the selected copy's next cut mark, due one sub-frame period after the last, is overdue by 1.5 periods more, and the other has delivered one later than the last forwarded. -/
def execCutMarkOverdue (t : Nat) (region : Region) (s : State) : Answer :=
  effect t active (fun s =>
    let r := region.toNat
    let s := audit r s
    let e := entryOf s r
    let other := galOf (if e.selNow then e.ingressA.toNat else e.ingressB.toNat)
    let late := match mget? s.cutter.selCutAt r with
      | some a => decide (2 * (s.now - a) ≥ 5 * periodOf s r)
      | none => false
    let came := match mget? (galAt s other).whole r, mget? s.cutter.lastKey r with
      | some w, some k => keyLater w.key k
      | _, _ => false
    doIf (inUse e && e.dual && e.selMode == 0#2 && late && came && galActive s other) (switchInput r) s) s

/-- A region that is no longer announced disarms its freshness monitors (R281). -/
def disarmGone (r : Nat) (s : State) : State :=
  if (regionIn s r).ann.isEmpty then
    forAll allGals (fun g s => if (mget? s.safety.mon (monKey r g)).isSome then modMon r g (fun m => { m with freshAt := none }) s else s) s
  else s

/-- RECORD_EXPIRY (R224, R228): a record not repeated within 3 s expires. -/
def execRecordExpiry (t : Nat) (region : Region) (g : GalIx) (claimant : Option (BitVec 64)) (s : State) : Answer :=
  effect t (fun s => active s && gateOn s 17) (fun s =>
    let r := region.toNat
    match claimant with
    | none =>
      match mget? (regionIn s r).ann g.val with
      | some a =>
        if a.at_ + 3000000000 ≤ s.now then
          let before := recordOf s r
          s |> modRegionIn r (fun x => { x with ann := merase x.ann g.val }) |> countDev 0x508 0 |> announceChange r before false |> disarmGone r
        else s
      | none => s
    | some c =>
      match (regionIn s r).claims.find? fun k => k.gallery == g.val && k.claimant == c with
      | some k =>
        if k.at_ + 3000000000 ≤ s.now then s |> modRegionIn r (fun x => { x with claims := x.claims.erase k }) |> countDev 0x508 0 else s
      | none => s) s

/-- ANNOUNCE_ORIGINATE (R226): in PLACED, the announcements of a South gallery, once per second. -/
def execAnnounceOriginate (t : Nat) (g : GalIx) (s : State) : Answer :=
  effect t (fun s => isPlaced s && !isNorth g && galActive s g) (fun s =>
    doIf (elapsed s.now 1000000000 (galAt s g).annAt) (fun s => s |> modGal g (fun G => { G with annAt := some s.now }) |> originateAnn g) s) s

/-- CLAIM_ORIGINATE (R228): in PLACED, the claims of every region with a claimant below, once per second. -/
def execClaimOriginate (t : Nat) (s : State) : Answer :=
  effect t (fun s => active s && isPlaced s) (fun s =>
    doIf (elapsed s.now 1000000000 s.cutter.claimAt) (fun s =>
      let s := auditAll { s with cutter := { s.cutter with claimAt := some s.now } }
      originateClaims (claimed s) s) s) s

end Sys2Proof.Machine
end

