-- ==== Sys2Proof/Machine/TwoWire.lean ====
section
/-! DEFINITION. Port M: the mailbox class, the status class with its window into the snapshot, wakes, bus errors and attention (chapter 13, R395 to R415). -/

namespace Sys2Proof.Machine

/-- Change port M. -/
def modPortM (f : PortM → PortM) (s : State) : State := { s with portM := f s.portM }

/-! ## Addresses and PEC (R395, R396, R403) -/

/-- The mailbox-class address. -/
def mailAddr (s : State) : Nat := 0x50 + s.power.sampled.addr.toNat

/-- The status-class address. -/
def statusAddr (s : State) : Nat := 0x58 + s.power.sampled.addr.toNat

/-- The address byte of a mailbox-class write. -/
def writeByte (s : State) : Byte := BitVec.ofNat 8 (2 * mailAddr s)

/-- The address byte of a mailbox-class read. -/
def readByte_ (s : State) : Byte := BitVec.ofNat 8 (2 * mailAddr s + 1)

/-- Whether the PEC of a write lets it act. -/
def pecOk (s : State) (bytes : List Byte) (pec : Option Byte) : Bool :=
  match pec with
  | some p => p == crc8 bytes
  | none => !s.live.twPec

/-- A write whose PEC is wrong or missing has no effect and is counted. -/
def badPec (s : State) : State := s |> countDev 0x902 0 |> emit (.portMAck false)

/-- A protocol error is counted, and the byte not acknowledged. -/
def badProtocol (s : State) : State := s |> countDev 0x901 0 |> emit (.portMAck false)

/-! ## The mailbox class (R401 to R407, R409, R410, R415) -/

/-- A mailbox-class transaction in each condition of the device: it acts in P0 and P1, wakes the device from P2 and then acts, starts the exit from P3, and is not acknowledged in reset and FROZEN. -/
def onMailbox (f : State → State) (s : State) : State :=
  if !alwaysOn s then emit (.portMAck false) s
  else match s.power.pstate with
    | .p0 => f s
    | .p2 => f (wake s)
    | .p3 => s |> emit (.portMAck false) |> wake

/-- The service host's rings. -/
def svc (s : State) : Ring := ringAt s .service

/-- A fragment is rejected (R402). -/
def rejectFrag (drop : Bool) (s : State) : State :=
  modPortM (fun m => if drop then { m with putRejected := true, asm_ := none, nextFrag := 0 } else { m with putRejected := true }) s

/-- Whether a fragment's control byte obeys rules 1 and 2 of R402. -/
def fragOrder (m : PortM) (c : Byte) : Bool :=
  let no := c.toNat / 4
  if c.getLsbD 0 then no == 0 else m.asm_.isSome && no == m.nextFrag

/-- A whole fragment joins the assembly (R402). -/
def joinFrag (c : Byte) (data : List Byte) (m : PortM) : PortM :=
  let first := c.getLsbD 0
  let b := if first then data else (m.asm_.getD []) ++ data
  let m := { m with putRejected := false, frame := if first then none else m.frame }
  if c.getLsbD 1 then { m with asm_ := none, nextFrag := 0, frame := some b }
  else { m with asm_ := some b, nextFrag := (c.toNat / 4 + 1) % 64 }

/-- MBX_PUT with a count, the bytes that came before the STOP, and the PEC if one came. -/
def putFrag (n : Byte) (body : List Byte) (pec : Option Byte) (s : State) : State :=
  let b := body.take n.toNat
  let c := b.headD 0#8
  let data := b.drop 1
  let held := if c.getLsbD 0 then 0 else ((s.portM.asm_.getD []).length)
  if n.toNat < 2 ∨ 241 < n.toNat then badProtocol s
  else if b.isEmpty then s |> badProtocol |> rejectFrag false
  else if !fragOrder s.portM c then s |> badProtocol |> rejectFrag true
  else if held + data.length > 1028 then s |> badProtocol |> rejectFrag true
  else if b.length < n.toNat then s |> badProtocol |> rejectFrag false
  else if !pecOk s ([writeByte s, 0x20#8, n] ++ b) pec then s |> badPec |> rejectFrag false
  else s |> modPortM (joinFrag c data) |> emit (.portMAck true)

/-- MBX_PUT (R402). -/
def execMbxPut (t : Nat) (n : Byte) (body : List Byte) (pec : Option Byte) (s : State) : Answer :=
  effect t (fun _ => true) (onMailbox (putFrag n body pec)) s

/-- A block read: what follows the read address, with its PEC over the whole transaction. -/
def sendBlock (sent : List Byte) (block : List Byte) (s : State) : State :=
  let b := BitVec.ofNat 8 block.length :: block
  emit (.portM (b ++ [crc8 (sent ++ [readByte_ s] ++ b)])) s

/-- Fragments of a response: 240 bytes each (R404, R405). -/
def fragsOf (b : List Byte) : Nat := ceilDiv b.length 240

/-- Fragment n of the oldest response on ring 3. -/
def getFrag (n : Nat) (s : State) : List Byte :=
  match (svc s).rsps with
  | r :: _ =>
    let k := fragsOf r.bytes
    if n < k then by8 (b2n (n == 0) + 2 * b2n (n + 1 == k) + 4 * n) ++ (r.bytes.drop (240 * n)).take 240 else [0#8]
  | [] => [0#8]

/-- MBX_GET (R405) with its write count and fragment number. -/
def execMbxGet (t : Nat) (n frag : Byte) (s : State) : Answer :=
  effect t (fun _ => true) (onMailbox fun s =>
    if n ≠ 1#8 then badProtocol s else sendBlock [writeByte s, 0x21#8, n, frag] (getFrag frag.toNat s) s) s

/-- The eight bytes of MBX_STATUS. -/
def mbxStatus (s : State) : List Byte :=
  let m := s.portM
  let r := svc s
  let old := ((r.rsps.map (·.bytes)).head?).getD []
  by8 (b2n m.asm_.isSome + 2 * b2n m.frame.isSome + 4 * b2n (decide (r.cmds.length ≥ 8)) + 8 * b2n m.dbRefused + 16 * b2n m.putRejected +
      32 * b2n (mezBusy s) + 64 * b2n (romServes s)) ++
    by8 m.nextFrag ++ by8 r.rsps.length ++ by8 r.evts.length ++ by16 old.length ++ by8 (byteAt old 2) ++ by8 (fragsOf old)

/-- MBX_STATUS (R404). -/
def execMbxStatus (t : Nat) (s : State) : Answer :=
  effect t (fun _ => true) (onMailbox fun s => sendBlock [writeByte s, 0x22#8] (mbxStatus s) s) s

/-- The assembled frame is submitted to ring 2, or `db_refused` is set (R407). -/
def ringFrame (s : State) : State :=
  match s.portM.frame with
  | none => modPortM (fun m => { m with dbRefused := true }) s
  | some b =>
    let x := submit .service b 0#16 none s.hall.arrivalSeq s
    if x.2 then modPortM (fun m => { m with frame := none, asm_ := none, nextFrag := 0, dbRefused := false }) x.1
    else modPortM (fun m => { m with dbRefused := true }) s

/-- MBX_RING (R407). -/
def execMbxRing (t : Nat) (pec : Option Byte) (s : State) : Answer :=
  effect t (fun _ => true) (onMailbox fun s =>
    if pecOk s [writeByte s, 0x23#8] pec then s |> ringFrame |> emit (.portMAck true) else badPec s) s

/-- The open assembly and any assembled frame are discarded (R406). -/
def discardAssembly (s : State) : State := modPortM (fun m => { m with asm_ := none, frame := none, nextFrag := 0, dbRefused := false }) s

/-- The oldest response is released where its tag matches (R406). -/
def releaseTag (tag : Byte) (s : State) : State :=
  match (svc s).rsps with
  | r :: _ => if byteAt r.bytes 2 = tag.toNat then modRing .service (fun x => { x with rsps := x.rsps.drop 1 }) s else s
  | [] => s

/-- MBX_ABORT with an action byte. -/
def abort (action : Byte) (tag : Byte) (pec : Option Byte) (f : State → State) (s : State) : State :=
  if pecOk s [writeByte s, 0x24#8, action, tag] pec then s |> f |> emit (.portMAck true) else badPec s

/-- MBX_ABORT_DISCARD (R406). -/
def execMbxAbortDiscard (t : Nat) (tag : Byte) (pec : Option Byte) (s : State) : Answer :=
  effect t (fun _ => true) (onMailbox (abort 1#8 tag pec discardAssembly)) s

/-- MBX_ABORT_RELEASE (R406). -/
def execMbxAbortRelease (t : Nat) (tag : Byte) (pec : Option Byte) (s : State) : Answer :=
  effect t (fun _ => true) (onMailbox (abort 2#8 tag pec (releaseTag tag))) s

/-- MBX_ABORT_BOTH (R406). -/
def execMbxAbortBoth (t : Nat) (tag : Byte) (pec : Option Byte) (s : State) : Answer :=
  effect t (fun _ => true) (onMailbox (abort 3#8 tag pec fun s => s |> discardAssembly |> releaseTag tag)) s

/-! ## The status class (R397 to R400, R503) -/

/-- A status-class transaction: served but in reset and P3, where it starts the exit (R410, R415). -/
def onStatus (f : State → State) (s : State) : State :=
  if s.power.inReset.isSome then emit (.portMAck false) s
  else if s.power.pstate = .p3 ∧ !s.frz.on then s |> emit (.portMAck false) |> wake
  else f s

/-- `snap_source`: unavailable, live or frozen (R400). -/
def snapSource (s : State) : Nat := if s.frz.on then 2 else if fwRuns s then 1 else 0

/-- Select a half block; what was captured before is dropped. -/
def selectHalf (block : BitVec 16) (half : Bool) (m : PortM) : PortM :=
  { m with snapBlock := block, snapHalf := half, snapBuf := if block = m.snapBlock then m.snapBuf else none }

/-- The pointer advances; past the end of the snapshot data the selection moves on by one half (R400). -/
def advancePtr (m : PortM) : PortM :=
  if m.ptr = 0x3F#8 then { m with ptr := 0#8 }
  else if m.ptr = 0xFF#8 then
    { selectHalf (if m.snapHalf then m.snapBlock + 1#16 else m.snapBlock) (!m.snapHalf) m with ptr := 0x80#8 }
  else { m with ptr := m.ptr + 1#8 }

/-- A byte written at the pointer: `snap_block` and `snap_half` alone take it (R397, R400). -/
def putStatus (b : Byte) (m : PortM) : PortM :=
  let m' := if m.ptr = 0x40#8 then { selectHalf (m.snapBlock.extractLsb' 8 8 ++ b) m.snapHalf m with snapBuf := none }
    else if m.ptr = 0x41#8 then { selectHalf (b ++ m.snapBlock.extractLsb' 0 8) m.snapHalf m with snapBuf := none }
    else if m.ptr = 0x42#8 then { selectHalf m.snapBlock (b.getLsbD 0) m with snapBuf := none }
    else m
  advancePtr m'

/-- A status-class write: the pointer, then data (R397). -/
def statusWrite (bytes : List Byte) (s : State) : State :=
  match bytes with
  | p :: rest => s |> modPortM (fun m => rest.foldl (fun m b => putStatus b m) { m with ptr := p }) |> emit (.portMAck true)
  | [] => emit (.portMAck true) s

/-- STATUS_POINTER_WRITE (R397). -/
def execStatusPointerWrite (t : Nat) (bytes : List Byte) (s : State) : Answer := effect t (fun _ => true) (onStatus (statusWrite bytes)) s

/-- SNAP_SELECT_WRITE (R400): bytes written from 0x40, 0x41 or 0x42 on. -/
def execSnapSelectWrite (t : Nat) (reg : Fin 3) (bytes : List Byte) (s : State) : Answer :=
  effect t (fun _ => true) (onStatus (statusWrite (BitVec.ofNat 8 (0x40 + reg.val) :: bytes))) s

/-- The selected block is captured where it has not been yet (R503). -/
def captureBlock (s : State) : State :=
  let n := s.portM.snapBlock.toNat
  if s.portM.snapBuf.isSome ∨ snapSource s = 0 ∨ publicBlocks ≤ n then s
  else modPortM (fun m => { m with snapBuf := some (n, publicBlock n s) }) s

/-- The byte at the pointer, of a latched window. -/
def statusByte (window : List Byte) (s : State) : Byte :=
  let p := s.portM.ptr.toNat
  if p < 0x40 then window.getD p 0#8
  else if p = 0x40 then s.portM.snapBlock.extractLsb' 0 8
  else if p = 0x41 then s.portM.snapBlock.extractLsb' 8 8
  else if p = 0x42 then BitVec.ofNat 8 (b2n s.portM.snapHalf)
  else if p = 0x44 then (if snapSource s = 0 then 0#8 else BitVec.ofNat 8 (publicBlocks % 256))
  else if p = 0x45 then (if snapSource s = 0 then 0#8 else BitVec.ofNat 8 (publicBlocks / 256))
  else if p = 0x46 then BitVec.ofNat 8 (snapSource s)
  else if p < 0x80 then 0#8
  else match s.portM.snapBuf with
    | some b => if snapSource s = 0 then 0#8 else b.2.getD (p - 0x80 + 128 * b2n s.portM.snapHalf) 0#8
    | none => 0#8

/-- Bytes read from the pointer on. -/
def statusRead (window : List Byte) : Nat → State → List Byte × State
  | 0, s => ([], s)
  | n + 1, s =>
    let s := if 0x80 ≤ s.portM.ptr.toNat then captureBlock s else s
    let b := statusByte window s
    let x := statusRead window n (modPortM advancePtr s)
    (b :: x.1, x.2)

/-- STATUS_CLASS_READ (R397, R399, R400) of `n` bytes. -/
def execStatusClassRead (t : Nat) (n : Nat) (s : State) : Answer :=
  effect t (fun _ => true) (onStatus fun s =>
    let x := statusRead (quick s) n s
    emit (.portM x.1) x.2) s

/-! ## Bus errors and wakes (R408 to R410, R414) -/

/-- A transaction in progress is discarded, and with it a fragment if it was one (R402, R408, R414). -/
def discardTransaction (inPut : Bool) (s : State) : State := s |> badProtocol |> doIf inPut (rejectFrag false)

/-- PORTM_SCL_TIMEOUT (R408): another party has held SCL low for 35 ms; `inPut` tells whether a fragment was in progress. -/
def execPortmSclTimeout (t : Nat) (inPut : Bool) (s : State) : Answer := effect t guarding (discardTransaction inPut) s

/-- PORTM_BUS_ERROR (R414). -/
def execPortmBusError (t : Nat) (inPut : Bool) (s : State) : Answer := effect t guarding (discardTransaction inPut) s

/-- PORTM_P2_WAKE_MATCH (R409). -/
def execPortmP2WakeMatch (t : Nat) (s : State) : Answer :=
  effect t (fun s => alwaysOn s && s.power.pstate == .p2) (fun s => s |> emit (.portMAck true) |> wake) s

/-- PORTM_P3_WAKE_MATCH (R410). -/
def execPortmP3WakeMatch (t : Nat) (s : State) : Answer :=
  effect t (fun s => alwaysOn s && s.power.pstate == .p3) (fun s => s |> emit (.portMAck false) |> wake) s

/-! ## Attention (R411 to R413) -/

/-- ATTENTION_RELATCH (R411): every 100 ms. -/
def execAttentionRelatch (t : Nat) (s : State) : Answer :=
  effect t guarding (fun s =>
    let r := svc s
    doIf (elapsed s.now 100000000 s.portM.relatchAt) (modPortM fun m =>
      { m with relatchAt := some s.now, causes := m.causes ||| BitVec.ofNat 5 (b2n (!r.rsps.isEmpty) + 2 * b2n (!r.evts.isEmpty)) }) s) s

/-- Whether a notification of a kind can start: in P0 or P1, with a cause latched and the bus idle for 50 us. -/
def mayNotify (kind idle : Nat) (s : State) : Bool := active s && s.live.twAttn == kind && s.portM.causes != 0#5 && decide (50000 ≤ idle)

/-- The cause byte. -/
def causeByte (s : State) : Byte := s.portM.causes.setWidth 8

/-- ATTENTION_SDA_LOW_SEND (R412): the bus has been idle for `idle` ns, and the device keeps the bus or loses arbitration. -/
def execAttentionSdaLowSend (t : Nat) (idle : Nat) (won : Bool) (s : State) : Answer :=
  effect t (mayNotify 1 idle) (fun s =>
    if won then s |> emit (.portMSend (statusAddr s) [causeByte s]) |> modPortM fun m => { m with causes := 0#5 } else s) s

/-- A Host Notify; acknowledged in full it clears the causes it carried (R413). -/
def hostNotify (won acked : Bool) (s : State) : State :=
  if won then
    s |> emit (.portMSend s.live.twHost.toNat ([BitVec.ofNat 8 (2 * statusAddr s), causeByte s] ++ slice (quick s) 8 1))
      |> modPortM fun m => if acked then { m with causes := 0#5, notifyAt := none } else { m with notifyAt := some s.now }
  else s

/-- ATTENTION_HOST_NOTIFY_SEND (R413). -/
def execAttentionHostNotifySend (t : Nat) (idle : Nat) (won acked : Bool) (s : State) : Answer :=
  effect t (fun s => mayNotify 2 idle s && s.portM.notifyAt.isNone) (hostNotify won acked) s

/-- HOST_NOTIFY_RETRY (R413): 10 ms after an attempt that was not acknowledged. -/
def execHostNotifyRetry (t : Nat) (won acked : Bool) (s : State) : Answer :=
  effect t (mayNotify 2 50000) (fun s =>
    match s.portM.notifyAt with
    | some a => if a + 10000000 ≤ s.now then hostNotify won acked s else s
    | none => s) s

end Sys2Proof.Machine
end

