-- ==== Sys2Proof/Machine/Tap.lean ====
section
/-! DEFINITION. The test access port: boundary scan, tokens, the debug host's mailbox register, freeze, snapshots, SRAM and Mezzanine control (R479 to R481, R483, R495, R503). Each row is one instruction with the shift of its data register. -/

namespace Sys2Proof.Machine

/-! ## Instructions and levels (R463, R480, R483) -/

/-- Whether TDO is driven while shifting: not in reset but for an EXTEST hold, and not in P3 (R463). -/
def drivesTdo (s : State) : Bool :=
  match s.power.inReset with
  | some .extest => true
  | some _ => false
  | none => s.power.pstate != .p3

/-- Bits leave on TDO, the first in bit 0. -/
def shiftOut (n v : Nat) (s : State) : State := if drivesTdo s then emit (.tdo n v) s else s

/-- Whether a power state leaves an instruction working: in P3 IDCODE and BYPASS alone, in P2 neither SRAM_READ nor MEZ_CTRL, in FROZEN not MEZ_CTRL (R483). -/
def tapWorks (code : Nat) (s : State) : Bool :=
  match s.power.pstate with
  | .p3 => code == 0x01
  | .p2 => code != 0x31 && code != 0x32
  | .p0 => !(s.frz.on && code == 0x32)

/-- An instruction is loaded: above the open level it acts as BYPASS and counts a violation; where the power state withholds it, it acts as BYPASS. Under power-on reset the port does nothing. -/
def tap (t code : Nat) (f : State → State) (s : State) : Answer :=
  effect t (fun s => s.power.inReset != some .por) (fun s =>
    if s.dbg.level < tapLevel code then s |> modDbg (fun d => { d with ir := 0xFF }) |> countDev 0xB02 0 |> shiftOut 1 0
    else if !tapWorks code s then s |> modDbg (fun d => { d with ir := 0xFF }) |> shiftOut 1 0
    else f (modDbg (fun d => { d with ir := code }) s)) s

/-- TAP_RESET (R480, R481): IDCODE is selected, and an EXTEST hold ends in a boot unless RESET_N is low. -/
def execTapReset (t : Nat) (s : State) : Answer :=
  effect t (fun s => s.power.inReset != some .por) (fun s =>
    let s := modDbg (fun d => { d with ir := 0x01, extest := false }) s
    if s.power.inReset = some .extest then
      (if s.pins.resetNLow.isSome then modPower (fun p => { p with inReset := some .pin }) s else releaseReset s)
    else s) s

/-- TAP_IDCODE (R4, R480). -/
def execTapIdcode (t : Nat) (s : State) : Answer := tap t 0x01 (shiftOut 32 idcode) s

/-- TAP_BYPASS (R480): BYPASS, or any code that acts as it; an instruction above the open level counts a violation. -/
def execTapBypass (t : Nat) (code : Byte) (s : State) : Answer :=
  effect t (fun s => s.power.inReset != some .por) (fun s => s
    |> doIf (decide (s.dbg.level < tapLevel code.toNat)) (countDev 0xB02 0)
    |> modDbg (fun d => { d with ir := 0xFF })
    |> shiftOut 1 0) s

/-! ## Boundary scan (R480, R481) -/

/-- The boundary register of `n` cells captures pins and takes new values. -/
def scanCells (n pins new : Nat) (s : State) : State := s |> shiftOut n pins |> modDbg fun d => { d with boundary := new % 2 ^ n }

/-- TAP_SAMPLE_PRELOAD (R480): the levels of the pins are an operand. -/
def execTapSamplePreload (t : Nat) (n pins new : Nat) (s : State) : Answer := tap t 0x02 (scanCells n pins new) s

/-- EXTEST in one of its forms resets the device with the reach of RESET_N and holds it. -/
def extest (n pins new : Nat) (s : State) : State :=
  let s := if s.dbg.extest then s else modDbg (fun d => { d with extest := true }) (resetDevice .pin (some .extest) s)
  scanCells n pins new s

/-- TAP_EXTEST (R481). -/
def execTapExtest (t : Nat) (n pins new : Nat) (s : State) : Answer := tap t 0x03 (extest n pins new) s

/-- TAP_EXTEST_PULSE (R481). -/
def execTapExtestPulse (t : Nat) (n pins new : Nat) (s : State) : Answer := tap t 0x04 (extest n pins new) s

/-- TAP_EXTEST_TRAIN (R481). -/
def execTapExtestTrain (t : Nat) (n pins new : Nat) (s : State) : Answer := tap t 0x05 (extest n pins new) s

/-! ## Debug access (R479, R480) -/

/-- The word of DBG_STATUS; a check is over within its own step, so none runs here. -/
def dbgStatus (s : State) : Nat := lifecycle s.otp + 4 * s.dbg.level + 16 * b2n s.dbg.nonce.isSome + 64 * s.dbg.last

/-- TAP_DBG_STATUS (R480). -/
def execTapDbgStatus (t : Nat) (s : State) : Answer := tap t 0x10 (fun s => shiftOut 32 (dbgStatus s) s) s

/-- TAP_DBG_NONCE (R479, R480). -/
def execTapDbgNonce (t : Nat) (s : State) : Answer :=
  tap t 0x11 (fun s => let s := newNonce s; shiftOut 320 (leNat (nonceBytes s)) s) s

/-- Whether the Mezzanine can check a token: firmware, or the boot ROM in RECOVERY, in P0 and not FROZEN (R479). -/
def mayCheck (s : State) : Bool := fwRuns s || (active s && romServes s)

/-- TAP_DBG_TOKEN (R479): not checked where the Mezzanine cannot, or without a nonce; in FACTORY D2 is open without a check. A level or key code outside its range has no effect (R10). -/
def execTapDbgToken (t : Nat) (level key : Byte) (sig : List Byte) (s : State) : Answer :=
  tap t 0x12 (fun s =>
    if !(level == 1#8 || level == 2#8) ∨ 1 < key.toNat then s
    else if !mayCheck s then modDbg (fun d => { d with last := 3 }) s
    else if lifecycle s.otp = 0 then modDbg (fun d => { d with last := 1 }) s
    else match s.dbg.nonce with
      | none => modDbg (fun d => { d with last := 3 }) s
      | some n => (useToken n level.toNat key.toNat (fit 96 sig) s).2) s

/-! ## The debug host's mailbox register (R495) -/

/-- The debug host's rings. -/
def dbgRing (s : State) : Ring := ringAt s .debug

/-- What Capture-DR loads: status as it stands, and the data of the previous action. -/
def mbxCapture (s : State) : Nat :=
  16 * b2n (decide ((dbgRing s).cmds.length ≥ 8)) + 32 * b2n s.dbg.refused + 64 * b2n (!(dbgRing s).rsps.isEmpty) + 128 * b2n (mezBusy s) +
    256 * s.dbg.capture.toNat

/-- A scan of MBX: the capture is shifted out, and at Update-DR the action runs where the Mezzanine island can be reached. -/
def mbxScan (t : Nat) (f : State → State) (s : State) : Answer :=
  tap t 0x20 (fun s => s |> shiftOut 40 (mbxCapture s) |> doIf (active s) f) s

/-- The bytes of the oldest response. -/
def oldest (s : State) : List Byte := (((dbgRing s).rsps.map (·.bytes)).head?).getD []

/-- The data of an action's result. -/
def setCapture (n : Nat) (s : State) : State := modDbg (fun d => { d with capture := BitVec.ofNat 32 n }) s

/-- TAP_MBX_NOP (R495). -/
def execTapMbxNop (t : Nat) (s : State) : Answer :=
  mbxScan t (fun s => setCapture ((dbgRing s).rsps.length % 256 + 256 * ((oldest s).length % 65536)) s) s

/-- TAP_MBX_RESET_PTR (R495). -/
def execTapMbxResetPtr (t : Nat) (s : State) : Answer :=
  mbxScan t (fun s => s |> modDbg (fun d => { d with cmd := [], rd := 0 }) |> setCapture 0) s

/-- TAP_MBX_PUT (R495). -/
def execTapMbxPut (t : Nat) (data : BitVec 32) (s : State) : Answer :=
  mbxScan t (fun s => s
    |> modDbg (fun d => if d.cmd.length + 4 ≤ 1028 then { d with cmd := d.cmd ++ leBytes 4 data.toNat } else { d with refused := true })
    |> setCapture 0) s

/-- TAP_MBX_RING (R343, R495). -/
def execTapMbxRing (t : Nat) (s : State) : Answer :=
  mbxScan t (fun s =>
    let x := submit .debug s.dbg.cmd 0#16 none s.hall.arrivalSeq s
    x.1 |> modDbg (fun d => { d with refused := !x.2, cmd := if x.2 then [] else d.cmd }) |> setCapture 0) s

/-- TAP_MBX_GET (R495). -/
def execTapMbxGet (t : Nat) (s : State) : Answer :=
  mbxScan t (fun s => s |> setCapture (field (oldest s) s.dbg.rd 4) |> modDbg fun d => { d with rd := min 2047 (d.rd + 4) }) s

/-- TAP_MBX_ACK (R495). -/
def execTapMbxAck (t : Nat) (s : State) : Answer :=
  mbxScan t (fun s => s |> modRing .debug (fun r => { r with rsps := r.rsps.drop 1 }) |> modDbg (fun d => { d with rd := 0 }) |> setCapture 0) s

/-! ## Freeze and read-out (R483, R496, R502, R503) -/

/-- TAP_FREEZE (R496). -/
def execTapFreeze (t : Nat) (s : State) : Answer := tap t 0x21 (fun s => if canFreeze s then freezeNow 4 s else s) s

/-- TAP_SNAP_PUBLIC (R503): zeros outside FROZEN. -/
def execTapSnapPublic (t : Nat) (s : State) : Answer :=
  tap t 0x22 (fun s => shiftOut (2048 * publicBlocks) (if s.frz.on then leNat (snapshot false s) else 0) s) s

/-- TAP_SNAP_FULL (R503). -/
def execTapSnapFull (t : Nat) (s : State) : Answer :=
  tap t 0x30 (fun s => if s.frz.on then { (shiftOut (2048 * fullBlocks) (leNat (snapshot true s)) s) with free := s.free + 1 }
    else shiftOut (2048 * fullBlocks) 0 s) s

/-- TAP_SRAM_READ (R480): what the SRAM holds is a free value (note 16). -/
def execTapSramRead (t : Nat) (addr : BitVec 64) (s : State) : Answer :=
  tap t 0x31 (fun s =>
    { (shiftOut 64 (leNat ((List.range 8).map fun k => Config.memory s.free 512 (addr.toNat + k))) s) with free := s.free + 1 }) s

/-- TAP_MEZ_HALT (R481): the Mezzanine counts as not running, and the ring hardware answers the frames in the rings. -/
def execTapMezHalt (t : Nat) (s : State) : Answer :=
  tap t 0x32 (fun s => if active s ∧ s.mez.run ≠ .off then s |> modMez (fun m => { m with halted := true }) |> ringHardware else s) s

/-- TAP_MEZ_STEP (R480). -/
def execTapMezStep (t : Nat) (s : State) : Answer :=
  tap t 0x32 (fun s => if active s ∧ s.mez.halted then modMez (fun m => { m with steps := m.steps + 1 }) s else s) s

/-- TAP_MEZ_RESUME (R481). -/
def execTapMezResume (t : Nat) (s : State) : Answer := tap t 0x32 (fun s => doIf (active s) (modMez fun m => { m with halted := false }) s) s

end Sys2Proof.Machine
end

