-- ==== Sys2Proof/Machine/Dispatch.lean ====
section
/-! DEFINITION. `exec`: one arm per constructor of `Instr`, each one direct call of its meaning. -/

namespace Sys2Proof.Machine

/-- The effect of a command on everything but the queue of waiting commands. -/
def exec (i : Instr) (s : State) : Host.Outcome State Fault Refusal :=
  match i with
  | .systemInfo t q => Sys2Proof.Machine.execSystemInfo t q s
  | .systemReset t q => Sys2Proof.Machine.execSystemReset t q s
  | .systemStatus t q => Sys2Proof.Machine.execSystemStatus t q s
  | .mbxCounters t q => Sys2Proof.Machine.execMbxCounters t q s
  | .profileSave t q => Sys2Proof.Machine.execProfileSave t q s
  | .profileSelect t q => Sys2Proof.Machine.execProfileSelect t q s
  | .profileErase t q => Sys2Proof.Machine.execProfileErase t q s
  | .profileList t q => Sys2Proof.Machine.execProfileList t q s
  | .leaseAcquire t q => Sys2Proof.Machine.execLeaseAcquire t q s
  | .leaseRelease t q => Sys2Proof.Machine.execLeaseRelease t q s
  | .leaseRenew t q => Sys2Proof.Machine.execLeaseRenew t q s
  | .leaseCommit t q => Sys2Proof.Machine.execLeaseCommit t q s
  | .leaseDiscard t q => Sys2Proof.Machine.execLeaseDiscard t q s
  | .leaseStatus t q => Sys2Proof.Machine.execLeaseStatus t q s
  | .galleryStatus t q => Sys2Proof.Machine.execGalleryStatus t q s
  | .galleryProvision t q => Sys2Proof.Machine.execGalleryProvision t q s
  | .galleryReset t q => Sys2Proof.Machine.execGalleryReset t q s
  | .galleryIdle t q => Sys2Proof.Machine.execGalleryIdle t q s
  | .galleryCreditSet t q => Sys2Proof.Machine.execGalleryCreditSet t q s
  | .galleryCreditGet t q => Sys2Proof.Machine.execGalleryCreditGet t q s
  | .galleryCounters t q => Sys2Proof.Machine.execGalleryCounters t q s
  | .laneEqSet t q => Sys2Proof.Machine.execLaneEqSet t q s
  | .laneEqGet t q => Sys2Proof.Machine.execLaneEqGet t q s
  | .laneTxSet t q => Sys2Proof.Machine.execLaneTxSet t q s
  | .laneCounters t q => Sys2Proof.Machine.execLaneCounters t q s
  | .galleryTrainSet t q => Sys2Proof.Machine.execGalleryTrainSet t q s
  | .galleryTrainStatus t q => Sys2Proof.Machine.execGalleryTrainStatus t q s
  | .galleryRetrain t q => Sys2Proof.Machine.execGalleryRetrain t q s
  | .cutterModeSet t q => Sys2Proof.Machine.execCutterModeSet t q s
  | .cutterRun t q => Sys2Proof.Machine.execCutterRun t q s
  | .cutterRegionSet t q => Sys2Proof.Machine.execCutterRegionSet t q s
  | .cutterEntryGet t q => Sys2Proof.Machine.execCutterEntryGet t q s
  | .cutterInputsGet t q => Sys2Proof.Machine.execCutterInputsGet t q s
  | .cutterStatus t q => Sys2Proof.Machine.execCutterStatus t q s
  | .cutterCounters t q => Sys2Proof.Machine.execCutterCounters t q s
  | .correctionRegionSet t q => Sys2Proof.Machine.execCorrectionRegionSet t q s
  | .correctionRegionGet t q => Sys2Proof.Machine.execCorrectionRegionGet t q s
  | .correctionCommit t q => Sys2Proof.Machine.execCorrectionCommit t q s
  | .correctionSafeAlloc t q => Sys2Proof.Machine.execCorrectionSafeAlloc t q s
  | .correctionSafeCommit t q => Sys2Proof.Machine.execCorrectionSafeCommit t q s
  | .correctionSafeFree t q => Sys2Proof.Machine.execCorrectionSafeFree t q s
  | .correctionStatus t q => Sys2Proof.Machine.execCorrectionStatus t q s
  | .correctionCounters t q => Sys2Proof.Machine.execCorrectionCounters t q s
  | .safetyGroupSet t q => Sys2Proof.Machine.execSafetyGroupSet t q s
  | .safetyMonitorSet t q => Sys2Proof.Machine.execSafetyMonitorSet t q s
  | .safetyUnlock t q => Sys2Proof.Machine.execSafetyUnlock t q s
  | .safetyLock t q => Sys2Proof.Machine.execSafetyLock t q s
  | .safetyPasswordSet t q => Sys2Proof.Machine.execSafetyPasswordSet t q s
  | .safetyOrder t q => Sys2Proof.Machine.execSafetyOrder t q s
  | .safetyRelease t q => Sys2Proof.Machine.execSafetyRelease t q s
  | .safetyStatus t q => Sys2Proof.Machine.execSafetyStatus t q s
  | .safetyLogRead t q => Sys2Proof.Machine.execSafetyLogRead t q s
  | .safetyLogAck t q => Sys2Proof.Machine.execSafetyLogAck t q s
  | .safetyCounters t q => Sys2Proof.Machine.execSafetyCounters t q s
  | .bridgeNodeSet t q => Sys2Proof.Machine.execBridgeNodeSet t q s
  | .routeSet t q => Sys2Proof.Machine.execRouteSet t q s
  | .routeGet t q => Sys2Proof.Machine.execRouteGet t q s
  | .bridgeWindowSet t q => Sys2Proof.Machine.execBridgeWindowSet t q s
  | .bridgeWindowGet t q => Sys2Proof.Machine.execBridgeWindowGet t q s
  | .eventSinkSet t q => Sys2Proof.Machine.execEventSinkSet t q s
  | .eventRingSet t q => Sys2Proof.Machine.execEventRingSet t q s
  | .eventRead t q => Sys2Proof.Machine.execEventRead t q s
  | .bridgeRemote t q => Sys2Proof.Machine.execBridgeRemote t q s
  | .bridgeSync t q => Sys2Proof.Machine.execBridgeSync t q s
  | .bridgeLateErrors t q => Sys2Proof.Machine.execBridgeLateErrors t q s
  | .bridgeCounters t q => Sys2Proof.Machine.execBridgeCounters t q s
  | .twConfig t q => Sys2Proof.Machine.execTwConfig t q s
  | .twlConfig t q => Sys2Proof.Machine.execTwlConfig t q s
  | .twlRecover t q => Sys2Proof.Machine.execTwlRecover t q s
  | .twCounters t q => Sys2Proof.Machine.execTwCounters t q s
  | .powerStateSet t q => Sys2Proof.Machine.execPowerStateSet t q s
  | .powerStatus t q => Sys2Proof.Machine.execPowerStatus t q s
  | .clockRefSelect t q => Sys2Proof.Machine.execClockRefSelect t q s
  | .clockRefoutSet t q => Sys2Proof.Machine.execClockRefoutSet t q s
  | .clockStatus t q => Sys2Proof.Machine.execClockStatus t q s
  | .powerCounters t q => Sys2Proof.Machine.execPowerCounters t q s
  | .diagLoopSet t q => Sys2Proof.Machine.execDiagLoopSet t q s
  | .diagPrbsSet t q => Sys2Proof.Machine.execDiagPrbsSet t q s
  | .diagPrbsGet t q => Sys2Proof.Machine.execDiagPrbsGet t q s
  | .diagEyeScan t q => Sys2Proof.Machine.execDiagEyeScan t q s
  | .diagCountersClear t q => Sys2Proof.Machine.execDiagCountersClear t q s
  | .sensorRead t q => Sys2Proof.Machine.execSensorRead t q s
  | .logRead t q => Sys2Proof.Machine.execLogRead t q s
  | .logStream t q => Sys2Proof.Machine.execLogStream t q s
  | .updateBegin t q => Sys2Proof.Machine.execUpdateBegin t q s
  | .updateChunk t q => Sys2Proof.Machine.execUpdateChunk t q s
  | .updateVerify t q => Sys2Proof.Machine.execUpdateVerify t q s
  | .updateCommit t q => Sys2Proof.Machine.execUpdateCommit t q s
  | .updateActivate t q => Sys2Proof.Machine.execUpdateActivate t q s
  | .updateStatus t q => Sys2Proof.Machine.execUpdateStatus t q s
  | .debugNonce t q => Sys2Proof.Machine.execDebugNonce t q s
  | .debugOpen t q => Sys2Proof.Machine.execDebugOpen t q s
  | .debugClose t q => Sys2Proof.Machine.execDebugClose t q s
  | .securityLifecycleSet t q => Sys2Proof.Machine.execSecurityLifecycleSet t q s
  | .securityViolations t q => Sys2Proof.Machine.execSecurityViolations t q s
  | .freezeArm t q => Sys2Proof.Machine.execFreezeArm t q s
  | .freezeNow t q => Sys2Proof.Machine.execFreezeNow t q s
  | .snapshotRead t q => Sys2Proof.Machine.execSnapshotRead t q s
  | .passwordCheckDone t => Sys2Proof.Machine.execPasswordCheckDone t s
  | .waitingCommandTimeout t => Sys2Proof.Machine.execWaitingCommandTimeout t s
  | .commitWritesDrained t region safe => Sys2Proof.Machine.execCommitWritesDrained t region safe s
  | .bridgeSyncDone t => Sys2Proof.Machine.execBridgeSyncDone t s
  | .mailboxApertureWrite t g src off data => Sys2Proof.Machine.execMailboxApertureWrite t g src off data s
  | .mailboxDoorbell t g src => Sys2Proof.Machine.execMailboxDoorbell t g src s
  | .mailboxRspAck t g src => Sys2Proof.Machine.execMailboxRspAck t g src s
  | .mailboxDbRefusedClear t g => Sys2Proof.Machine.execMailboxDbRefusedClear t g s
  | .registerWrite t g src off b => Sys2Proof.Machine.execRegisterWrite t g src off b s
  | .apertureBindingLapse t => Sys2Proof.Machine.execApertureBindingLapse t s
  | .responseExpiry t => Sys2Proof.Machine.execResponseExpiry t s
  | .dispatchCommand t => Sys2Proof.Machine.execDispatchCommand t s
  | .leaseExpiry t => Sys2Proof.Machine.execLeaseExpiry t s
  | .mbxPut t n body pec => Sys2Proof.Machine.execMbxPut t n body pec s
  | .mbxGet t n frag => Sys2Proof.Machine.execMbxGet t n frag s
  | .mbxStatus t => Sys2Proof.Machine.execMbxStatus t s
  | .mbxRing t pec => Sys2Proof.Machine.execMbxRing t pec s
  | .mbxAbortDiscard t tag pec => Sys2Proof.Machine.execMbxAbortDiscard t tag pec s
  | .mbxAbortRelease t tag pec => Sys2Proof.Machine.execMbxAbortRelease t tag pec s
  | .mbxAbortBoth t tag pec => Sys2Proof.Machine.execMbxAbortBoth t tag pec s
  | .statusPointerWrite t bytes => Sys2Proof.Machine.execStatusPointerWrite t bytes s
  | .snapSelectWrite t reg bytes => Sys2Proof.Machine.execSnapSelectWrite t reg bytes s
  | .statusClassRead t n => Sys2Proof.Machine.execStatusClassRead t n s
  | .portmSclTimeout t inPut => Sys2Proof.Machine.execPortmSclTimeout t inPut s
  | .portmBusError t inPut => Sys2Proof.Machine.execPortmBusError t inPut s
  | .portmP2WakeMatch t => Sys2Proof.Machine.execPortmP2WakeMatch t s
  | .portmP3WakeMatch t => Sys2Proof.Machine.execPortmP3WakeMatch t s
  | .attentionRelatch t => Sys2Proof.Machine.execAttentionRelatch t s
  | .attentionSdaLowSend t idle won => Sys2Proof.Machine.execAttentionSdaLowSend t idle won s
  | .attentionHostNotifySend t idle won acked => Sys2Proof.Machine.execAttentionHostNotifySend t idle won acked s
  | .hostNotifyRetry t won acked => Sys2Proof.Machine.execHostNotifyRetry t won acked s
  | .portlTransaction t acked data => Sys2Proof.Machine.execPortlTransaction t acked data s
  | .portlStretchTimeout t held hold => Sys2Proof.Machine.execPortlStretchTimeout t held hold s
  | .portlArbitrationLost t => Sys2Proof.Machine.execPortlArbitrationLost t s
  | .portlSdaStuckDetect t hold => Sys2Proof.Machine.execPortlSdaStuckDetect t hold s
  | .lockedRead t acked data => Sys2Proof.Machine.execLockedRead t acked data s
  | .unlockingWrite t acked => Sys2Proof.Machine.execUnlockingWrite t acked s
  | .lockedSequenceTimeout t => Sys2Proof.Machine.execLockedSequenceTimeout t s
  | .lockLostStateExpiry t => Sys2Proof.Machine.execLockLostStateExpiry t s
  | .parcelReceive t g p begun upset => Sys2Proof.Machine.execParcelReceive t g p begun upset s
  | .bridgeRead t port p ahead single double => Sys2Proof.Machine.execBridgeRead t port p ahead single double s
  | .bridgeWritePosted t port p => Sys2Proof.Machine.execBridgeWritePosted t port p s
  | .bridgeWriteNonposted t port p => Sys2Proof.Machine.execBridgeWriteNonposted t port p s
  | .completionReceive t port p => Sys2Proof.Machine.execCompletionReceive t port p s
  | .eventRelay t port p => Sys2Proof.Machine.execEventRelay t port p s
  | .announceReceive t g p => Sys2Proof.Machine.execAnnounceReceive t g p s
  | .claimReceive t g p => Sys2Proof.Machine.execClaimReceive t g p s
  | .driverFaultReceive t g p => Sys2Proof.Machine.execDriverFaultReceive t g p s
  | .postedWriteComplete t => Sys2Proof.Machine.execPostedWriteComplete t s
  | .prefetchExpiry t => Sys2Proof.Machine.execPrefetchExpiry t s
  | .eventRelease t port => Sys2Proof.Machine.execEventRelease t port s
  | .hallCellTransfer t input cls met => Sys2Proof.Machine.execHallCellTransfer t input cls met s
  | .parcelTransmit t g idle => Sys2Proof.Machine.execParcelTransmit t g idle s
  | .messageBudgetWindow t g => Sys2Proof.Machine.execMessageBudgetWindow t g s
  | .cutMarkReceive t g c => Sys2Proof.Machine.execCutMarkReceive t g c s
  | .gapReceive t g b => Sys2Proof.Machine.execGapReceive t g b s
  | .bastingTrainReceive t g blocks whole => Sys2Proof.Machine.execBastingTrainReceive t g blocks whole s
  | .bastingTrainSend t g => Sys2Proof.Machine.execBastingTrainSend t g s
  | .creditAReceive t g px pm demand => Sys2Proof.Machine.execCreditAReceive t g px pm demand s
  | .creditBReceive t g np cp demand => Sys2Proof.Machine.execCreditBReceive t g np cp demand s
  | .infoReceive t g quotaPx reachPx => Sys2Proof.Machine.execInfoReceive t g quotaPx reachPx s
  | .probeReceive t g id => Sys2Proof.Machine.execProbeReceive t g id s
  | .echoReceive t g id => Sys2Proof.Machine.execEchoReceive t g id s
  | .sentAReceive t g px pm => Sys2Proof.Machine.execSentAReceive t g px pm s
  | .sentBReceive t g np cp => Sys2Proof.Machine.execSentBReceive t g np cp s
  | .creditPendingTimeout t g => Sys2Proof.Machine.execCreditPendingTimeout t g s
  | .creditRefresh t g => Sys2Proof.Machine.execCreditRefresh t g s
  | .sentPeriod t g => Sys2Proof.Machine.execSentPeriod t g s
  | .probePeriod t g => Sys2Proof.Machine.execProbePeriod t g s
  | .classIdleTimeout t g c => Sys2Proof.Machine.execClassIdleTimeout t g c s
  | .receiveCodeword t g lane bits reads => Sys2Proof.Machine.execReceiveCodeword t g lane bits reads s
  | .receiveBlock t g lane b reads => Sys2Proof.Machine.execReceiveBlock t g lane b reads s
  | .deskewMarkerReceive t g lane seq lanePos sideband => Sys2Proof.Machine.execDeskewMarkerReceive t g lane seq lanePos sideband s
  | .deskewTimeout t g lane => Sys2Proof.Machine.execDeskewTimeout t g lane s
  | .clockLaneLock t g ppm => Sys2Proof.Machine.execClockLaneLock t g ppm s
  | .clockLaneLost t g => Sys2Proof.Machine.execClockLaneLost t g s
  | .idleNoticeReceive t g lane last lanePos => Sys2Proof.Machine.execIdleNoticeReceive t g lane last lanePos s
  | .clockStopNoticeReceive t g lane seq lanePos => Sys2Proof.Machine.execClockStopNoticeReceive t g lane seq lanePos s
  | .autoWake t g => Sys2Proof.Machine.execAutoWake t g s
  | .idleReturn t g => Sys2Proof.Machine.execIdleReturn t g s
  | .tackBlockReceive t g lane b => Sys2Proof.Machine.execTackBlockReceive t g lane b s
  | .tackBurstEnd t g lane drift => Sys2Proof.Machine.execTackBurstEnd t g lane drift s
  | .clockPreambleEnd t g rx relocked => Sys2Proof.Machine.execClockPreambleEnd t g rx relocked s
  | .detectProbe t g clk found => Sys2Proof.Machine.execDetectProbe t g clk found s
  | .clockActivitySeen t g => Sys2Proof.Machine.execClockActivitySeen t g s
  | .terminationLost t g => Sys2Proof.Machine.execTerminationLost t g s
  | .trainTimerExpiry t g rx => Sys2Proof.Machine.execTrainTimerExpiry t g rx s
  | .backoffExpiry t g => Sys2Proof.Machine.execBackoffExpiry t g s
  | .capReceive t g lane c => Sys2Proof.Machine.execCapReceive t g lane c s
  | .landingReceive t g lane l => Sys2Proof.Machine.execLandingReceive t g lane l s
  | .eqReqReceive t g pos count request => Sys2Proof.Machine.execEqReqReceive t g pos count request s
  | .eqAckReceive t g lane pos count cm2 cm1 cp1 cp2 areas => Sys2Proof.Machine.execEqAckReceive t g lane pos count cm2 cm1 cp1 cp2 areas s
  | .qualReceive t g lane tread fec countdown => Sys2Proof.Machine.execQualReceive t g lane tread fec countdown s
  | .qualifyEnd t g results => Sys2Proof.Machine.execQualifyEnd t g results s
  | .resultReceive t g r => Sys2Proof.Machine.execResultReceive t g r s
  | .stepReceive t g b => Sys2Proof.Machine.execStepReceive t g b s
  | .stepBoundary t g rx => Sys2Proof.Machine.execStepBoundary t g rx s
  | .activateSend t g => Sys2Proof.Machine.execActivateSend t g s
  | .activateReceive t g tread fec active firstSeq => Sys2Proof.Machine.execActivateReceive t g tread fec active firstSeq s
  | .retrainReceive t g r => Sys2Proof.Machine.execRetrainReceive t g r s
  | .guardEnd t g rx => Sys2Proof.Machine.execGuardEnd t g rx s
  | .stepDownWindow t g bits => Sys2Proof.Machine.execStepDownWindow t g bits s
  | .reclimbTimer t g => Sys2Proof.Machine.execReclimbTimer t g s
  | .lossReceive t g l => Sys2Proof.Machine.execLossReceive t g l s
  | .lossReportRepeat t g => Sys2Proof.Machine.execLossReportRepeat t g s
  | .lossReportRetry t g => Sys2Proof.Machine.execLossReportRetry t g s
  | .replayReceive t g r => Sys2Proof.Machine.execReplayReceive t g r s
  | .rejoinAttemptStart t g => Sys2Proof.Machine.execRejoinAttemptStart t g s
  | .rejoinAttemptLimit t g => Sys2Proof.Machine.execRejoinAttemptLimit t g s
  | .laneCheckQualify t g pos checkId => Sys2Proof.Machine.execLaneCheckQualify t g pos checkId s
  | .laneCheckReady t g pos checkId => Sys2Proof.Machine.execLaneCheckReady t g pos checkId s
  | .laneCheckRetire t g pos checkId => Sys2Proof.Machine.execLaneCheckRetire t g pos checkId s
  | .sidebandWaitExpiry t g => Sys2Proof.Machine.execSidebandWaitExpiry t g s
  | .rejoinReceive t g r => Sys2Proof.Machine.execRejoinReceive t g r s
  | .placementRunStart t trig => Sys2Proof.Machine.execPlacementRunStart t trig s
  | .placementRunDone t => Sys2Proof.Machine.execPlacementRunDone t s
  | .pendingEntryTimeout t region => Sys2Proof.Machine.execPendingEntryTimeout t region s
  | .cutMarkOverdue t region => Sys2Proof.Machine.execCutMarkOverdue t region s
  | .recordExpiry t region g claimant => Sys2Proof.Machine.execRecordExpiry t region g claimant s
  | .announceOriginate t g => Sys2Proof.Machine.execAnnounceOriginate t g s
  | .claimOriginate t => Sys2Proof.Machine.execClaimOriginate t s
  | .pipeProcessParcel t single double => Sys2Proof.Machine.execPipeProcessParcel t single double s
  | .pipeCheckFail t pipe inside => Sys2Proof.Machine.execPipeCheckFail t pipe inside s
  | .storeScrub t pos single double => Sys2Proof.Machine.execStoreScrub t pos single double s
  | .extentClearingDone t region => Sys2Proof.Machine.execExtentClearingDone t region s
  | .catchUpCopyDone t copied => Sys2Proof.Machine.execCatchUpCopyDone t copied s
  | .storeLost t => Sys2Proof.Machine.execStoreLost t s
  | .safeFrameStart t region g => Sys2Proof.Machine.execSafeFrameStart t region g s
  | .freshnessTimeout t region g => Sys2Proof.Machine.execFreshnessTimeout t region g s
  | .luminanceClear t region g => Sys2Proof.Machine.execLuminanceClear t region g s
  | .driverFaultExpiry t region g => Sys2Proof.Machine.execDriverFaultExpiry t region g s
  | .sensorSample t n v => Sys2Proof.Machine.execSensorSample t n v s
  | .thermalClear t => Sys2Proof.Machine.execThermalClear t s
  | .supplySample t n mv => Sys2Proof.Machine.execSupplySample t n mv s
  | .safeStateEnd t region => Sys2Proof.Machine.execSafeStateEnd t region s
  | .deviceSafeEnd t => Sys2Proof.Machine.execDeviceSafeEnd t s
  | .lockoutRecordWrite t => Sys2Proof.Machine.execLockoutRecordWrite t s
  | .releaseArmExpiry t => Sys2Proof.Machine.execReleaseArmExpiry t s
  | .lockoutClrNFall t => Sys2Proof.Machine.execLockoutClrNFall t s
  | .lockoutClrNRise t => Sys2Proof.Machine.execLockoutClrNRise t s
  | .releaseCheck t => Sys2Proof.Machine.execReleaseCheck t s
  | .sessionTimeout t => Sys2Proof.Machine.execSessionTimeout t s
  | .refclkLost t ref => Sys2Proof.Machine.execRefclkLost t ref s
  | .refclkRestored t ref => Sys2Proof.Machine.execRefclkRestored t ref s
  | .referenceSwitch t ref => Sys2Proof.Machine.execReferenceSwitch t ref s
  | .xinLost t => Sys2Proof.Machine.execXinLost t s
  | .clockSwitchComplete t island => Sys2Proof.Machine.execClockSwitchComplete t island s
  | .forcedSwitch t island => Sys2Proof.Machine.execForcedSwitch t island s
  | .pllLock t pll => Sys2Proof.Machine.execPllLock t pll s
  | .pllLockLoss t pll => Sys2Proof.Machine.execPllLockLoss t pll s
  | .gateQuiesceAck t unit => Sys2Proof.Machine.execGateQuiesceAck t unit s
  | .forcedGate t unit => Sys2Proof.Machine.execForcedGate t unit s
  | .oscWaitEnd t => Sys2Proof.Machine.execOscWaitEnd t s
  | .refoutLock t out => Sys2Proof.Machine.execRefoutLock t out s
  | .meterGate t m v => Sys2Proof.Machine.execMeterGate t m v s
  | .zcalCalibration t inRange => Sys2Proof.Machine.execZcalCalibration t inRange s
  | .powerOnReset t => Sys2Proof.Machine.execPowerOnReset t s
  | .railBelowThreshold t rail => Sys2Proof.Machine.execRailBelowThreshold t rail s
  | .vdramLoss t => Sys2Proof.Machine.execVdramLoss t s
  | .resetNLow t hold => Sys2Proof.Machine.execResetNLow t hold s
  | .wakeNFall t low => Sys2Proof.Machine.execWakeNFall t low s
  | .cutterHoldExpiry t => Sys2Proof.Machine.execCutterHoldExpiry t s
  | .p2DrainEnd t => Sys2Proof.Machine.execP2DrainEnd t s
  | .brownoutWarning t => Sys2Proof.Machine.execBrownoutWarning t s
  | .brownoutEnd t => Sys2Proof.Machine.execBrownoutEnd t s
  | .brownoutSustained t => Sys2Proof.Machine.execBrownoutSustained t s
  | .mezzanineWatchdog t => Sys2Proof.Machine.execMezzanineWatchdog t s
  | .firmwareReadopt t => Sys2Proof.Machine.execFirmwareReadopt t s
  | .bootSequencerRun t => Sys2Proof.Machine.execBootSequencerRun t s
  | .bootRomSlotCheck t => Sys2Proof.Machine.execBootRomSlotCheck t s
  | .firmwareBootComplete t => Sys2Proof.Machine.execFirmwareBootComplete t s
  | .trialConfirm t => Sys2Proof.Machine.execTrialConfirm t s
  | .returnedErasure t => Sys2Proof.Machine.execReturnedErasure t s
  | .freezeNFall t highFor => Sys2Proof.Machine.execFreezeNFall t highFor s
  | .logWriterFlush t => Sys2Proof.Machine.execLogWriterFlush t s
  | .eyeScanComplete t g lane eye points => Sys2Proof.Machine.execEyeScanComplete t g lane eye points s
  | .tapReset t => Sys2Proof.Machine.execTapReset t s
  | .tapIdcode t => Sys2Proof.Machine.execTapIdcode t s
  | .tapSamplePreload t n pins new => Sys2Proof.Machine.execTapSamplePreload t n pins new s
  | .tapExtest t n pins new => Sys2Proof.Machine.execTapExtest t n pins new s
  | .tapExtestPulse t n pins new => Sys2Proof.Machine.execTapExtestPulse t n pins new s
  | .tapExtestTrain t n pins new => Sys2Proof.Machine.execTapExtestTrain t n pins new s
  | .tapDbgStatus t => Sys2Proof.Machine.execTapDbgStatus t s
  | .tapDbgNonce t => Sys2Proof.Machine.execTapDbgNonce t s
  | .tapDbgToken t level key sig => Sys2Proof.Machine.execTapDbgToken t level key sig s
  | .tapMbxNop t => Sys2Proof.Machine.execTapMbxNop t s
  | .tapMbxResetPtr t => Sys2Proof.Machine.execTapMbxResetPtr t s
  | .tapMbxPut t data => Sys2Proof.Machine.execTapMbxPut t data s
  | .tapMbxRing t => Sys2Proof.Machine.execTapMbxRing t s
  | .tapMbxGet t => Sys2Proof.Machine.execTapMbxGet t s
  | .tapMbxAck t => Sys2Proof.Machine.execTapMbxAck t s
  | .tapFreeze t => Sys2Proof.Machine.execTapFreeze t s
  | .tapSnapPublic t => Sys2Proof.Machine.execTapSnapPublic t s
  | .tapSnapFull t => Sys2Proof.Machine.execTapSnapFull t s
  | .tapSramRead t addr => Sys2Proof.Machine.execTapSramRead t addr s
  | .tapMezHalt t => Sys2Proof.Machine.execTapMezHalt t s
  | .tapMezStep t => Sys2Proof.Machine.execTapMezStep t s
  | .tapMezResume t => Sys2Proof.Machine.execTapMezResume t s
  | .tapBypass t code => Sys2Proof.Machine.execTapBypass t code s
  | .hallLost t => Sys2Proof.Machine.execHallLost t s
  | .adaptationWindowEnd t g lane sums vga drift => Sys2Proof.Machine.execAdaptationWindowEnd t g lane sums vga drift s
  | .qualCountdownEnd t g rx => Sys2Proof.Machine.execQualCountdownEnd t g rx s
  | .updateVerifyDone t => Sys2Proof.Machine.execUpdateVerifyDone t s
  | .updateCommitDone t same => Sys2Proof.Machine.execUpdateCommitDone t same s
  | .logStreamHolderExpiry t => Sys2Proof.Machine.execLogStreamHolderExpiry t s

end Sys2Proof.Machine
end

