-- ==== Sys2Proof/WellFormed.lean ====
section
/-! DEFINITION. Which operands the wires, the pins and the memories of the device can carry. The meanings are total and do not rest on it. -/

namespace Sys2Proof

/-- A parcel the stream can carry: its header's length is that of its payload, a multiple of 4 up to 4,096 (R184). -/
def Parcel.wf (p : Parcel) : Bool :=
  p.payload.length == (p.hdr.extractLsb' 8 13).toNat && p.payload.length % 4 == 0 && p.payload.length ≤ 4096

/-- A request of a mailbox frame: up to 1,008 payload bytes, and a gallery exactly where it came over the hops (R341, R344). -/
def Req.wf (q : Req) : Bool := q.payload.length ≤ 1008 && ((q.host == .link) == q.gallery.isSome)

/-- Numbers of words of the store, 64 MiB in words of 8 bytes (R260). -/
def storeWords (l : List Nat) : Bool := l.all (· < 8388608)

/-- A boundary scan of `n` cells: what the pins show and what is shifted in have `n` bits (R506). -/
def scan (n pins new : Nat) : Bool := pins < 2 ^ n && new < 2 ^ n

/-- Whether a command could come: its operands are ones the device's inputs can carry. -/
def Instr.wf : Instr → Bool
  | .systemInfo _ q | .systemReset _ q | .systemStatus _ q | .mbxCounters _ q | .profileSave _ q | .profileSelect _ q | .profileErase _ q |
    .profileList _ q | .leaseAcquire _ q | .leaseRelease _ q | .leaseRenew _ q | .leaseCommit _ q | .leaseDiscard _ q | .leaseStatus _ q |
    .galleryStatus _ q | .galleryProvision _ q | .galleryReset _ q | .galleryIdle _ q | .galleryCreditSet _ q | .galleryCreditGet _ q |
    .galleryCounters _ q | .laneEqSet _ q | .laneEqGet _ q | .laneTxSet _ q | .laneCounters _ q | .galleryTrainSet _ q | .galleryTrainStatus _ q |
    .galleryRetrain _ q | .cutterModeSet _ q | .cutterRun _ q | .cutterRegionSet _ q | .cutterEntryGet _ q | .cutterInputsGet _ q |
    .cutterStatus _ q | .cutterCounters _ q | .correctionRegionSet _ q | .correctionRegionGet _ q | .correctionCommit _ q | .correctionSafeAlloc _ q |
    .correctionSafeCommit _ q | .correctionSafeFree _ q | .correctionStatus _ q | .correctionCounters _ q | .safetyGroupSet _ q |
    .safetyMonitorSet _ q | .safetyUnlock _ q | .safetyLock _ q | .safetyPasswordSet _ q | .safetyOrder _ q | .safetyRelease _ q | .safetyStatus _ q |
    .safetyLogRead _ q | .safetyLogAck _ q | .safetyCounters _ q | .bridgeNodeSet _ q | .routeSet _ q | .routeGet _ q | .bridgeWindowSet _ q |
    .bridgeWindowGet _ q | .eventSinkSet _ q | .eventRingSet _ q | .eventRead _ q | .bridgeRemote _ q | .bridgeSync _ q | .bridgeLateErrors _ q |
    .bridgeCounters _ q | .twConfig _ q | .twlConfig _ q | .twlRecover _ q | .twCounters _ q | .powerStateSet _ q | .powerStatus _ q |
    .clockRefSelect _ q | .clockRefoutSet _ q | .clockStatus _ q | .powerCounters _ q | .diagLoopSet _ q | .diagPrbsSet _ q | .diagPrbsGet _ q |
    .diagEyeScan _ q | .diagCountersClear _ q | .sensorRead _ q | .logRead _ q | .logStream _ q | .updateBegin _ q | .updateChunk _ q |
    .updateVerify _ q | .updateCommit _ q | .updateActivate _ q | .updateStatus _ q | .debugNonce _ q | .debugOpen _ q | .debugClose _ q |
    .securityLifecycleSet _ q | .securityViolations _ q | .freezeArm _ q | .freezeNow _ q | .snapshotRead _ q => q.wf
  | .parcelReceive _ _ p _ x => p.wf && match x with
    | some (.route n) => n < 2048
    | some (.entry _ r _) => r < 4096
    | some (.bobbin _) | none => true
  | .bridgeRead _ _ p _ single double => p.wf && storeWords single && storeWords double
  | .bridgeWritePosted _ _ p | .bridgeWriteNonposted _ _ p | .completionReceive _ _ p | .eventRelay _ _ p => p.wf
  | .announceReceive _ _ p | .claimReceive _ _ p | .driverFaultReceive _ _ p => p.wf
  | .bastingTrainReceive _ _ blocks _ => blocks.length ≤ 512
  | .receiveCodeword _ _ _ _ reads => reads.length ≤ 80
  | .qualifyEnd _ _ results => results.length ≤ 8
  | .pipeProcessParcel _ single double | .storeScrub _ _ single double | .catchUpCopyDone _ ⟨_, single, double⟩ |
    .hallCellTransfer _ _ _ ⟨_, single, double⟩ => storeWords single && storeWords double
  | .eyeScanComplete _ _ _ _ points => points.length == 64
  | .mailboxApertureWrite _ _ _ off data => off + data.length ≤ 4096
  | .registerWrite _ _ _ off _ => off < 4096
  | .tapSamplePreload _ n pins new | .tapExtest _ n pins new | .tapExtestPulse _ n pins new | .tapExtestTrain _ n pins new => scan n pins new
  | .tapDbgToken _ _ _ sig => sig.length == 96
  | _ => true

end Sys2Proof
end

