-- ==== Sys2Proof/Safety.lean ====
section
/-! DEFINITION. What claims about the machine are said in: a command that gives a state, the state a mailbox command's own work starts from, and the forms that every step keeps. -/

namespace Sys2Proof.Machine

/-- A command at a state answers a next state: `u`, with what follows every effect (R411, R496). -/
def Gives (c : Instr) (s u : State) : Prop := exec c s = .next (finish u)

/-- A run is safe that never stops: the front command answers a next state. -/
def Safe (s : State) : Prop := ∃ u, step s = .next u

/-- The state as the dispatcher finds it that takes a request at a time, its doorbell rung in that cycle, its frame the next in the order of arrival (R266, R349). -/
def taken (t : Nat) (s : State) : State :=
  let s := begin t s
  { s with mbx := { s.mbx with cycle := mezCycle s.now, frame := s.hall.arrivalSeq } }

/-- The state from which a dispatched command does its own work: a lease of the caller renewed, a safety session kept open (R298, R355). -/
def ready (c : Cmd) (t : Nat) (q : Req) (s : State) : State := taken t s |> renewFor c q |> touchSession c q

/-- The dispatcher takes a request for the firmware, which has not answered its number last (R347, R349, R350). -/
def Fresh (t : Nat) (q : Req) (s : State) : Prop :=
  canTake q.host (begin t s) = true ∧ fwRuns (begin t s) = true ∧ (ringAt (begin t s) q.host).dup.map (·.1) ≠ some q.seq

/-- A request comes to its own work: it is fresh, carries the lease it needs and a payload of the right length, and is neither staged nor a dry run
(R346, R357, R368). -/
def Passes (c : Cmd) (t : Nat) (q : Req) (s : State) : Prop :=
  Fresh t q s ∧ leaseStep c q (ready c t q s) = 0 ∧ shapeStep c q = 0 ∧ q.stage = false ∧ q.dryRun = false

/-- A request is answered OK with a payload, after an effect on the state it found (R345, R347). -/
def Replies (i : Instr) (c : Cmd) (t : Nat) (q : Req) (s : State) (p : List Byte) (f : State → State) : Prop :=
  Gives i s (answer c q 0 p (f (ready c t q s)))

/-- A request has its effect and then waits, at most so many ns, 27 times as long while XIN is lost (R350, R371, R437). -/
def Waits (i : Instr) (c : Cmd) (t : Nat) (q : Req) (s : State) (limit : Nat) (f : State → State) : Prop :=
  let r := ready c t q s
  let w : Waiting := { op := c.op, req := q, at_ := r.now, due := r.now + limit * slower r, mark := r.mbx.frame }
  Gives i s (modRing q.host (fun x => { x with wait := some w }) (f r))

/-- Every mailbox command of the interface, with the row that sends it. -/
def mailboxRows : List ((Nat → Req → Instr) × Cmd) :=
    [(.debugNonce, cmdNonce), (.debugOpen, cmdDebugOpen), (.debugClose, cmdDebugClose), (.securityLifecycleSet, cmdLifecycle), (.securityViolations, cmdViolations),
      (.freezeArm, cmdFreezeArm), (.freezeNow, cmdFreezeNow), (.diagLoopSet, cmdLoopSet), (.diagPrbsSet, cmdPrbsSet), (.diagPrbsGet, cmdPrbsGet),
      (.diagEyeScan, cmdEyeScan), (.diagCountersClear, cmdCountersClear), (.sensorRead, cmdSensorRead), (.logRead, cmdLogRead), (.logStream, cmdLogStream),
      (.galleryStatus, cmdGalStatus), (.galleryProvision, cmdProvision), (.galleryReset, cmdGalReset), (.galleryIdle, cmdIdle), (.galleryCreditSet, cmdCreditSet),
      (.galleryCreditGet, cmdCreditGet), (.galleryCounters, cmdGalCounters), (.laneEqSet, cmdEqSet), (.laneEqGet, cmdEqGet), (.laneTxSet, cmdTxSet),
      (.laneCounters, cmdLaneCounters), (.galleryTrainSet, cmdTrainSet), (.galleryTrainStatus, cmdTrainStatus), (.galleryRetrain, cmdRetrain)] ++
    [(.safetyGroupSet, cmdGroupSet), (.safetyMonitorSet, cmdMonitorSet), (.safetyUnlock, cmdUnlock), (.safetyLock, cmdLock), (.safetyPasswordSet, cmdPasswordSet),
      (.safetyOrder, cmdOrder), (.safetyRelease, cmdSafetyRelease), (.safetyStatus, cmdSafetyStatus), (.safetyLogRead, cmdSafetyLogRead), (.safetyLogAck, cmdLogAck),
      (.safetyCounters, cmdSafetyCounters), (.bridgeNodeSet, cmdNodeSet), (.routeSet, cmdRouteSet), (.routeGet, cmdRouteGet), (.bridgeWindowSet, cmdWindowSet),
      (.bridgeWindowGet, cmdWindowGet), (.eventSinkSet, cmdSinkSet), (.eventRingSet, cmdRingSet), (.eventRead, cmdEventRead), (.bridgeRemote, cmdRemote),
      (.bridgeSync, cmdSync), (.bridgeLateErrors, cmdLateErrors), (.bridgeCounters, cmdBridgeCounters), (.twConfig, cmdTwConfig), (.twlConfig, cmdTwlConfig),
      (.twlRecover, cmdTwlRecover), (.twCounters, cmdTwCounters), (.leaseCommit, cmdLeaseCommit), (.snapshotRead, cmdSnapRead), (.powerStateSet, cmdStateSet)] ++
    [(.powerStatus, cmdPowerStatus), (.clockRefSelect, cmdRefSelect), (.clockRefoutSet, cmdRefoutSet), (.clockStatus, cmdClockStatus), (.powerCounters, cmdPowerCounters),
      (.systemInfo, cmdInfo), (.systemReset, cmdReset), (.systemStatus, cmdStatus), (.mbxCounters, cmdMbxCounters), (.profileSave, cmdProfileSave),
      (.profileSelect, cmdProfileSelect), (.profileErase, cmdProfileErase), (.profileList, cmdProfileList), (.leaseAcquire, cmdAcquire), (.leaseRelease, cmdRelease),
      (.leaseRenew, cmdRenew), (.leaseDiscard, cmdDiscard), (.leaseStatus, cmdLeaseStatus), (.updateBegin, cmdUpdBegin), (.updateChunk, cmdUpdChunk),
      (.updateVerify, cmdUpdVerify), (.updateCommit, cmdUpdCommit), (.updateActivate, cmdUpdActivate), (.updateStatus, cmdUpdStatus), (.cutterModeSet, cmdModeSet),
      (.cutterRun, cmdRun), (.cutterRegionSet, cmdCutRegionSet), (.cutterEntryGet, cmdEntryGet), (.cutterInputsGet, cmdInputsGet), (.cutterStatus, cmdCutStatus)] ++
    [(.cutterCounters, cmdCutCounters), (.correctionRegionSet, cmdCorrRegionSet), (.correctionRegionGet, cmdCorrRegionGet), (.correctionCommit, cmdCommit),
      (.correctionSafeAlloc, cmdSafeAlloc), (.correctionSafeCommit, cmdSafeCommit), (.correctionSafeFree, cmdSafeFree), (.correctionStatus, cmdCorrStatus),
      (.correctionCounters, cmdCorrCounters)]

/-- Nothing but one gallery changed. -/
def OnlyGallery (g : GalIx) (b u : State) : Prop := (∀ h, h ≠ g → galAt u h = galAt b h) ∧ { u with gals := b.gals } = b

/-- Nothing changed but one gallery and what the block sends. -/
def GalleryAndSent (g : GalIx) (b u : State) : Prop := (∀ h, h ≠ g → galAt u h = galAt b h) ∧ { u with gals := b.gals, out := b.out } = b

/-- The correction store is in its one canonical form. -/
def StoreCanonical (s : State) : Prop := s.corr.wf = true

end Sys2Proof.Machine
end

