-- ==== Sys2Proof/Certificates/Slice0/Obligations.lean ====
section
/-! DEFINITION. The statements of this row, from the numbered rules of the spec. -/

open Sys2Proof Sys2Proof.Machine

/-! ## The machine as a whole -/

/-- The oldest waiting command is the one that runs, with the rest of the queue left waiting.
With no command waiting the block idles: nothing changes (the model's own choice, note 2). -/
def Obligations.StepRunsTheFrontCommand : Prop :=
  (∀ (c : Instr) (rest : List Instr) (s : State), step { s with pending := c :: rest } = exec c { s with pending := rest }) ∧
  (∀ s : State, s.pending = [] → step s = .next s)

/-- Every command runs: whatever it is and whatever the state, a step answers a next state.
Before anything has fallen due, a command begins with the time advanced and the last outputs cleared, and nothing else; where no armed trigger fired, what
follows its effect changes only the record of attention of port M.
The model's own choices that it rests on: log entries 1, 3, 43, 107. -/
def Obligations.EveryCommandAnswersInItsFrame : Prop :=
  (∀ s : State, Safe s) ∧
  ((∀ (t : Nat) (s : State), (∀ x ∈ dues s, t < x.1) → begin t s = { s with out := [], now := max s.now t }) ∧
   (∀ u : State, u.diag.fired = false → ∃ c sf st bu,
     finish u = { u with portM := { u.portM with causes := c, lastSafety := sf, lastState := st, lastBusy := bu } }))

/-- What reset leaves, of what the spec gives: in BOOT with the sequencer still to run and the Mezzanine off (R34, R456), no gallery in service, every tread setting at its reset value (R157),
quotas of R200, no lease held, no lock-out, no trip, no counter above 0, an empty routing table (R312), nothing queued and nothing sent.
The model's own choices that it rests on: log entry 8. -/
def Obligations.ResetLeavesWhatTheSpecGives : Prop :=
  let s := State.reset
  inBoot s = true ∧ s.power.seqDone = false ∧ s.frz.on = false ∧ s.mez.run = .off ∧
  (∀ g, (galAt s g).rx.ts ≠ .active ∧ (galAt s g).tx.ts ≠ .active) ∧
  (∀ g, (galSet s g).quotas = ⟨1024, 256, 128, 128⟩ ∧ (galSet s g).floor = 2 ∧ (galSet s g).txCeil = 5 ∧ (galSet s g).rxCeil = 5) ∧
  (∀ d, (leaseAt s d).holder = none) ∧ s.safety.grpLock = [] ∧ s.safety.devLock = none ∧ s.safety.reg = [] ∧
  (∀ id g lane inst, ctrAt s id g lane inst = 0) ∧ s.live.routes = [] ∧ s.corr.cells = [] ∧ s.log.staging = [] ∧ s.out = [] ∧ s.pending = []

/-- The store is canonical at reset.
The model's own choices that it rests on: log entry 20. -/
def Obligations.ResetStoreIsCanonical : Prop := StoreCanonical State.reset

/-- Every step keeps the correction store in its canonical form: addresses rising, all within its 64 MiB, and no byte listed that equals what its unit reads as.
The model's own choices that it rests on: log entry 20. -/
def Obligations.EveryStepKeepsTheStoreCanonical : Prop := ∀ s t : State, StoreCanonical s → step s = .next t → StoreCanonical t

/-- A byte written to the store reads back and leaves every other byte as it was; a byte never written reads as the background of its unit. -/
def Obligations.StoreReadsWhatWasWritten : Prop :=
  ∀ (c : Correction) (a x : Nat) (b : Byte), c.wf = true → a < 67108864 →
    (putByte a b c).wf = true ∧ storeByte (putByte a b c) x = (if x = a then b else storeByte c x) ∧
    (mget? c.cells x = none → storeByte c x = background (fillAt c x) x)

/-- Every hop-control block decodes to itself from the block it is encoded in, with every field at every value. -/
def Obligations.HopBlocksDecodeToThemselves : Prop := ∀ h : Hop, decodeHop (encodeHop h) = some h

/-- Every parcel comes back from its bytes.
Cut marks, gaps, basting and tack blocks are sorted as what they are, with every field at every value. -/
def Obligations.ParcelsAndStreamBlocksDecodeToThemselves : Prop :=
  (∀ (p : Parcel), p.payload.length % 4 = 0 → p.payload.length = pLength p → parcelOf (parcelBytes p) p.poisoned = some p) ∧
  ((∀ c : CutMark, blkKind (cutBlk c) = .cut c) ∧ (∀ b : Gap, blkKind (gapBlk b) = .gap b) ∧ (∀ v : BitVec 48, blkKind (bastingBlk v) = .basting v) ∧
   (∀ (p : BitVec 3) (q : BitVec 10) (n : BitVec 8), tackOf (tackBlk p q n) = some (q.toNat, n.toNat)))

/-- A descrambler with the scrambler's history gives back every block, and ends with the scrambler's history; the sync header passes as it is. -/
def Obligations.DescramblingUndoesScrambling : Prop :=
  ∀ (h : BitVec 58) (b : Block), descrambleBlk h (scrambleBlk h b).2 = ((scrambleBlk h b).1, b) ∧ blkHdr (scrambleBlk h b).2 = blkHdr b

/-- Words written out from the spec: the check value of R188, the idle block of R91, ECHO with its CRC-8, a cut mark. -/
def Obligations.WireWordsAreRight : Prop :=
  crc32c [0x31#8, 0x32#8, 0x33#8, 0x34#8, 0x35#8, 0x36#8, 0x37#8, 0x38#8, 0x39#8] = 0xE3069283#32 ∧
  blkBytes idleBlk = [0x1E#8, 0#8, 0#8, 0#8, 0#8, 0#8, 0#8, 0#8] ∧
  blkBytes (encodeHop (.echo 0x01#8)) = [0x2D#8, 0x34#8, 0x01#8, 0#8, 0#8, 0#8, 0#8, crc8 [0x2D#8, 0x34#8, 0x01#8, 0#8, 0#8, 0#8, 0#8]] ∧
  decodeHop (mkChecked [0x2D#8, 0x30#8, 0x23#8, 0x61#8, 0x45#8, 0x0A#8, 0#8]) = some (.creditA 0x123#12 0x456#12 0xA#4) ∧
  (blkBytes (cutBlk { region := 0x123#12, uncorrected := true, substituted := false, frame := 0x0A0B0C#24, subframe := 5#4 })).take 7 =
    [0x66#8, 0x23#8, 0x11#8, 0x0C#8, 0x0B#8, 0x0A#8, 0x05#8]

/-! ## Mailbox commands: how every one is answered -/

/-- What answering a request changes: its host's response ring gains one frame, which carries the opcode, tag and number of the request, the status and the payload;
unless it was a dry run that frame is remembered; a response for the service host raises its cause of attention; and nothing else changes.
The model's own choices that it rests on: log entry 98. -/
def Obligations.AnsweringChangesOneRing : Prop :=
  ∀ (c : Cmd) (q : Req) (st : Nat) (p : List Byte) (s : State),
    let u := answer c q st p s
    let token := if c.op = 0x100 ∧ st = 0 ∧ q.dryRun = false then field p 0 4 else q.token.toNat
    let b := rspFrame c.op q.tag.toNat 0 st (hostCode q.host) token q.seq.toNat p
    let R : Response := { bytes := b, src := q.src, at_ := s.now }
    ringAt u q.host = { ringAt s q.host with rsps := (ringAt s q.host).rsps ++ [R], dup := if q.dryRun then (ringAt s q.host).dup else some (q.seq, R) } ∧
    (∀ h, hostIx h ≠ hostIx q.host → ringAt u h = ringAt s h) ∧
    u.portM.causes = (if q.host = .service then s.portM.causes ||| 1#5 else s.portM.causes) ∧
    { u with mbx := { u.mbx with rings := s.mbx.rings }, portM := { u.portM with causes := s.portM.causes } } = s

/-- The order of the firmware's checks: a request without the lease it needs, or beyond its debug level, is refused with the code of that step; one that passes it
but has a payload of a wrong length, or is staged where it may not be, is BAD_ARG. A refusal counts at most a violation, and changes nothing but by that and by its answer.
Without the lease of its domain a command of a host is NOT_OWNER, and the violation is counted unless it was a dry run.
The model's own choices that it rests on: log entries 74, 98, 101, 102. -/
def Obligations.ChecksRefuseInOrder : Prop :=
  (∀ (c : Cmd) (t : Nat) (q : Req) (s : State), Fresh t q s →
     let r := ready c t q s
     (leaseStep c q r ≠ 0 → command t c q s = .next (finish (answer c q (leaseStep c q r) [] (countRefusal c (leaseStep c q r) q r)))) ∧
     (leaseStep c q r = 0 → shapeStep c q ≠ 0 → shapeStep c q = 3 ∧ command t c q s = .next (finish (answer c q 3 [] r)))) ∧
  (∀ (c : Cmd) (t : Nat) (q : Req) (s : State) (d : Nat), Fresh t q s → c.need = .dom d → q.host ≠ .debug →
     needsDomain c q (ready c t q s) = true → holds (ready c t q s) (holderOf q.host q.src) d = false →
     command t c q s = .next (finish (answer c q 2 [] (if q.dryRun then ready c t q s else countDev 0xB01 0 (ready c t q s)))))

/-- A request whose number is that of its ring's last answer is answered from memory with the flag `repeated`, is counted, and does nothing else.
A dry run that has passed the checks answers with the status its work would have and changes nothing but by that answer.
Every mailbox command with any values in its payload, bad ones too: one that passes the checks answers with the status and payload of its own work and has its effect, or waits as
long as it says; one that is staged does its own checks and is held, without its effect, as a change of its token, with 64 held already NO_CAPACITY, and with a status other than OK
that status. Every command of the interface has such a row.
The model's own choices that it rests on: log entries 99, 100, 130. -/
def Obligations.RepeatsAndDryRunsChangeNothing : Prop :=
  (∀ (c : Cmd) (t : Nat) (q : Req) (s : State) (R : Response), canTake q.host (begin t s) = true → fwRuns (begin t s) = true →
     (ringAt (begin t s) q.host).dup = some (q.seq, R) →
     command t c q s = .next (finish (pushRsp q.host q.src (withFlags R.bytes (frFlags R.bytes ||| 4)) (countDev 0x103 (cmdRing q.host) (taken t s))))) ∧
  (∀ (c : Cmd) (t : Nat) (q : Req) (s : State), Fresh t q s → leaseStep c q (ready c t q s) = 0 → shapeStep c q = 0 →
     q.stage = false → q.dryRun = true →
     command t c q s = .next (finish (answer c q (c.body q (ready c t q s)).status [] (ready c t q s)))) ∧
  ((∀ c ∈ allCmds, ∃ e ∈ mailboxRows, e.2.op = c.op) ∧
   ∀ e ∈ mailboxRows, ∀ (t : Nat) (q : Req) (s : State), let c := e.2; let r := ready c t q s
     (Passes c t q s →
       (∀ st p u, c.body q r = .done st p u → Gives (e.1 t q) s (answer c q st p u)) ∧
       (∀ limit u, c.body q r = .wait limit u → Gives (e.1 t q) s (modRing q.host (fun x =>
         { x with wait := some { op := c.op, req := q, at_ := r.now, due := r.now + limit * slower r, mark := r.mbx.frame } }) u))) ∧
     (Fresh t q s → leaseStep c q r = 0 → shapeStep c q = 0 → q.stage = true →
       let held := r.mbx.staged.filter fun x => x.token == q.token
       (64 ≤ held.length → Gives (e.1 t q) s (answer c q 7 [] r)) ∧
       (held.length < 64 → (c.body q r).status ≠ 0 → Gives (e.1 t q) s (answer c q (c.body q r).status [] r)) ∧
       (held.length < 64 → (c.body q r).status = 0 → Gives (e.1 t q) s (answer c q 0 []
         (if q.dryRun then r else { r with mbx := { r.mbx with staged := r.mbx.staged ++ [{ token := q.token, op := c.op, req := q }] } })))))

/-! ## Mailbox commands by family -/

/-- `system.info`, `system.status`, `profile.list`, `lease.status`, `power.status` and `clock.status` answer with the state they find and change nothing.
`system.reset` answers OK and the reset falls due 1 ms later; profiles are saved, selected and erased in MRAM, and nothing else changes.
The model's own choices that it rests on: log entries 59, 60, 65, 98. -/
def Obligations.SystemAndProfileCommands : Prop :=
  (∀ (t : Nat) (q : Req) (s : State),
     (Passes cmdInfo t q s → let r := ready cmdInfo t q s
       Replies (.systemInfo t q) cmdInfo t q s (leBytes 4 (levelNow r) ++ leBytes 8 r.otp.serial.toNat ++ leBytes 1 2 ++ leBytes 1 (lifecycle r.otp) ++
         leBytes 1 (deviceState r) ++ leBytes 1 (powerCode r) ++ leBytes 1 r.power.sampled.bootMode.toNat ++ leBytes 1 (r.mez.slot.getD 0xFF) ++
         leBytes 1 r.dbg.level ++ leBytes 1 0 ++ leBytes 2 r.live.node.toNat ++ leBytes 2 0 ++ leBytes 4 0x2A7C4E3B ++ leBytes 4 r.mram.bootCount.toNat) id) ∧
     (Passes cmdStatus t q s → Replies (.systemStatus t q) cmdStatus t q s (slice (quick (ready cmdStatus t q s)) 8 36) id) ∧
     (Passes cmdProfileList t q s → Replies (.profileList t q) cmdProfileList t q s ((List.range 4).flatMap fun n =>
       let p := (ready cmdProfileList t q s).mram.profiles.toList.getD n {}
       leBytes 1 (b2n p.valid) ++ leBytes 1 (b2n ((ready cmdProfileList t q s).mram.selected == some n)) ++ leBytes 2 0 ++ leBytes 4 (if p.valid then p.level.toNat else 0)) id) ∧
     (Passes cmdLeaseStatus t q s → let r := ready cmdLeaseStatus t q s
       Replies (.leaseStatus t q) cmdLeaseStatus t q s ((List.range 15).flatMap fun d =>
         holderBytes r d ++ leBytes 4 (if (leaseAt r d).holder.isSome then ((leaseAt r d).renewed + 10000000000 - r.now) / 1000000 else 0)) id) ∧
     (Passes cmdPowerStatus t q s → let r := ready cmdPowerStatus t q s
       Replies (.powerStatus t q) cmdPowerStatus t q s (leBytes 1 (powerCode r) ++ leBytes 1 (b2n r.power.brownout.isSome) ++ leBytes 2 0 ++
         leBytes 4 (min ((r.now - r.power.since) / 1000000) (2 ^ 32 - 1))) id) ∧
     (Passes cmdClockStatus t q s → let r := ready cmdClockStatus t q s
       Replies (.clockStatus t q) cmdClockStatus t q s (leBytes 4 (enableWord r).toNat ++ leBytes 4 0 ++ r.clocks.meters.toList.flatMap fun m => leBytes 4 m.toNat) id)) ∧
  (∀ (t : Nat) (q : Req) (s : State),
     (Passes cmdReset t q s → arg q 0 1 = 1 →
       Replies (.systemReset t q) cmdReset t q s [] fun r => modPower (fun p => { p with resetDue := some (r.now + 1000000) }) r) ∧
     (Passes cmdProfileSave t q s → arg q 0 1 < 4 → mramBusy (ready cmdProfileSave t q s) = false →
       Replies (.profileSave t q) cmdProfileSave t q s [] fun r => modMram (fun m =>
         { m with profiles := Vector.ofFn fun k => if k.val = arg q 0 1 then { valid := true, level := r.mez.level, live := r.live } else m.profiles[k] }) r) ∧
     (Passes cmdProfileSelect t q s → arg q 0 1 < 4 → ((ready cmdProfileSelect t q s).mram.profiles.toList.getD (arg q 0 1) {}).valid = true →
       Replies (.profileSelect t q) cmdProfileSelect t q s [] (modMram fun m => { m with selected := some (arg q 0 1) })) ∧
     (Passes cmdProfileSelect t q s → arg q 0 1 = 0xFF →
       Replies (.profileSelect t q) cmdProfileSelect t q s [] (modMram fun m => { m with selected := none })) ∧
     (Passes cmdProfileErase t q s → arg q 0 1 < 4 → mramBusy (ready cmdProfileErase t q s) = false →
       Replies (.profileErase t q) cmdProfileErase t q s [] (modMram fun m =>
         { m with profiles := Vector.ofFn fun k => if k.val = arg q 0 1 then {} else m.profiles[k], selected := if m.selected = some (arg q 0 1) then none else m.selected })))

/-- `lease.acquire` takes every domain it names where no other holder has one, and answers with the caller's token and all it then holds, else NOT_OWNER with the domains that
others hold and their holders, and takes none;
`lease.release` ends those of the domains named that the caller holds; `lease.renew` starts their 10 s anew where the caller holds all it names; `lease.discard` drops the caller's
staged changes and answers with how many there were.
The model's own choices that it rests on: log entries 10, 98, 101. -/
def Obligations.LeaseCommands : Prop :=
  ∀ (t : Nat) (q : Req) (s : State), let w := holderOf q.host q.src
    (Passes cmdAcquire t q s → let r := ready cmdAcquire t q s
      arg q 0 2 % 0x8000 ≠ 0 → (∀ d ∈ domains (arg q 0 2 % 0x8000), (leaseAt r d).holder = none ∨ holds r w d = true) →
      let u := forAll (domains (arg q 0 2 % 0x8000)) (takeDomain w (pathGal q)) (giveToken w r)
      Replies (.leaseAcquire t q) cmdAcquire t q s (leBytes 4 ((tokenOf u w).getD 0#32).toNat ++ leBytes 2 (heldMap u w)) (fun _ => u)) ∧
    (Passes cmdAcquire t q s → arg q 0 2 % 0x8000 ≠ 0 →
      (∃ d ∈ domains (arg q 0 2 % 0x8000), (leaseAt (ready cmdAcquire t q s) d).holder ≠ none ∧ holds (ready cmdAcquire t q s) w d = false) →
      let r := ready cmdAcquire t q s
      let l := (domains (arg q 0 2 % 0x8000)).filter fun d => (leaseAt r d).holder.isSome && !holds r w d
      Gives (.leaseAcquire t q) s (answer cmdAcquire q 2 (leBytes 2 (l.foldl (fun a d => a + 2 ^ d) 0) ++ l.flatMap (holderBytes r)) r)) ∧
    (Passes cmdRelease t q s →
      let u := forAll (domains (arg q 0 2)) (fun d s => if holds s w d then endLease d none s else s) (ready cmdRelease t q s)
      Replies (.leaseRelease t q) cmdRelease t q s (leBytes 2 (heldMap u w)) fun _ => u) ∧
    (Passes cmdRenew t q s → (∀ d ∈ domains (arg q 0 2), holds (ready cmdRenew t q s) w d = true) →
      Replies (.leaseRenew t q) cmdRenew t q s (leBytes 2 (heldMap (ready cmdRenew t q s) w)) (forAll (domains (arg q 0 2)) renewLease)) ∧
    (Passes cmdDiscard t q s → let st := (ready cmdDiscard t q s).mbx.staged
      Replies (.leaseDiscard t q) cmdDiscard t q s (leBytes 1 (st.filter fun e => e.token == q.token).length) fun r =>
        { r with mbx := { r.mbx with staged := st.filter fun e => e.token != q.token } })

/-- The commands that read counters answer with how many records there are, in the layout of R372 from the record asked for on, up to 83; with `clear` set they clear exactly the
counters they report, else they change nothing; `security.violations` clears nothing even when asked to. `diag.counters_clear` leaves no counter but those of violations.
The model's own choices that it rests on: log entry 98. -/
def Obligations.CounterReports : Prop :=
  ∀ (t : Nat) (q : Req) (s : State),
    let block := fun (n : Nat) (l : List (Nat × Nat × Nat)) =>
      let part := (l.drop (arg q 4 2)).take 83
      leBytes 2 n ++ leBytes 2 (if arg q 4 2 + part.length < n then arg q 4 2 + part.length else 0xFFFF) ++ leBytes 4 0 ++ part.flatMap fun e =>
        leBytes 2 e.1 ++ leBytes 1 e.2.1 ++ leBytes 1 (ctrWidth e.1) ++ leBytes 8 e.2.2
    let ids := fun (rows : List CtrRow) => rows.flatMap fun x => x.2.map fun i => (x.1, i)
    let clear := fun (keys : List Nat) (r : State) => if bitOf (arg q 2 1) 0 then clearCtrs ((keys.drop (arg q 4 2)).take 83) r else r
    let counters := fun (rows : List CtrRow) (home : Nat → Nat) (lane : Nat) (i : Instr) (c : Cmd) =>
      let r := ready c t q s
      Replies i c t q s (block (ids rows).length ((ids rows).map fun x => (x.1, x.2, ctrAt r x.1 (home x.1) lane x.2)))
        (clear ((ids rows).map fun x => ctrKey x.1 (home x.1) lane x.2))
    let dev := fun (rows : List CtrRow) (i : Instr) (c : Cmd) => Passes c t q s → counters rows (fun _ => 0) 0 i c
    dev mbxRows (.mbxCounters t q) cmdMbxCounters ∧ dev cutRows (.cutterCounters t q) cmdCutCounters ∧
    dev corrRows (.correctionCounters t q) cmdCorrCounters ∧ dev safetyRows (.safetyCounters t q) cmdSafetyCounters ∧
    dev bridgeRows (.bridgeCounters t q) cmdBridgeCounters ∧ dev ((List.range 5).map fun k => (0x901 + k, [0])) (.twCounters t q) cmdTwCounters ∧
    dev powerRows (.powerCounters t q) cmdPowerCounters ∧
    (arg q 0 1 < 8 → arg q 1 1 ≤ 8 → Passes cmdLaneCounters t q s →
      counters laneRows (fun _ => arg q 0 1) (arg q 1 1) (.laneCounters t q) cmdLaneCounters) ∧
    (arg q 0 1 < 8 → Passes cmdGalCounters t q s →
      counters galRows (fun id => if id = 0x43B then 0 else arg q 0 1) 0 (.galleryCounters t q) cmdGalCounters) ∧
    (Passes cmdViolations t q s → let r := ready cmdViolations t q s
      Replies (.securityViolations t q) cmdViolations t q s
        (block (ids violationRows).length ((ids violationRows).map fun x => (x.1, x.2, ctrAt r x.1 0 0 x.2))) id) ∧
    (Passes cmdCountersClear t q s → ∃ u, Replies (.diagCountersClear t q) cmdCountersClear t q s [] (fun r => { r with ctr := u }) ∧
      ∀ e ∈ u, 0xB01 ≤ e.1 / 32768 ∧ e.1 / 32768 ≤ 0xB05)

/-- `gallery.provision`, `gallery.idle`, `gallery.credit_set`, `lane.eq_set`, `lane.tx_set` and `gallery.train_set` set, on the gallery that byte 0 names, the settings their
bytes give and no others; `gallery.idle` also applies its mask at once.
The model's own choices that it rests on: log entries 74, 98. -/
def Obligations.GallerySettingCommands : Prop :=
  ∀ (t : Nat) (q : Req) (s : State) (g : GalIx), arg q 0 1 = g.val →
    (Passes cmdProvision t q s → arg q 1 1 ≤ 1 →
      Replies (.galleryProvision t q) cmdProvision t q s [] (modSet g fun x => { x with prov := arg q 1 1 == 1 })) ∧
    (Passes cmdIdle t q s → let r := ready cmdIdle t q s
      maskOk (galAt r g) (BitVec.ofNat 8 (arg q 1 1)) (bitOf (arg q 2 1) 0) = true → (galAt r g).off = false → (galAt r g).lost = none →
      Replies (.galleryIdle t q) cmdIdle t q s [] fun r => r
        |> modSet g (fun x => { x with idleMask := BitVec.ofNat 8 (arg q 1 1), stopClock := bitOf (arg q 2 1) 0 })
        |> applyMask g (BitVec.ofNat 8 (arg q 1 1)) (bitOf (arg q 2 1) 0)
        |> notePower r) ∧
    (Passes cmdCreditSet t q s → arg q 1 1 ≤ 1 → (∀ k, 20 ≤ cget (quotasAt q 4) k ∧ cget (quotasAt q 4) k ≤ 1476) →
      arg q 4 2 + arg q 6 2 + arg q 8 2 + arg q 10 2 = 1536 →
      Replies (.galleryCreditSet t q) cmdCreditSet t q s [] (modSet g fun x =>
        { x with lending := arg q 1 1 == 1, quotas := ⟨arg q 4 2, arg q 6 2, arg q 8 2, arg q 10 2⟩ })) ∧
    (Passes cmdEqSet t q s → eqArgs q = true →
      Replies (.laneEqSet t q) cmdEqSet t q s [] (modLaneSet g (laneOf (arg q 1 1)) fun x =>
        { x with mode := modeOf (arg q 2 1), vgaHold := bitOf (arg q 3 1) 0, polAuto := bitOf (arg q 3 1) 1, polInvert := bitOf (arg q 3 1) 2,
                 ctle := BitVec.ofNat 8 (arg q 4 1), taps := slice q.payload 5 12, fpos := slice q.payload 17 4, fval := slice q.payload 21 4 })) ∧
    (Passes cmdTxSet t q s → txArgs q = true → arg q 1 1 ≠ 0xFF → ∃ new : List Nat → List Nat,
      Replies (.laneTxSet t q) cmdTxSet t q s [] (fun r => r
        |> modSet g (fun x => { x with presets := new x.presets })
        |> modLaneSet g (laneOf (arg q 1 1)) fun x =>
            { x with coef := if bitOf (arg q 2 1) 0 then some ⟨argS q 4, argS q 5, argS q 6, argS q 7⟩ else none, swing := BitVec.ofNat 8 (arg q 3 1) }) ∧
      ∀ (old : List Nat) (k : Nat), k < 6 → (new old).getD k 0 = if arg q (8 + k) 1 = 0xFF then old.getD k 0 else arg q (8 + k) 1) ∧
    (Passes cmdTxSet t q s → txArgs q = true → arg q 1 1 = 0xFF → ∃ new : List Nat → List Nat,
      Replies (.laneTxSet t q) cmdTxSet t q s [] (modSet g fun x => { x with presets := new x.presets }) ∧
      ∀ (old : List Nat) (k : Nat), k < 6 → (new old).getD k 0 = if arg q (8 + k) 1 = 0xFF then old.getD k 0 else arg q (8 + k) 1) ∧
    (Passes cmdTrainSet t q s → arg q 1 1 ≤ 5 → arg q 2 1 ≤ 5 → 2 ≤ arg q 4 1 → arg q 4 1 ≤ 8 →
      Replies (.galleryTrainSet t q) cmdTrainSet t q s [] (modSet g fun x =>
        { x with txCeil := treadOf (arg q 1 1), rxCeil := treadOf (arg q 2 1), t3fec := bitOf (arg q 3 1) 0, stepDown := bitOf (arg q 3 1) 1,
                 reclimb := bitOf (arg q 3 1) 2, floor := arg q 4 1 }))

/-- `gallery.status`, `gallery.credit_get`, `lane.eq_get` and `gallery.train_status` answer with what the gallery that byte 0 names shows, and change nothing; the landing number
and the flight time of a South gallery are those of the North gallery whose flight it carries.
`gallery.reset` resets the gallery that byte 0 names; of the caller's own path it does so only by force, after dropping the caller's leases over that gallery, and is NOT_IN_STATE
without. A gallery reset has empty queues, and is OFF where it is not provisioned, in DETECT where it is and its side does not wait for a reference. `gallery.retrain` FULL trains
the gallery anew; STEP of a direction that is ACTIVE, to a tread it may run at, steps the transmit direction, or asks the far end to step the receive direction; on a gallery that is
OFF, lost or held, or of a direction that is not ACTIVE, it is NOT_IN_STATE.
The model's own choices that it rests on: log entries 57, 98, 103, 123, 129, 137. -/
def Obligations.GalleryReportsAndActions : Prop :=
  (∀ (t : Nat) (q : Req) (s : State) (g : GalIx), arg q 0 1 = g.val →
     (Passes cmdGalStatus t q s → let G := galAt (ready cmdGalStatus t q s) g
       Replies (.galleryStatus t q) cmdGalStatus t q s (leBytes 1 (galleryByte (ready cmdGalStatus t q s) g) ++ leBytes 1 G.rx.active.toNat ++
         leBytes 1 G.tx.active.toNat ++ leBytes 1 0 ++ allLanes.flatMap (fun l => leBytes 4 (laneWord G l)) ++ leBytes 4 (clockWord G) ++
         leBytes 2 G.side1.toNat ++ leBytes 2 G.side2.toNat) id) ∧
     (Passes cmdCreditGet t q s → let G := galAt (ready cmdCreditGet t q s) g
       let x := galSet (ready cmdCreditGet t q s) g
       Replies (.galleryCreditGet t q) cmdCreditGet t q s
         (classes.flatMap (fun k => leBytes 2 (cget G.crx.quotas k)) ++ classes.flatMap (fun k => leBytes 2 (cget x.quotas k)) ++
           leBytes 1 (b2n G.crx.lending + 2 * b2n x.lending) ++ List.replicate 3 0#8 ++
           classes.flatMap (fun k => leBytes 2 (allowance G.crx k) ++ leBytes 2 (cget G.crx.limit k) ++ leBytes 4 (commitment G.crx k).toNat) ++
           leBytes 2 G.ctx.farQuotaPx ++ leBytes 2 G.ctx.farReachPx ++ leBytes 4 G.ctx.rtt ++ leBytes 4 G.capTx ++ leBytes 4 G.capRx) id) ∧
     (Passes cmdEqGet t q s → arg q 1 1 < 8 → let l := laneOf (arg q 1 1)
       let x := (galSet (ready cmdEqGet t q s) g).lanes[l]
       let v := (laneAt (ready cmdEqGet t q s) g l).live
       Replies (.laneEqGet t q) cmdEqGet t q s (leBytes 1 g.val ++ leBytes 1 l.val ++ leBytes 1 (modeCode x.mode) ++
         leBytes 1 (b2n x.vgaHold + 2 * b2n x.polAuto + 4 * b2n x.polInvert) ++ [x.ctle] ++ fit 12 x.taps ++ fit 4 x.fpos ++ fit 4 x.fval ++
         List.replicate 3 0#8 ++ leBytes 1 v.ctle ++ [v.vga] ++ fit 12 (v.taps.map ibyte) ++ fit 4 (v.fpos.map (BitVec.ofNat 8)) ++
         fit 4 (v.fval.map ibyte) ++ leBytes 1 v.phase ++ leBytes 1 0) id) ∧
     (Passes cmdTrainStatus t q s → let G := galAt (ready cmdTrainStatus t q s) g
       let N := galAt (ready cmdTrainStatus t q s) (flightOf (ready cmdTrainStatus t q s) g)
       Replies (.galleryTrainStatus t q) cmdTrainStatus t q s (leBytes 4 (rxWord G) ++ leBytes 4 (txWord G) ++ farBytes G ++
         leBytes 1 (N.landing.getD 0xFF) ++ leBytes 1 0 ++ leBytes 2 N.flight.toNat) id)) ∧
  (∀ (t : Nat) (q : Req) (s : State) (g : GalIx), arg q 0 1 = g.val →
     (Passes cmdGalReset t q s → pathGal q ≠ some g.val → Replies (.galleryReset t q) cmdGalReset t q s [] (resetGallery g)) ∧
     (Passes cmdGalReset t q s → pathGal q = some g.val → bitOf (arg q 1 1) 0 = true → Replies (.galleryReset t q) cmdGalReset t q s [] fun r =>
       resetGallery g (endLeases (fun l => l.holder == some (holderOf q.host q.src) && l.gallery == some g.val) (some 2) r)) ∧
     (Passes cmdGalReset t q s → pathGal q = some g.val → bitOf (arg q 1 1) 0 = false →
       Gives (.galleryReset t q) s (answer cmdGalReset q 0x0A [] (ready cmdGalReset t q s))) ∧
     (∀ r : State, (galSet r g).prov = false →
       let G := galAt (resetGallery g r) g
       G.off = true ∧ G.rx.ts = .reset ∧ G.tx.ts = .reset ∧ G.egress = ⟨[], [], [], []⟩ ∧ G.bobbin = ⟨[], [], [], []⟩) ∧
     (∀ r : State, (galSet r g).prov = true → r.clocks.sides[sideOf g].waiting = false →
       let G := galAt (resetGallery g r) g
       G.off = false ∧ G.rx.ts = .detect ∧ G.tx.ts = .detect ∧ G.egress = ⟨[], [], [], []⟩ ∧ G.bobbin = ⟨[], [], [], []⟩) ∧
     (Passes cmdRetrain t q s → let G := galAt (ready cmdRetrain t q s) g
       arg q 1 1 ≤ 1 → arg q 2 1 ≤ 1 → arg q 3 1 ≤ 5 →
       (G.off = false → G.lost = none → G.held = false →
         (arg q 1 1 = 0 → Replies (.galleryRetrain t q) cmdRetrain t q s [] (orderFull g)) ∧
         (arg q 1 1 = 1 → arg q 2 1 = 1 → G.tx.ts = .active → arg q 3 1 ≤ (G.tx.target.getD 5).val →
           Replies (.galleryRetrain t q) cmdRetrain t q s [] (orderStep g (arg q 3 1))) ∧
         (arg q 1 1 = 1 → arg q 2 1 = 0 → G.rx.ts = .active → arg q 3 1 ≤ (G.rx.target.getD 5).val →
           Replies (.galleryRetrain t q) cmdRetrain t q s [] (requestStep g (arg q 3 1) 2)) ∧
         (arg q 1 1 = 1 → (if arg q 2 1 = 1 then G.tx.ts ≠ .active else G.rx.ts ≠ .active) →
           Gives (.galleryRetrain t q) s (answer cmdRetrain q 0x0A [] (ready cmdRetrain t q s)))) ∧
       ((G.off = true ∨ G.lost.isSome = true ∨ G.held = true) →
         Gives (.galleryRetrain t q) s (answer cmdRetrain q 0x0A [] (ready cmdRetrain t q s)))))

/-- `cutter.mode_set` to the mode in force changes nothing, to MANUAL it sets the mode, to AUTO it also starts a run, to OFF it also writes STRAIGHT entries; `cutter.run` starts a
run where one may be made, and is NOT_IN_STATE where not; `cutter.region_set` sets the settings of one region, and in AUTO a change starts a run; `cutter.entry_get`,
`cutter.inputs_get` and `cutter.status` report and change nothing, but that the reading of an entry finds a bad copy of it.
The model's own choices that it rests on: log entries 55, 83, 98. -/
def Obligations.CutterCommands : Prop :=
  ∀ (t : Nat) (q : Req) (s : State),
    (Passes cmdModeSet t q s → let r := ready cmdModeSet t q s
      straightOnly r = false → gateOn r 17 = true → arg q 0 1 ≤ 2 →
      (cutModeOf (arg q 0 1) = r.live.cutMode → Replies (.cutterModeSet t q) cmdModeSet t q s [] id) ∧
      (arg q 0 1 = 2 → Replies (.cutterModeSet t q) cmdModeSet t q s [] (modLive fun v => { v with cutMode := .manual })) ∧
      (arg q 0 1 = 1 → r.live.cutMode ≠ .automatic →
        Replies (.cutterModeSet t q) cmdModeSet t q s [] fun r => startRun (modLive (fun v => { v with cutMode := .automatic }) r)) ∧
      (arg q 0 1 = 0 → r.live.cutMode ≠ .off →
        Replies (.cutterModeSet t q) cmdModeSet t q s [] fun r => modeOff (modLive (fun v => { v with cutMode := .off }) r))) ∧
    (Passes cmdRun t q s → let r := ready cmdRun t q s
      straightOnly r = false → gateOn r 17 = true →
      (mayRun r = true → Replies (.cutterRun t q) cmdRun t q s [] startRun) ∧
      (mayRun r = false → Gives (.cutterRun t q) s (answer cmdRun q 0x0A [] r))) ∧
    (Passes cmdCutRegionSet t q s → let r := ready cmdCutRegionSet t q s
      let put := modLive fun v => { v with regions := mset {} v.regions (arg q 0 2 % 4096) (regionSetOf q) }
      regionSetOk q = true → straightOnly r = false →
      ((r.live.cutMode ≠ .automatic ∨ regionSetOf q = mget {} r.live.regions (arg q 0 2 % 4096)) →
        Replies (.cutterRegionSet t q) cmdCutRegionSet t q s [] put) ∧
      (r.live.cutMode = .automatic → regionSetOf q ≠ mget {} r.live.regions (arg q 0 2 % 4096) →
        Replies (.cutterRegionSet t q) cmdCutRegionSet t q s [] fun r => startRun (put r))) ∧
    (Passes cmdEntryGet t q s → 1 ≤ arg q 2 2 → arg q 2 2 ≤ 27 → arg q 0 2 % 4096 + arg q 2 2 ≤ 4096 →
      let x := (List.range (arg q 2 2)).foldl (fun (a : List Byte × State) k =>
        let y := entryRecord (arg q 0 2 % 4096 + k) a.2
        (a.1 ++ y.1, y.2)) ([], ready cmdEntryGet t q s)
      Replies (.cutterEntryGet t q) cmdEntryGet t q s (leBytes 2 (arg q 0 2 % 4096) ++ leBytes 2 (arg q 2 2) ++ x.1) fun _ => x.2) ∧
    (Passes cmdInputsGet t q s → let r := ready cmdInputsGet t q s
      let n := arg q 0 2 % 4096
      let x := regionIn r n
      let groups := (groupsOf x.claims (bitmap ((allGals.filter (galActive r)).map (·.val))) 0).filter (·.2.isSome)
      Replies (.cutterInputsGet t q) cmdInputsGet t q s (((List.range 4).flatMap fun g => match mget? x.ann g with
          | some a => annBytes n a a.correct false
          | none => List.replicate 16 0#8) ++
        leBytes 1 (((List.range 4).map fun g => b2n (mget? x.ann g).isSome * 2 ^ g).foldl (· + ·) 0) ++ leBytes 1 (min groups.length 78) ++
        leBytes 1 (b2n (decide (groups.length > 78))) ++ leBytes 1 0 ++ (groups.take 78).flatMap groupBytes) id) ∧
    (Passes cmdCutStatus t q s → let r := ready cmdCutStatus t q s
      let c := r.cutter
      Replies (.cutterStatus t q) cmdCutStatus t q s
        (leBytes 1 (cutModeCode r.live.cutMode) ++ leBytes 1 (b2n c.running.isSome + 2 * b2n c.copyA.fenced + 4 * b2n c.copyB.fenced) ++ leBytes 2 0 ++
          (List.range 4).flatMap (fun k => leBytes 2 (c.freeS.getD k 0)) ++ (List.range 8).flatMap (fun k => leBytes 4 (c.freePipe.getD k 0)) ++
          leBytes 2 c.freeStore ++ leBytes 2 0 ++ leBytes 4 (ctrAt r 0x501 0 0 0)) id)

/-- The commands on corrections and safe images: the mode is set; a commit and a safe commit put their mark, at the place of their frame in the order of arrival, into the store's
queue and wait for it; a safe image is allocated in the smallest free extent that holds it, with its event, is status 7 where none does, and is freed, a frame of
it in progress black from its next line; the two reports change nothing.
The model's own choices that it rests on: log entries 56, 82, 98, 136. -/
def Obligations.CorrectionCommands : Prop :=
  ∀ (t : Nat) (q : Req) (s : State), let n := arg q 0 2 % 4096
    (Passes cmdCorrRegionSet t q s → arg q 2 1 ≤ 1 → straightOnly (ready cmdCorrRegionSet t q s) = false →
      Replies (.correctionRegionSet t q) cmdCorrRegionSet t q s [] (modLive fun v => { v with appMode := mset false v.appMode n (arg q 2 1 == 1) })) ∧
    (Passes cmdCorrRegionGet t q s → let d := dirOf (ready cmdCorrRegionGet t q s) n
      Replies (.correctionRegionGet t q) cmdCorrRegionGet t q s (leBytes 4 (corrWord d) ++ leBytes 2 d.sBase ++ leBytes 2 d.sUnits ++ leBytes 2 d.sW ++
        leBytes 2 d.sH ++ leBytes 1 (safeCode d.sState) ++ List.replicate 3 0#8) id) ∧
    (Passes cmdCommit t q s → let r := ready cmdCommit t q s
      straightOnly r = false → r.corr.storeLost = false → engineOn r = true → mayCommit (dirOf r n) = true →
      (dirOf r n).commitPending = false → (dirOf r n).catching = false →
      Waits (.correctionCommit t q) cmdCommit t q s 100000000 fun r => r
        |> modDir n (fun d => { d with commitPending := true, drained := false, commitBase := (shownExt d).base })
        |> modCorr fun c => { c with queue := c.queue ++ [.commit n r.mbx.frame] }) ∧
    (Passes cmdSafeAlloc t q s → let r := ready cmdSafeAlloc t q s
      let units := ceilDiv (arg q 2 2 * arg q 4 2 * 6) 65536
      arg q 2 2 ≠ 0 → arg q 4 2 ≠ 0 → straightOnly r = false → r.corr.storeLost = false → r.cutter.running = none → (dirOf r n).sState = .none →
      (∀ b, bestFit (heldMask r ||| newMask r) units = some b →
        Replies (.correctionSafeAlloc t q) cmdSafeAlloc t q s (leBytes 2 b ++ leBytes 2 units) fun r => r
          |> modDir n (fun d => { d with sBase := b, sUnits := units, sW := arg q 2 2, sH := arg q 4 2, sState := .allocated })
          |> raiseRegion 0x0501 (BitVec.ofNat 12 n) (leBytes 2 n ++ leBytes 1 1 ++ leBytes 1 0 ++ leBytes 2 b ++ leBytes 2 units)) ∧
      (bestFit (heldMask r ||| newMask r) units = none → Gives (.correctionSafeAlloc t q) s (answer cmdSafeAlloc q 7 [] r))) ∧
    (Passes cmdSafeCommit t q s → let r := ready cmdSafeCommit t q s
      straightOnly r = false → r.corr.storeLost = false → (dirOf r n).sState ≠ .none →
      Waits (.correctionSafeCommit t q) cmdSafeCommit t q s 100000000 fun r =>
        modCorr (fun c => { c with queue := c.queue ++ [.safeCommit n r.mbx.frame] }) r) ∧
    (Passes cmdSafeFree t q s → straightOnly (ready cmdSafeFree t q s) = false → (dirOf (ready cmdSafeFree t q s) n).sState ≠ .none →
      Replies (.correctionSafeFree t q) cmdSafeFree t q s [] fun r => r
        |> modDir n (fun d => { d with sBase := 0, sUnits := 0, sW := 0, sH := 0, sState := .none })
        |> modCorr fun c => { c with reader := c.reader.map fun e => if e.1 / 16 = n then
             (e.1, { e.2 with blackFrom := e.2.blackFrom <|> e.2.pos.map fun p => if p.2 = 0 then p.1 else p.1 + 1 }) else e }) ∧
    (Passes cmdCorrStatus t q s → let r := ready cmdCorrStatus t q s
      Replies (.correctionStatus t q) cmdCorrStatus t q s
        ([bitmap ((List.range 8).filter fun p => (r.corr.pipes.toList.getD p {}).fenced)] ++ leBytes 1 (b2n r.corr.storeLost + 2 * b2n (!engineOn r)) ++
          leBytes 2 (if r.corr.storeLost then 0 else freeUnits (heldMask r ||| newMask r)) ++ leBytes 2 ((r.corr.dir.map (·.2.sUnits)).foldl (· + ·) 0) ++
          leBytes 2 0 ++ (List.range 8).flatMap (fun p => leBytes 4 (rateTaken r p)) ++ (List.range 4).flatMap fun k => leBytes 4 (accessRate r k / 1000000)) id)

/-- Every opcode names one command, and all commands of the interface have one. -/
def Obligations.EveryOpcodeNamesOneCommand : Prop :=
  (allCmds.map (·.op)).Nodup ∧ allCmds.length = 98 ∧ ∀ c ∈ allCmds, c.op < 65536 ∧ c.len ≤ c.max ∧ c.max ≤ 1008

/-- `lease.commit` applies every staged change of the caller's token in order, drops them and answers with how many there were, where each passes its checks again; where one
fails it applies none and answers with the failing one's place and status.
The model's own choices that it rests on: log entry 72. -/
def Obligations.LeaseCommitIsAllOrNothing : Prop :=
  ∀ (t : Nat) (q : Req) (s : State), Passes cmdLeaseCommit t q s → let r := ready cmdLeaseCommit t q s
    let l := r.mbx.staged.filter fun e => e.token == q.token
    ((∀ e ∈ l, recheck r e = 0) →
      Replies (.leaseCommit t q) cmdLeaseCommit t q s (leBytes 1 l.length) fun r => dropStaged q.token (forAll l applyStaged r)) ∧
    (∀ i e, l[i]? = some e → recheck r e ≠ 0 → (∀ j f, j < i → l[j]? = some f → recheck r f = 0) →
      Gives (.leaseCommit t q) s (answer cmdLeaseCommit q (recheck r e) (leBytes 1 i ++ leBytes 1 (recheck r e)) r))

/-- The safety settings, in an unlocked session with no brown-out warning and room in the log: `safety.group_set` puts the regions it names into a group,
`safety.monitor_set` sets one monitor of a group or the class of internal faults, each logged with digests of the old and the new value. `safety.lock` ends the session,
`safety.log_ack` acknowledges entries up to a number and is itself logged, and a `safety.order` whose arguments hold is carried out and logged: toward SAFE always, toward LOCKOUT
where a password is set and DENIED where none is, and out of SAFE where the log has room and, of the device, no non-containable fault persists, NOT_IN_STATE where one does.
The model's own choices that it rests on: log entries 76, 84, 98. -/
def Obligations.SafetySettingCommands : Prop :=
  ∀ (t : Nat) (q : Req) (s : State), let free := fun (r : State) => inSession q r = true ∧ r.power.brownout = none ∧ logFull r = false
    (Passes cmdGroupSet t q s → let r := ready cmdGroupSet t q s
      ∀ l, regionsNamed q = some l → arg q 0 1 < 16 → free r →
        (∀ n ∈ l, (groupOf r n).val = arg q 0 1 ∨ mget? r.safety.grpLock (groupOf r n).val = none) →
        Replies (.safetyGroupSet t q) cmdGroupSet t q s [] fun r =>
          let u := modSafety (fun f => { f with record := { f.record with groupOf := l.foldl (fun m n => mset 0 m n (arg q 0 1)) f.record.groupOf } }) r
          logSetting (targetGroup (arg q 0 1)) q (mapValue r) (mapValue u) u) ∧
    (Passes cmdMonitorSet t q s → monitorArgs q = true → free (ready cmdMonitorSet t q s) →
      (∀ h : arg q 0 1 < 16,
        let old := (ready cmdMonitorSet t q s).safety.record.groups[arg q 0 1]
        let new := setMonitor q old
        Replies (.safetyMonitorSet t q) cmdMonitorSet t q s [] fun r => r
          |> modSafety (fun f => { f with record := { f.record with groups := f.record.groups.set (arg q 0 1) new h } })
          |> logSetting (targetGroup (arg q 0 1)) q (groupValue old) (groupValue new)) ∧
      (arg q 0 1 = 0xFF → Replies (.safetyMonitorSet t q) cmdMonitorSet t q s [] fun r => r
          |> modSafety (fun f => { f with record := { f.record with internal := classOfCode (arg q 2 1) } })
          |> logSetting targetDevice q (leBytes 1 (classCode r.safety.record.internal)) (leBytes 1 (classCode (classOfCode (arg q 2 1)))))) ∧
    (Passes cmdLock t q s → Replies (.safetyLock t q) cmdLock t q s [] (endSession q.token)) ∧
    (Passes cmdLogAck t q s → arg q 0 4 < (ready cmdLogAck t q s).safety.logNext.toNat →
      Replies (.safetyLogAck t q) cmdLogAck t q s [] fun r =>
        let u := modSafety (fun f => { f with logAcked := max f.logAcked (arg q 0 4 + 1) }) r
        safetyLog (hostCode q.host) 0x08 targetDevice (nodeOf q) 0 0 noDigest noDigest (leBytes 4 (arg q 0 4))
          (modSafety (fun f => { f with fullRaised := f.fullRaised && logFull u }) u)) ∧
    (Passes cmdOrder t q s → orderArgs q = true → let r := ready cmdOrder t q s
      let scope := arg q 1 1
      let n := arg q 2 2 % 4096
      let done := fun (f : State → State) => Replies (.safetyOrder t q) cmdOrder t q s [] fun r =>
        safetyLog (hostCode q.host) 0x06 (orderTarget scope n) (nodeOf q) 0 0 noDigest noDigest (q.payload.take 4) (f r)
      (arg q 0 1 = 0 → done (orderSafe scope n)) ∧
      (arg q 0 1 = 1 → r.safety.record.pwHash.isSome = true → done (orderLock scope n q)) ∧
      (arg q 0 1 = 1 → r.safety.record.pwHash = none → Gives (.safetyOrder t q) s (answer cmdOrder q 6 [] r)) ∧
      (arg q 0 1 = 2 → (scope ≠ 2 ∨ faultPersists r = false) → logFull r = false → done (orderLeave scope n)) ∧
      (arg q 0 1 = 2 → scope = 2 → faultPersists r = true → Gives (.safetyOrder t q) s (answer cmdOrder q 0x0A [] r)))

/-- The commands that carry a password start its check, which takes 200 ms, where a password is set, none is being checked and the block holds 8 to 32 bytes; with none set the first
password is set at once, and `safety.unlock` and `safety.release` are DENIED.
`safety.status` and `safety.log_read` report and change nothing: `safety.status` the safety byte, the lock-out byte, the groups locked out, how many regions are in safe state and
up to 250 of them from the one asked for on, each with its reasons; `safety.log_read` the numbers the log spans and up to 7 entries from the number asked for on, oldest first.
The model's own choices that it rests on: log entries 85, 86, 87, 98. -/
def Obligations.PasswordAndReportCommandsOfSafety : Prop :=
  (∀ (t : Nat) (q : Req) (s : State),
     let start := modSafety fun f => { f with checking := some (hostIx q.host).val }
     let may := fun (r : State) => r.safety.record.pwHash.isSome = true ∧ r.safety.checking = none ∧ 8 ≤ arg q 0 1 ∧ arg q 0 1 ≤ 32
     (Passes cmdUnlock t q s → may (ready cmdUnlock t q s) → Waits (.safetyUnlock t q) cmdUnlock t q s 200000000 start) ∧
     (Passes cmdUnlock t q s → (ready cmdUnlock t q s).safety.record.pwHash = none → 8 ≤ arg q 0 1 → arg q 0 1 ≤ 32 →
       Gives (.safetyUnlock t q) s (answer cmdUnlock q 6 [] (ready cmdUnlock t q s))) ∧
     (Passes cmdPasswordSet t q s → let r := ready cmdPasswordSet t q s
       r.power.brownout = none → logFull r = false → 8 ≤ arg q 36 1 → arg q 36 1 ≤ 32 →
       (may r → Waits (.safetyPasswordSet t q) cmdPasswordSet t q s 200000000 start) ∧
       (r.safety.record.pwHash = none →
         Replies (.safetyPasswordSet t q) cmdPasswordSet t q s [] (setPassword (slice q.payload 37 (arg q 36 1)) q))) ∧
     (Passes cmdSafetyRelease t q s → let r := ready cmdSafetyRelease t q s
       8 ≤ arg q 0 1 → arg q 0 1 ≤ 32 → arg q 36 1 ≤ 2 → (arg q 36 1 = 0 → arg q 37 1 < 16) →
       (may r → lockIn r (arg q 36 1) (arg q 37 1) = true → logFull r = false →
         Waits (.safetyRelease t q) cmdSafetyRelease t q s 200000000 start) ∧
       (r.safety.record.pwHash = none → Gives (.safetyRelease t q) s (answer cmdSafetyRelease q 6 [] r)))) ∧
  (∀ (t : Nat) (q : Req) (s : State),
     (Passes cmdSafetyStatus t q s → let r := ready cmdSafetyStatus t q s
       let safe := r.safety.reg.filter (·.2.inSafe)
       let l := (safe.filter fun e => arg q 0 2 % 4096 ≤ e.1).take 250
       Replies (.safetyStatus t q) cmdSafetyStatus t q s (leBytes 1 (safetyByte r) ++ leBytes 1 (lockByte r) ++
         leBytes 2 (((List.range 16).map fun g => b2n (mget? r.safety.grpLock g).isSome * 2 ^ g).foldl (· + ·) 0) ++ leBytes 2 safe.length ++
         leBytes 2 l.length ++ l.flatMap fun e => leBytes 2 e.1 ++ leBytes 2 (reasonBits e.2)) id) ∧
     (Passes cmdSafetyLogRead t q s → 1 ≤ arg q 4 1 → arg q 4 1 ≤ 7 → let f := (ready cmdSafetyLogRead t q s).safety
       let l := (f.log.filter fun e => arg q 0 4 ≤ e.seq).take (arg q 4 1)
       Replies (.safetyLogRead t q) cmdSafetyLogRead t q s
         (leBytes 4 ((f.log.map (·.seq)).headD f.logNext.toNat) ++ leBytes 4 ((f.log.map (·.seq)).getLastD (f.logNext - 1#32).toNat) ++ leBytes 1 l.length ++
           List.replicate 3 0#8 ++ l.flatMap (·.bytes)) id))

/-- The settings of the bridge, of events and of the two-wire ports: each command whose values lie in their ranges sets what its bytes name and nothing else, windows 0 and 1 only in
their filter; a routing entry written is good again; the filter of `tw.config` acts at once where no locked sequence runs; `twl.recover` sends the nine clocks and answers whether the
bus stays fenced, is UNIT_GATED with port L gated, and BUSY during a locked sequence.
The model's own choices that it rests on: log entries 95, 96, 97, 98. -/
def Obligations.BridgeSettingCommands : Prop :=
  ∀ (t : Nat) (q : Req) (s : State),
    (Passes cmdNodeSet t q s → arg q 0 2 ≠ 0xFFFF →
      Replies (.bridgeNodeSet t q) cmdNodeSet t q s [] (modLive fun v => { v with node := BitVec.ofNat 16 (arg q 0 2) })) ∧
    (Passes cmdRouteSet t q s → arg q 0 2 < 2048 → routeOk (BitVec.ofNat 64 (arg q 4 8)) = true →
      Replies (.routeSet t q) cmdRouteSet t q s [] fun r =>
        let u := modLive (fun v => { v with routes := mset 0#64 v.routes (arg q 0 2) (BitVec.ofNat 64 (arg q 4 8)) }) r
        { u with hall := { u.hall with routeBad := u.hall.routeBad.filter (· ≠ arg q 0 2) } }) ∧
    (∀ h : arg q 0 1 < 16, Passes cmdWindowSet t q s → windowOk (windowOf q) = true →
      (2 ≤ arg q 0 1 ∨ noFilter (windowOf q) = noFilter (ready cmdWindowSet t q s).live.windows[arg q 0 1]) →
      Replies (.bridgeWindowSet t q) cmdWindowSet t q s [] (modLive fun v => { v with windows := v.windows.set (arg q 0 1) (windowOf q) h })) ∧
    (∀ h : arg q 0 1 < 4, Passes cmdSinkSet t q s → arg q 1 1 ≤ 1 → arg q 2 1 ≤ 4 → arg q 4 2 ≠ 0 → arg q 4 2 ≠ 0xFFFF →
      Replies (.eventSinkSet t q) cmdSinkSet t q s [] (modLive fun v =>
        { v with sinks := v.sinks.set (arg q 0 1) { enable := arg q 1 1 == 1, minSev := arg q 2 1, node := BitVec.ofNat 16 (arg q 4 2) } h })) ∧
    (Passes cmdRingSet t q s → arg q 0 1 ≤ 4 →
      Replies (.eventRingSet t q) cmdRingSet t q s [] (modRing q.host fun r => { r with evtMin := arg q 0 1 })) ∧
    (Passes cmdTwConfig t q s → arg q 1 1 ≤ 2 → 8 ≤ arg q 2 1 → arg q 2 1 ≤ 0x77 → arg q 3 1 ≤ 15 →
      let put := modLive fun v => { v with twPec := bitOf (arg q 0 1) 0, twAttn := arg q 1 1, twHost := BitVec.ofNat 8 (arg q 2 1), twFilter := arg q 3 1 }
      ((ready cmdTwConfig t q s).portL.lock ≠ none → Replies (.twConfig t q) cmdTwConfig t q s [] put) ∧
      ((ready cmdTwConfig t q s).portL.lock = none →
        Replies (.twConfig t q) cmdTwConfig t q s [] fun r => modPortL (fun p => { p with filter := arg q 3 1 }) (put r))) ∧
    (Passes cmdTwlConfig t q s → arg q 0 1 ≤ 2 → 1 ≤ arg q 1 2 → arg q 1 2 ≤ 1000 →
      Replies (.twlConfig t q) cmdTwlConfig t q s [] (modLive fun v => { v with twlSpeed := arg q 0 1, twlStretch := arg q 1 2 })) ∧
    (Passes cmdTwlRecover t q s → let r := ready cmdTwlRecover t q s
      (gateOn r 23 = true → r.portL.lock = none → let u := failFenced (nineClocks r)
        Replies (.twlRecover t q) cmdTwlRecover t q s (leBytes 1 (b2n u.portL.fenced)) fun _ => u) ∧
      (gateOn r 23 = false → Gives (.twlRecover t q) s (answer cmdTwlRecover q 4 [] r)) ∧
      (gateOn r 23 = true → r.portL.lock.isSome = true → Gives (.twlRecover t q) s (answer cmdTwlRecover q 1 [] r)))

/-- `route.get`, `bridge.window_get`, `event.read` and `bridge.late_errors` report; `event.read` takes the up to 3 entries it reports off its ring. `bridge.remote`, with no remote
access outstanding, sets a limit it names, sends its request and, but for a posted write, waits for the completion; a request that cannot be sent answers so at once. `bridge.sync`
answers where no posted write of its source that came before it is outstanding, and waits where one is.
The model's own choices that it rests on: log entries 95, 97, 98. -/
def Obligations.BridgeReportCommands : Prop :=
  ∀ (t : Nat) (q : Req) (s : State),
    (Passes cmdRouteGet t q s → 1 ≤ arg q 2 2 → arg q 2 2 ≤ 84 → arg q 0 2 + arg q 2 2 ≤ 2048 → let r := ready cmdRouteGet t q s
      Replies (.routeGet t q) cmdRouteGet t q s ((List.range (arg q 2 2)).flatMap fun k =>
        leBytes 2 (arg q 0 2 + k) ++ leBytes 1 (b2n (decide (arg q 0 2 + k ∈ r.hall.routeBad))) ++ leBytes 1 0 ++ leBytes 8 (mget 0#64 r.live.routes (arg q 0 2 + k)).toNat) id) ∧
    (Passes cmdWindowGet t q s → Replies (.bridgeWindowGet t q) cmdWindowGet t q s ((ready cmdWindowGet t q s).live.windows.toList.flatMap fun w => leBytes 16 w.toNat) id) ∧
    (Passes cmdEventRead t q s → let l := (ringAt (ready cmdEventRead t q s) q.host).evts
      Replies (.eventRead t q) cmdEventRead t q s (leBytes 1 (l.take 3).length ++ leBytes 1 (l.length - (l.take 3).length) ++ leBytes 2 0 ++ (l.take 3).flatMap (fit 256))
        (modRing q.host fun r => { r with evts := l.drop 3 })) ∧
    (Passes cmdLateErrors t q s → let l := (ready cmdLateErrors t q s).bridge.lateLog
      Replies (.bridgeLateErrors t q) cmdLateErrors t q s (leBytes 1 l.length ++ List.replicate 3 0#8 ++ l.flatMap lateBytes) id) ∧
    (Passes cmdRemote t q s → let r := ready cmdRemote t q s
      remoteArgs q = true → gateOn r 22 = true → r.bridge.remote = none →
      let limit := fun (r : State) => if arg q 4 4 = 0 then r else modLive (fun v => { v with remoteTimeout := arg q 4 4 }) r
      let x := sendOwn (remoteParcel q (limit r)) (limit r)
      (x.2 = false → Replies (.bridgeRemote t q) cmdRemote t q s (remotePayload 9 []) fun _ => x.1) ∧
      (x.2 = true → bitOf (arg q 3 1) 0 = true → Replies (.bridgeRemote t q) cmdRemote t q s (remotePayload 0 []) fun _ => x.1) ∧
      (x.2 = true → bitOf (arg q 3 1) 0 = false → Waits (.bridgeRemote t q) cmdRemote t q s ((limit r).live.remoteTimeout * 100000) fun _ =>
        modBridge (fun b => { b with remote := some { tag := b.remoteTag, ring := (hostIx q.host).val, read := arg q 2 1 == 1, count := arg q 14 2, got := [] },
                                     remoteTag := (b.remoteTag + 1) % 64 }) x.1)) ∧
    (Passes cmdSync t q s → let r := ready cmdSync t q s
      (writesOut r (syncSource q) r.mbx.frame = false →
        Replies (.bridgeSync t q) cmdSync t q s (syncAnswer (syncSource q) r).1 fun r => (syncAnswer (syncSource q) r).2) ∧
      (writesOut r (syncSource q) r.mbx.frame = true → Waits (.bridgeSync t q) cmdSync t q s 50000000 id))

/-- `power.state_set` begins the entry to P2 or P3 where R447 lets it, ends a locked sequence of port L and waits, and is NOT_IN_STATE where R447 does not; `clock.ref_select` and
`clock.refout_set` set what their bytes name, and the outputs are driven anew.
The diagnostic commands, on the lane or, by 0xFF, the lanes that byte 1 names: `diag.loop_set` sets loops on a lost gallery, or takes an ACTIVE one out of service for it;
`diag.prbs_set` sets generators and checkers on a lost gallery, counts cleared; both are NOT_IN_STATE elsewhere. `diag.prbs_get` reports and changes nothing; `diag.eye_scan` reports
the last scan of an eye of a lane in lock, widths, midpoints, age and half the points, and is NOT_IN_STATE where there is none.
The model's own choices that it rests on: log entries 15, 58, 59, 61, 62, 98. -/
def Obligations.PowerAndDiagnosticCommands : Prop :=
  (∀ (t : Nat) (q : Req) (s : State),
     (Passes cmdStateSet t q s → (arg q 0 1 = 2 ∨ arg q 0 1 = 3) →
       (mayEnter (ready cmdStateSet t q s) = true → Waits (.powerStateSet t q) cmdStateSet t q s 5000000 fun r =>
         timeoutLock (modPower (fun p => { p with entry := some { target := arg q 0 1, startedAt := r.now } }) r)) ∧
       (mayEnter (ready cmdStateSet t q s) = false → Gives (.powerStateSet t q) s (answer cmdStateSet q 0x0A [] (ready cmdStateSet t q s)))) ∧
     (∀ h : arg q 0 1 < 2, Passes cmdRefSelect t q s → refAllowed (ready cmdRefSelect t q s) (arg q 1 1) = true →
       (refAllowed (ready cmdRefSelect t q s) (arg q 2 1) = true ∨ arg q 2 1 = 0xFF) → arg q 1 1 ≠ arg q 2 1 →
       Replies (.clockRefSelect t q) cmdRefSelect t q s [] (modLive fun v =>
         { v with refPrimary := v.refPrimary.set (arg q 0 1) (refOf (arg q 1 1)) h,
                  refBackup := v.refBackup.set (arg q 0 1) (if arg q 2 1 = 0xFF then none else some (refOf (arg q 2 1))) h })) ∧
     (∀ h : arg q 0 1 < 2, Passes cmdRefoutSet t q s → arg q 1 1 ≤ 1 → arg q 2 1 ≤ 8 → 25 ≤ arg q 3 1 → arg q 3 1 ≤ 65 →
       Replies (.clockRefoutSet t q) cmdRefoutSet t q s [] fun r => r
         |> modLive (fun v => { v with refoutOn := v.refoutOn.set (arg q 0 1) (arg q 1 1 == 1) h, refoutDepth := v.refoutDepth.set (arg q 0 1) (BitVec.ofNat 4 (arg q 2 1)) h,
                                       refoutRate := v.refoutRate.set (arg q 0 1) (BitVec.ofNat 8 (arg q 3 1)) h })
         |> driveRefout)) ∧
  (∀ (t : Nat) (q : Req) (s : State) (g : GalIx) (ls : List LaneIx), arg q 0 1 = g.val → lanesNamed q = some ls →
     (Passes cmdLoopSet t q s → arg q 2 1 ≤ 3 → let r := ready cmdLoopSet t q s
       let put := fun (r : State) => forAll ls (fun l => modLane g l fun L => { L with loop := arg q 2 1 }) r
       ((galAt r g).lost.isSome = true → Replies (.diagLoopSet t q) cmdLoopSet t q s [] put) ∧
       ((galAt r g).lost = none → bitOf (arg q 3 1) 0 = true → galActive r g = true → Replies (.diagLoopSet t q) cmdLoopSet t q s [] fun r => put (takeGallery g r)) ∧
       ((galAt r g).lost = none → (bitOf (arg q 3 1) 0 = false ∨ galActive r g = false) → Gives (.diagLoopSet t q) s (answer cmdLoopSet q 0x0A [] r))) ∧
     (∀ h : arg q 4 1 < 6, Passes cmdPrbsSet t q s → arg q 3 1 ≤ 7 → suits (arg q 3 1) (arg q 4 1) = true → let r := ready cmdPrbsSet t q s
       ((galAt r g).lost.isSome = true → Replies (.diagPrbsSet t q) cmdPrbsSet t q s [] fun r => sendPatterns g ⟨arg q 4 1, h⟩ (forAll ls (setPattern q g) r)) ∧
       ((galAt r g).lost = none → Gives (.diagPrbsSet t q) s (answer cmdPrbsSet q 0x0A [] r))) ∧
     (Passes cmdPrbsGet t q s →
       Replies (.diagPrbsGet t q) cmdPrbsGet t q s (allLanes.flatMap fun k =>
         let p := (laneAt (ready cmdPrbsGet t q s) g k).prbs
         leBytes 1 p.pattern ++ leBytes 1 (b2n p.locked) ++ leBytes 2 0 ++ leBytes 8 p.errors ++ leBytes 8 p.bits) id) ∧
     (∀ l : LaneIx, Passes cmdEyeScan t q s → let r := ready cmdEyeScan t q s
       let L := laneAt r g l
       arg q 1 1 = l.val → (arg q 2 1 = 0 ∨ 4 ≤ ((galAt r g).rx.tread.getD 0).val ∧ arg q 2 1 ≤ 2) → arg q 3 1 ≤ 1 →
       (laneLocked L = true → ∀ e, mget? L.eyes (arg q 2 1) = some e →
         Replies (.diagEyeScan t q) cmdEyeScan t q s (leBytes 1 (phaseRun e).2 ++ leBytes 1 (voltRun e).2 ++ leBytes 1 (midpoint r.free (phaseRun e)) ++
           leBytes 1 (midpoint (r.free + 1) (voltRun e)) ++ leBytes 4 (min ((r.now - e.at_) / 1000000) (2 ^ 32 - 1)) ++
           (List.range 32).flatMap fun k => leBytes 16 (e.points.getD (32 * arg q 3 1 + k) 0#128).toNat) fun r => { r with free := r.free + 2 }) ∧
       ((laneLocked L = false ∨ mget? L.eyes (arg q 2 1) = none) → Gives (.diagEyeScan t q) s (answer cmdEyeScan q 0x0A [] r))))

/-- `sensor.read` and `log.read` report and change nothing; `log.stream` stops, starts and reads the stream while no other holder has it, and is BUSY while one has.
The update commands: `update.begin` names the target slot and erases it, `update.chunk` puts its bytes where they belong, both during a brown-out warning at its end;
`update.verify` of a whole image and, with no brown-out warning, `update.commit` of a verified one wait, the commit with its slot COMMITTING; `update.activate` of a committed one
answers with the slot that the restart takes, orders that restart within 1 ms and ends the update; `update.status` reports and changes nothing.
The model's own choices that it rests on: log entries 14, 53, 63, 65, 66, 67, 68, 98. -/
def Obligations.SensorLogAndUpdateCommands : Prop :=
  (∀ (t : Nat) (q : Req) (s : State),
     (Passes cmdSensorRead t q s → let d := (ready cmdSensorRead t q s).diag
       Replies (.sensorRead t q) cmdSensorRead t q s (d.temps.toList.flatMap (fun v => leBytes 2 (v % 65536).toNat) ++ d.supplies.toList.flatMap fun v => leBytes 2 v) id) ∧
     (Passes cmdLogRead t q s → 1 ≤ arg q 4 1 → arg q 4 1 ≤ 31 → let f := (ready cmdLogRead t q s).log
       let l := (f.entries.filter fun e => arg q 0 4 ≤ e.seq).take (arg q 4 1)
       Replies (.logRead t q) cmdLogRead t q s (logSpan (f.entries.map (·.seq)) f.next ++ leBytes 1 l.length ++ List.replicate 3 0#8 ++ l.flatMap logBytes) id) ∧
     (Passes cmdLogStream t q s → let r := ready cmdLogStream t q s
       ((r.log.stream = none ∨ ∃ h, r.log.stream = some h ∧ holderOf h.host h.src = holderOf q.host q.src) →
         (arg q 0 1 = 0 → Replies (.logStream t q) cmdLogStream t q s [] (modLog fun f => { f with stream := none, ring12 := [], streamGap := false })) ∧
         (arg q 0 1 = 1 → arg q 1 1 ≤ 4 → Replies (.logStream t q) cmdLogStream t q s [] (modLog fun f =>
           { f with ring12 := [], streamGap := false, stream := some { host := q.host, src := q.src, minSev := arg q 1 1, lastRead := r.now } })) ∧
         (arg q 0 1 = 2 → let l := r.log.ring12.take 31
           Replies (.logStream t q) cmdLogStream t q s (leBytes 1 l.length ++ List.replicate 3 0#8 ++ l.flatMap logBytes) (modLog fun f =>
             { f with ring12 := f.ring12.drop 31, stream := f.stream.map fun h => { h with lastRead := r.now } }))) ∧
       (∀ h, r.log.stream = some h → holderOf h.host h.src ≠ holderOf q.host q.src → (arg q 0 1 = 0 ∨ arg q 0 1 = 1 ∧ arg q 1 1 ≤ 4 ∨ arg q 0 1 = 2) →
         Gives (.logStream t q) s (answer cmdLogStream q 1 [] r)))) ∧
  (∀ (t : Nat) (q : Req) (s : State),
     (Passes cmdUpdBegin t q s → arg q 0 4 % 4 = 0 → arg q 0 4 ≤ 1572864 → let r := ready cmdUpdBegin t q s
       let put := modUpd (fun _ => { state := .receiving, target := updateTarget r, length := arg q 0 4 })
       (r.power.brownout = none → Replies (.updateBegin t q) cmdUpdBegin t q s (leBytes 1 (updateTarget r)) fun r => eraseSlot (put r)) ∧
       (r.power.brownout.isSome = true →
         Replies (.updateBegin t q) cmdUpdBegin t q s (leBytes 1 (updateTarget r)) fun r => modUpd (fun u => { u with eraseDue := true }) (put r))) ∧
     (Passes cmdUpdChunk t q s → let r := ready cmdUpdChunk t q s
       arg q 0 4 % 4 = 0 → (r.upd.state = .receiving ∨ r.upd.state = .verified) → committing r = false → arg q 0 4 + (q.payload.drop 4).length ≤ r.upd.length →
       let put := modUpd (fun u => { u with state := .receiving })
       (r.power.brownout = none → Replies (.updateChunk t q) cmdUpdChunk t q s [] fun r => putChunk (arg q 0 4) (q.payload.drop 4) (put r)) ∧
       (r.power.brownout.isSome = true → r.upd.chunks.length < 4 → Replies (.updateChunk t q) cmdUpdChunk t q s [] fun r =>
         modUpd (fun u => { u with chunks := u.chunks ++ [(arg q 0 4, q.payload.drop 4)] }) (put r)) ∧
       (r.power.brownout.isSome = true → 4 ≤ r.upd.chunks.length → Gives (.updateChunk t q) s (answer cmdUpdChunk q 1 [] r))) ∧
     (Passes cmdUpdVerify t q s → let r := ready cmdUpdVerify t q s
       (r.upd.state = .receiving ∨ r.upd.state = .verified) → committing r = false → r.upd.bytes.length = r.upd.length → r.upd.chunks = [] →
       Waits (.updateVerify t q) cmdUpdVerify t q s 1000000000 id) ∧
     (Passes cmdUpdCommit t q s → let r := ready cmdUpdCommit t q s
       r.upd.state = .verified → committing r = false → r.power.brownout = none →
       Waits (.updateCommit t q) cmdUpdCommit t q s 5000000000 (modFwSlot r.upd.target fun x => { x with state := .committing })) ∧
     (Passes cmdUpdActivate t q s → let r := ready cmdUpdActivate t q s
       let n := (newestSlot (fwSlot r 0) (fwSlot r 1) (slotValid r.otp (fwSlot r 0)) (slotValid r.otp (fwSlot r 1))).getD r.upd.target
       r.upd.state = .committed → ∃ due, r.now ≤ due ∧ due ≤ r.now + 1000000 ∧
       Replies (.updateActivate t q) cmdUpdActivate t q s (leBytes 1 n ++ List.replicate 3 0#8 ++ leBytes 4 (fwSlot r n).level.toNat) fun r =>
         { (modMez (fun m => { m with activateDue := some due }) r) with upd := {}, free := r.free + 1 }) ∧
     (Passes cmdUpdStatus t q s → let r := ready cmdUpdStatus t q s
       let level := fun (n : Nat) => if slotValid r.otp (fwSlot r n) then (fwSlot r n).level.toNat else 0
       Replies (.updateStatus t q) cmdUpdStatus t q s (leBytes 1 (updCode r.upd.state) ++ leBytes 1 r.upd.target ++ leBytes 2 0 ++ leBytes 4 r.upd.bytes.length ++
         leBytes 4 (level 0) ++ leBytes 4 (level 1) ++ leBytes 1 (rollbackCount r.otp)) id))

/-- The security commands: `debug.nonce` draws a new nonce and answers with it; `debug.open` in FACTORY answers without a check, elsewhere it is NOT_IN_STATE without a nonce, and with
one checks its token, which consumes the nonce: a good token opens the level, a bad one is counted and DENIED; `debug.close` returns to the level of the lifecycle;
`security.lifecycle_set` makes the transition it names; `freeze.arm` sets or clears the trigger; `freeze.now` orders a freeze within 10 us; `snapshot.read` answers with one block,
which enters its ring of 16, and frees the ring for other hosts after the last.
The model's own choices that it rests on: log entries 10, 14, 17, 64, 69, 98. -/
def Obligations.SecurityCommands : Prop :=
  ∀ (t : Nat) (q : Req) (s : State),
    (Passes cmdNonce t q s → let r := ready cmdNonce t q s
      Replies (.debugNonce t q) cmdNonce t q s (leBytes 32 (Config.random r.free).toNat ++ leBytes 8 r.otp.serial.toNat) fun r =>
        modDbg (fun d => { d with nonce := some (Config.random r.free) }) { r with free := r.free + 1 }) ∧
    (Passes cmdDebugOpen t q s → (arg q 0 1 = 1 ∨ arg q 0 1 = 2) → arg q 1 1 ≤ 1 → let r := ready cmdDebugOpen t q s
      (lifecycle r.otp = 0 → Replies (.debugOpen t q) cmdDebugOpen t q s (leBytes 1 2) id) ∧
      (lifecycle r.otp ≠ 0 → r.dbg.nonce = none → Gives (.debugOpen t q) s (answer cmdDebugOpen q 0x0A [] r)) ∧
      (∀ n, lifecycle r.otp ≠ 0 → r.dbg.nonce = some n →
        let u := fun (last : Nat) => modDbg (fun d => { d with nonce := none, last }) r
        let v := raise 0x0D01 (leBytes 1 (arg q 0 1) ++ leBytes 1 (arg q 1 1)) (setLevel (arg q 0 1) true (u 1))
        (tokenOk r n (arg q 0 1) (arg q 1 1) (slice q.payload 4 96) = true →
          Replies (.debugOpen t q) cmdDebugOpen t q s (leBytes 1 v.dbg.level) fun _ => v) ∧
        (tokenOk r n (arg q 0 1) (arg q 1 1) (slice q.payload 4 96) = false →
          Gives (.debugOpen t q) s (answer cmdDebugOpen q 6 [] (countDev 0xB02 0 (u 2)))))) ∧
    (Passes cmdDebugClose t q s → Replies (.debugClose t q) cmdDebugClose t q s [] fun r => setLevel (lifeLevel r.otp) false r) ∧
    (Passes cmdLifecycle t q s → let r := ready cmdLifecycle t q s
      arg q 52 4 = r.otp.serial.toNat % 2 ^ 32 → r.power.brownout = none →
      (arg q 0 1 = 1 → lifecycle r.otp = 0 → Replies (.securityLifecycleSet t q) cmdLifecycle t q s [] (secure (slice q.payload 4 48))) ∧
      (arg q 0 1 = 2 → beNat (slice q.payload 4 48) = 0 → lifecycle r.otp ≠ 2 → Replies (.securityLifecycleSet t q) cmdLifecycle t q s [] retire)) ∧
    (Passes cmdFreezeArm t q s →
      (arg q 0 1 = 1 → arg q 2 2 ∈ eventCodes →
        Replies (.freezeArm t q) cmdFreezeArm t q s [] fun r => { r with diag := { r.diag with trigger := some (BitVec.ofNat 16 (arg q 2 2)) } }) ∧
      (arg q 0 1 = 0 → Replies (.freezeArm t q) cmdFreezeArm t q s [] fun r => { r with diag := { r.diag with trigger := none } })) ∧
    (Passes cmdFreezeNow t q s → ∃ due, (ready cmdFreezeNow t q s).now ≤ due ∧ due ≤ (ready cmdFreezeNow t q s).now + 10000 ∧
      Replies (.freezeNow t q) cmdFreezeNow t q s [] fun r => { r with diag := { r.diag with freezeDue := some due }, free := r.free + 1 }) ∧
    (Passes cmdSnapRead t q s → let r := ready cmdSnapRead t q s
      let n := arg q 0 2
      let ring := r.diag.ring14 ++ [publicBlock n r]
      n < publicBlocks → (r.diag.snapHost = none ∨ r.diag.snapHost = some (hostCode q.host - 1)) →
        Replies (.snapshotRead t q) cmdSnapRead t q s (leBytes 2 n ++ leBytes 2 publicBlocks ++ publicBlock n r) fun r =>
          { r with diag := { r.diag with snapHost := if n + 1 = publicBlocks then none else some (hostCode q.host - 1), ring14 := ring.drop (ring.length - 16) } })

/-! ## The receive side of a gallery -/

/-- A block at a tread without FEC, on a gallery whose hop engine runs: while its lane hunts, a block with an invalid header starts the run anew, one with a valid header adds to
it, and the 64th in a row gives lock. In lock its faults count; with it, 16 invalid headers among the last 64 lose the lock; before marker lock a hop-control block is kept for the
row that takes it; slot 0 of a period is a marker or a missed one; any other slot is taken at its key, and errored where the period's marker was wrong. A gallery under test
hands the bits to its checker.
A codeword on a gallery whose hop engine runs: while its lane hunts, one whose marker holds makes it a candidate; a candidate's second is counted, its third gives lock with the
seam buffer half full, and a wrong marker sends it back to hunting. A lane in lock takes a codeword whose marker holds, after the one that was withheld before it; it counts one
whose marker is wrong and withholds the first, fails the lane at the second, and loses lock at the fourth in a row. A gallery under test hands the bits to its checker, and a
lane of it in a loop adapts.
The model's own choices that it rests on: log entries 1, 22, 114. -/
def Obligations.BlocksAndCodewordsGiveLock : Prop :=
  (∀ (t : Nat) (g : GalIx) (l : LaneIx) (b0 : Block) (reads : Nat) (s : State), let a := begin t s
     let L := laneAt a g l
     let b := if L.inverted then ~~~b0 else b0
     let valid := blkHdr b == dataHdr || blkHdr b == ctlHdr
     let d := descrambleBlk L.scram b
     (hopRuns a g = true → underTest a g = false → (galAt a g).rx.fec = false → L.block = .hunt →
       (valid = false → Gives (.receiveBlock t g l b0 reads) s (modLane g l (fun L => { L with hdrRun := 0 }) a)) ∧
       (valid = true → L.hdrRun + 1 < 64 → Gives (.receiveBlock t g l b0 reads) s
         (modLane g l (fun L => { L with hdrRun := L.hdrRun + 1, scram := d.1 }) a)) ∧
       (valid = true → 64 ≤ L.hdrRun + 1 → Gives (.receiveBlock t g l b0 reads) s (modLane g l (fun L =>
         { L with block := .locked, hdrRun := 0, hdrHist := 0#64, seam := 16, mkLock := false, mkCount := 0, mkGap := 0, scram := d.1,
                  polSeen := if L.polSeen < 64 then 0 else L.polSeen, polInv := 0, polNorm := 0 }) a))) ∧
     (hopRuns a g = true → underTest a g = false → (galAt a g).rx.fec = false → L.block = .locked →
       let hist := (L.hdrHist <<< 1) ||| BitVec.ofNat 64 (b2n (!valid))
       let bad := ((List.range 64).filter fun k => hist.getLsbD k).length
       let c := a
         |> modLane g l (fun L => { L with hdrHist := hist, scram := d.1, rxSlot := (L.rxSlot + 1) % 1024, mkGap := min (L.mkGap + 1) 2047 })
         |> doIf (!valid) (modRx g fun r => { r with winErr := r.winErr + 1 })
         |> polarity g l d.2
       let k := blkKind d.2
       let keep := fun (h : Hop) (u : State) => modRx g (fun r => { r with hopIn := r.hopIn ++ [(posOf (galAt u g) l, L.rxSeq, h)] }) u
       (16 ≤ bad → Gives (.receiveBlock t g l b0 reads) s (walkOn g (blockLose g l (countFaults g l k c)))) ∧
       (bad < 16 → L.mkLock = false →
         (∀ h, k = .hop (some h) → Gives (.receiveBlock t g l b0 reads) s (keep h (countFaults g l k c))) ∧
         ((∀ h, k ≠ .hop (some h)) → Gives (.receiveBlock t g l b0 reads) s (countFaults g l k c))) ∧
       (bad < 16 → L.mkLock = true → L.rxSlot = 0 →
         (∀ q p v, k = .hop (some (.marker q p v)) → Gives (.receiveBlock t g l b0 reads) s (keep (.marker q p v) c)) ∧
         ((∀ q p v, k ≠ .hop (some (.marker q p v))) → Gives (.receiveBlock t g l b0 reads) s (walkOn g (markerMissed g l (countFaults g l k c))))) ∧
       (bad < 16 → L.mkLock = true → L.rxSlot ≠ 0 →
         (L.badPeriod = true → Gives (.receiveBlock t g l b0 reads) s (walkOn g (errSlot g l (L.rxSeq, L.rxSlot) reads (countFaults g l k c)))) ∧
         (L.badPeriod = false → Gives (.receiveBlock t g l b0 reads) s (walkOn g (takeSlot g l (L.rxSeq, L.rxSlot) reads d.2 c))))) ∧
     (underTest a g = true → Gives (.receiveBlock t g l b0 reads) s (testBlock g l b0 a))) ∧
  (∀ (t : Nat) (g : GalIx) (l : LaneIx) (w0 : BitVec 5440) (reads : List Nat) (s : State), let a := begin t s
     let L := laneAt a g l
     let w := if L.inverted then invertBits (isPam ((galAt a g).rx.tread.getD 0)) 5440 w0 else w0
     let gives := fun (u : State) => Gives (.receiveCodeword t g l w0 reads) s (tryRejoin g u)
     (hopRuns a g = true → underTest a g = false → (galAt a g).rx.fec = true →
       (L.cw = .hunt → markerOk w = true → gives (modLane g l (fun L => { L with cw := .candidate 1 }) a)) ∧
       (L.cw = .hunt → markerOk w = false → gives a) ∧
       (∀ n, L.cw = .candidate n → markerOk w = false → gives (modLane g l (fun L => { L with cw := .hunt }) a)) ∧
       (∀ n, L.cw = .candidate n → markerOk w = true → n < 2 → gives (modLane g l (fun L => { L with cw := .candidate (n + 1) }) a)) ∧
       (∀ n, L.cw = .candidate n → markerOk w = true → 2 ≤ n → gives (checkAlign g (modLane g l (fun L =>
         { L with cw := .locked, mkMiss := 0, seam := 16, withheld := none, expectSeq := none, seqErr := 0, firstSrc := none, cwHist := [] }) a))) ∧
       (L.cw = .locked → markerOk w = true → let b := modLane g l (fun L => { L with mkMiss := 0, withheld := none }) a
         (L.withheld = none → gives (walkOn g (takeCw g l w reads b))) ∧
         (∀ v, L.withheld = some v → gives (walkOn g (takeCw g l w reads (takeCw g l v.1 v.2 b))))) ∧
       (L.cw = .locked → markerOk w = false → let b := modLane g l (fun L => { L with mkMiss := L.mkMiss + 1 }) (countLane 0x306 g l a)
         (3 ≤ L.mkMiss → gives (walkOn g (cwLose g l 0x2 b))) ∧
         (L.mkMiss < 3 → L.withheld = none → gives (modLane g l (fun L => { L with withheld := some (w, reads) }) b)) ∧
         (L.mkMiss < 3 → L.withheld.isSome = true → gives (walkOn g (laneFail g l 0x1
           (modLane g l (fun L => { L with withheld := none, expectSeq := L.expectSeq.map fun q => (q + 2) % 1024 }) b)))))) ∧
     (underTest a g = true → Gives (.receiveCodeword t g l w0 reads) s (testCodeword g l w0 a)) ∧
     (underTest a g = true → L.loop ≠ 0 → (galAt a g).rx.ts = .lost → ∀ (sums : TapSums) (vga : BitVec 8) (drift : Int), let set := (galSet a g).lanes[l]
       Gives (.adaptationWindowEnd t g l sums vga drift) s (modLane g l (fun L =>
         { L with live := adaptLane false false sums.acc vga drift L, sampled := vga, residuals := sums.residuals, vgaHoldNow := set.vgaHold,
                  modeNow := if L.modeNow = .fixed ∨ set.mode = .fixed then L.modeNow else set.mode }) a)))

/-- A deskew marker at a tread with FEC is only counted. At the other treads two in sequence and 1,024 blocks apart give a lane in block lock its marker lock; in marker lock the
expected one starts its period, a wrong one makes its period errored, and a second wrong one in a row fails the lane. A lane of the active set that lags while another holds more
than 128 slots beyond the walk fails deskew and is counted, as one fails that lags in REPORT; a deskew that waits for nothing changes nothing.
The model's own choices that it rests on: log entries 22, 23. -/
def Obligations.DeskewMarkersAlignLanes : Prop :=
  ∀ (t : Nat) (g : GalIx) (l : LaneIx) (seq : BitVec 10) (pos : BitVec 6) (sb : BitVec 16) (s : State), let a := begin t s
    let G := galAt a g
    let L := laneAt a g l
    hopRuns a g = true →
    (let b := takeHop g (.marker seq pos sb) a;
      let gives := fun (u : State) => Gives (.deskewMarkerReceive t g l seq pos sb) s (walkOn g (tryRejoin g u))
      (G.rx.fec = true → gives (countLane 0x302 g l b)) ∧
      (G.rx.fec = false → L.mkLock = false → L.block = .locked →
        let n := if L.expectSeq = some seq.toNat ∧ L.mkGap = 1024 then L.mkCount + 1 else 1
        gives (b |> modLane g l (fun L => { L with rxSeq := seq.toNat, rxSlot := 1, mkGap := 0, mkCount := n, mkLock := n ≥ 2, mkMiss := 0, badPeriod := false,
                                                   expectSeq := some ((seq.toNat + 1) % 1024), seqErr := 0 }) |> takeSideband g sb |> checkAlign g)) ∧
      (G.rx.fec = false → L.mkLock = false → L.block = .hunt → gives b) ∧
      (G.rx.fec = false → L.mkLock = true →
        let starts := L.startSeq == some seq.toNat
        let e := if starts then seq.toNat else L.expectSeq.getD seq.toNat
        let c := modLane g l (fun L => { L with rxSeq := e, rxSlot := 1, mkGap := 0, mkMiss := 0, badPeriod := decide (e ≠ seq.toNat),
                                                expectSeq := some ((e + 1) % 1024), seqErr := if e = seq.toNat then 0 else L.seqErr + 1,
                                                startSeq := if starts then none else L.startSeq, firstSrc := some (L.firstSrc.getD (pos.extractLsb' 3 3)) }) b
        (e = seq.toNat → gives (takeSideband g sb c)) ∧
        (e ≠ seq.toNat → L.seqErr = 0 → gives (c |> countLane 0x30B g l |> countLane 0x309 g l)) ∧
        (e ≠ seq.toNat → L.seqErr ≠ 0 → gives (c |> countLane 0x30B g l |> countLane 0x309 g l |> laneFail g l 0x6)))) ∧
    (let k := (G.rx.walkSeq, G.rx.walkSlot);
      let ahead := ∃ o, ((laneAt a g o).deskew.filter fun e => keyGe (e.1, e.2.1) k).length > 128
      let lost := Gives (.deskewTimeout t g l) s (a |> countLane 0x30C g l |> laneFail g l 0x7 |> walkOn g)
      (G.rx.ts = .active → (setAt G.rx k.1).getLsbD (posOf G l) = true → slotAt L k = none → ahead → lost) ∧
      (G.rx.ts = .report → G.rx.pass.getLsbD (posOf G l) = true → lost) ∧
      (G.rx.ts = .active → ((setAt G.rx k.1).getLsbD (posOf G l) = false ∨ slotAt L k ≠ none ∨ ¬ ahead) → Gives (.deskewTimeout t g l) s a) ∧
      (G.rx.ts = .report → G.rx.pass.getLsbD (posOf G l) = false → Gives (.deskewTimeout t g l) s a))

/-! ## The clock lane, idle and wake -/

/-- The clock lane: lock within −6,000 to +300 ppm takes a receiver in CLOCK to ALIGN, with it a transmitter that has not heard the far end yet, and its receive island to the run clock, lock outside it is only measured, and a stopped clock
lane that locks is in lock again. Its loss parks the island: an ACTIVE direction, or one in GUARD, loses the gallery with cause 0x1, a training fails with reason 0x9, in DETECT the
activity is gone, and an announced stop is no loss. A stop notice stops it; at the end of a preamble a receiver in lock goes on, one without lock loses the gallery, and a
transmitter, 1.0 us after its preamble began, starts the tack bursts of the lanes that wake.
Idle and wake: an idle notice takes a striping lane out of the receive set from the period after the one it names, stops the attempts on a darned lane, and of one that was darned
because its notice was missed takes the darning back. What waits on a fully idle transmit direction wakes the lanes of its mask; 10 us after it was left with nothing the direction
returns to idle. A tack block that continues its burst counts, the 32nd in a row after 32 to settle confirms the lane, which rejoins at the boundary announced, and any other starts
the count anew; one that fails its CRC-8 is counted. The end of a burst clears it and moves the phase it tracked; of one not confirmed it raises `lane.wake_failed` too and darns
the lane from its rejoin boundary, and fails the rejoin of a lane that was darned.
The model's own choices that it rests on: log entries 1, 19, 110, 115, 116, 117, 128. -/
def Obligations.ClockLaneIdleAndWake : Prop :=
  (∀ (t : Nat) (g : GalIx) (s : State), let a := begin t s
     let G := galAt a g
     hopRuns a g = true →
     (∀ ppm : Int, let b := modRx g (fun r => { r with freqPpm := ppm }) a
       (G.rx.ts = .clock → -6000 ≤ ppm → ppm ≤ 300 → Gives (.clockLaneLock t g ppm) s (b |> lockIsland g
         |> modRx g (fun r => { r with clkLock := true, ts := .align, at_ := a.now })
         |> modTx g (fun x => if fromDetect G && x.ts == .clock && G.farCap.isNone then { x with ts := .align, at_ := a.now } else x))) ∧
       (G.rx.ts = .clock → (ppm < -6000 ∨ 300 < ppm) → Gives (.clockLaneLock t g ppm) s b) ∧
       (G.rx.ts ≠ .clock → G.rx.clkStopped = true → Gives (.clockLaneLock t g ppm) s (b |> lockIsland g |> modRx g (fun r => { r with clkLock := true }))) ∧
       (G.rx.ts ≠ .clock → G.rx.clkStopped = false → Gives (.clockLaneLock t g ppm) s b)) ∧
     (let park := requestSwitch g.val false .xin;
       (G.rx.clkStopped = true → Gives (.clockLaneLost t g) s a) ∧
       (G.rx.clkStopped = false →
         ((G.rx.ts = .active ∨ G.rx.ts = .guarding) →
           Gives (.clockLaneLost t g) s (loseGallery g 0x1 (modRx g (fun r => { r with clkLock := false }) (park a)))) ∧
         (G.rx.ts = .detect → Gives (.clockLaneLost t g) s (modRx g (fun r => { r with activity := false }) (park a))) ∧
         (G.rx.ts = .backoff → Gives (.clockLaneLost t g) s (park a)) ∧
         (G.rx.ts ≠ .active → G.rx.ts ≠ .guarding → G.rx.ts ≠ .detect → G.rx.ts ≠ .backoff →
           Gives (.clockLaneLost t g) s (failAttempt g 0x9 false (park a))))) ∧
     (∀ (l : LaneIx) (seq : BitVec 10) (pos : BitVec 6), let b := takeHop g (.clockStop seq pos) a
       (G.rx.ts = .active → Gives (.clockStopNoticeReceive t g l seq pos) s
         (b |> modRx g (fun r => { r with clkStopped := true, clkStopSeq := some seq.toNat }) |> modClocks (runBit b.now g.val false))) ∧
       (G.rx.ts ≠ .active → Gives (.clockStopNoticeReceive t g l seq pos) s b)) ∧
     (let b := fun (lock : Bool) => modRx g (fun r => { r with clkStopped := false, clkStopSeq := none, clkLock := lock }) a;
       (G.rx.ts = .active → G.rx.clkStopped = true →
         Gives (.clockPreambleEnd t g true true) s (lockIsland g (b true)) ∧ Gives (.clockPreambleEnd t g true false) s (loseGallery g 0x1 (b false))) ∧
       (G.rx.ts ≠ .active ∨ G.rx.clkStopped = false → ∀ ok, Gives (.clockPreambleEnd t g true ok) s a)) ∧
     (∀ ok : Bool,
       (G.tx.preamble = true → G.tx.preambleAt + 1000 ≤ a.now → Gives (.clockPreambleEnd t g false ok) s (a
         |> modTx g (fun x => { x with preamble := false, clkIdle := false })
         |> tackLanes g ((List.range 8).filter fun p => G.lanes[laneOf p].txIdle && G.lanes[laneOf p].txWaking.isSome) 0 |> answerHeld g)) ∧
       (G.tx.preamble = false ∨ a.now < G.tx.preambleAt + 1000 → Gives (.clockPreambleEnd t g false ok) s a))) ∧
  (∀ (t : Nat) (g : GalIx) (l : LaneIx) (s : State), let a := begin t s
     let G := galAt a g
     hopRuns a g = true →
     (∀ (last : BitVec 10) (pos : BitVec 6), let b := takeHop g (.idleNotice last pos) a
       let p := (pos.extractLsb' 0 3).toNat
       let k := physOf G p
       let q := last.toNat
       let idle := fun (keep : Bool) => modLane g k fun L => { L with idleNote := some q, rxIdle := true, failed := keep, nextTry := none }
       let stop := modRx g fun r => if r.attempt.pos = p then { r with attempt := {}, prbsOn := false } else r
       let missed := G.rx.held || !keyGe (q, 0) (G.rx.walkSeq, 0) || G.rx.jumps.any fun j => !keyGe (q, 0) (j.restart, 0)
       let gives := fun (u : State) => Gives (.idleNoticeReceive t g l last pos) s u
       (G.rx.ts = .active → (laneAt a g k).failed = false → (laneAt a g k).rxIdle = false →
         gives (b |> idle false |> rxChange g (q + 1) (· &&& ~~~bit8 p) |> walkOn g)) ∧
       (G.rx.ts = .active → (laneAt a g k).failed = true → missed = false → gives (b |> idle true |> stop |> walkOn g)) ∧
       (G.rx.ts = .active → (laneAt a g k).failed = true → missed = true → gives (b |> idle false
         |> modRx g (fun r => { r with darnTimes := (r.darnTimes.reverse.eraseP fun e => e.2 == p).reverse }) |> stop |> walkOn g)) ∧
       (G.rx.ts ≠ .active ∨ (laneAt a g k).failed = false ∧ (laneAt a g k).rxIdle = true → gives b)) ∧
     (G.tx.ts = .active → txSet G.tx = 0#8 → txWaiting G = true → G.tx.preamble = false →
       Gives (.autoWake t g) s (a |> modTx g (fun x => { x with selfWoken := true, emptyAt := none }) |> wakeLanes g (galSet a g).idleMask)) ∧
     (G.tx.ts ≠ .active ∨ txSet G.tx ≠ 0#8 ∨ txWaiting G = false ∨ G.tx.preamble = true → Gives (.autoWake t g) s a) ∧
     (G.tx.selfWoken = true → txWaiting G = false →
       (G.tx.emptyAt = none → Gives (.idleReturn t g) s (modTx g (fun x => { x with emptyAt := some a.now }) a)) ∧
       (∀ e, G.tx.emptyAt = some e → e + 10000 ≤ a.now → Gives (.idleReturn t g) s
         (a |> modTx g (fun x => { x with selfWoken := false, emptyAt := none }) |> idleEnter g (galSet a g).idleMask (galSet a g).stopClock)) ∧
       (∀ e, G.tx.emptyAt = some e → a.now < e + 10000 → Gives (.idleReturn t g) s a)) ∧
     (G.tx.selfWoken = false ∨ txWaiting G = true → Gives (.idleReturn t g) s a) ∧
     (G.rx.ts = .active → ∀ b0 : Block, let L := laneAt a g l
       let d := descrambleBlk L.scram (if L.inverted then invertBits (isPam (G.rx.tread.getD 0)) 66 b0 else b0)
       let T := L.tack
       let z := fun (q : Nat) => lastBefore G.rx.fec q
       let took := fun (T' : TackState) => a |> modLane g l (fun L => { L with scram := d.1, tack := T' }) |> doIf (blkKind d.2 == .badLocal) (countLane 0x303 g l)
       let next := fun (q n : Nat) => T.rejoinSeq.getD q = q ∧ (T.rejoinSeq = none ∨ n + 1 = T.remaining)
       (∀ q n, tackOf d.2 = some (q, n) → next q n →
         let good := if T.seen + 1 > 32 then T.good + 1 else 0
         let T' : TackState := { running := true, rejoinSeq := some q, remaining := n, seen := T.seen + 1, good, confirmed := T.confirmed }
         (T.confirmed = true ∨ good < 32 → Gives (.tackBlockReceive t g l b0) s (took T')) ∧
         (T.confirmed = false → 32 ≤ good → Gives (.tackBlockReceive t g l b0) s (took { T' with confirmed := true }
           |> modLane g l (fun L => { L with rxIdle := false, idleNote := none, failed := false, nextTry := none, expectSeq := some q, seqErr := 0, cw := .locked,
                                             block := .locked, mkLock := true, mkMiss := 0, mkGap := 0, rxSlot := 0, rxSeq := (z q).1, seam := 16, badPeriod := false,
                                             startSeq := none, withheld := none, deskew := [], lastGood := (z q).1, lastSlot := (z q).2 })
           |> rxChange g q (· ||| bit8 (posOf G l))
           |> doIf (setAt G.rx G.rx.walkSeq == 0#8 && (nextChange G.rx G.rx.walkSeq).isNone) (fun u => u |> walkTo g (q, firstSlot G.rx.fec) |> enterPeriod g)))) ∧
       ((∀ q n, tackOf d.2 = some (q, n) → ¬ next q n) →
         Gives (.tackBlockReceive t g l b0) s (took { T with running := true, seen := T.seen + 1, good := 0 }))) ∧
     (G.rx.ts = .active → ∀ drift : Int, let L := laneAt a g l
       let limit := if (G.rx.tread.map isPam).getD false then 264 else 528
       let b := modLane g l (fun L => { L with tack := {}, live := if L.tack.running then trackPhase limit drift L.live else L.live }) a
       let q := L.tack.rejoinSeq.getD G.rx.walkSeq
       let z := lastBefore G.rx.fec q
       let fails := b |> raise 0x0206 (leBytes 1 g.val ++ leBytes 1 l.val ++ leBytes 2 q)
         |> modLane g l (fun L => { L with rxIdle := false, idleNote := none, failed := false, lastGood := z.1, lastSlot := z.2 }) |> laneFail g l 0x8
       (L.tack.running = false ∨ L.tack.confirmed = true → Gives (.tackBurstEnd t g l drift) s (walkOn g b)) ∧
       (L.tack.running = true → L.tack.confirmed = false →
         (L.failed = false → Gives (.tackBurstEnd t g l drift) s (walkOn g fails)) ∧
         (L.failed = true → Gives (.tackBurstEnd t g l drift) s (walkOn g (failedRejoin g (posOf G l) 1 fails))))))

/-! ## Hop training -/

/-- Leaving DETECT and running out of time: two terminations and the clock lane's start the transmitter at T0 on the lanes terminated, a clock lane's termination that is gone in DETECT
silences what had started, and other probes only note what they found; activity in DETECT is noted. A lost termination silences a transmitter in DETECT, fails a training with
reason 0x1 and does nothing to a gallery ACTIVE in both directions or in BACKOFF. A state held longer than its maximum ends as R121 says: EQUALISE of a receiver with the best settings found, EQUALISE of a
transmitter with every lane done, ALIGN of a receiver with the lanes in lock, CLOCK and ALIGN of a transmitter that re-steps with the next state, and any other by failing the attempt
with the reason of its state; nothing ends before its time, nor a state without a maximum. The end of BACKOFF enters DETECT, and not before its time.
EXCHANGE and EQUALISE: CAP and LANDING received in EXCHANGE are kept and may end it, a LANDING on an ACTIVE gallery that says something new is taken, and others do nothing. A
request in EQUALISE or in what leads to it, which it may begin, or for a lane that retrains in the background, with a new count sets the lane's coefficients, fixed ones staying, with an old one changes none; it is answered
with the coefficients now sent, again every 64 slots, and request 0x1F ends that lane's part. An answer keeps the far coefficients; the one awaited ends the request, and takes the
search of a lane that equalises one step on, or to its end. At the end of an adaptation window a lane takes what R60 makes of it, and the last of the windows that end a search ends it.
The model's own choices that it rests on: log entries 1, 11, 19, 110, 118, 119. -/
def Obligations.DetectionExchangeAndEqualise : Prop :=
  (∀ (t : Nat) (g : GalIx) (s : State), let a := begin t s
     let G := galAt a g
     hopRuns a g = true →
     (∀ (clk : Bool) (found : BitVec 8), G.tx.ts = .detect →
       let b := forAll allLanes (fun l => modLane g l fun L => { L with termination := found.getLsbD l.val }) a
       (G.tx.started = false → clk = true → 2 ≤ popcount found → Gives (.detectProbe t g clk found) s (b
         |> latchRx g |> latchTx g
         |> modTx g (fun x => { x with started := true, at_ := a.now, clkIdle := false })
         |> modRx g (fun r => { r with at_ := a.now })
         |> forAll allLanes (fun l => modLane g l fun L =>
             { L with coef := ((galSet a g).lanes[l].coef).getD (preset 0), txIdle := !found.getLsbD l.val || L.retired || L.retiredTx })
         |> emit (.sendAt g 0) |> startPeriod g |> leaveDetect g)) ∧
       (G.tx.started = true → clk = false → Gives (.detectProbe t g clk found) s (silence g b)) ∧
       ((G.tx.started = true ∧ clk = true ∨ G.tx.started = false ∧ (clk = false ∨ popcount found < 2)) → Gives (.detectProbe t g clk found) s b)) ∧
     (G.tx.ts ≠ .detect → ∀ clk found, Gives (.detectProbe t g clk found) s a) ∧
     (G.rx.ts ≠ .detect → Gives (.clockActivitySeen t g) s a) ∧
     (G.rx.ts = .detect → Gives (.clockActivitySeen t g) s (leaveDetect g (modRx g (fun r => { r with activity := true }) a))) ∧
     (G.rx.ts = .detect → Gives (.terminationLost t g) s (if G.tx.started then silence g a else a)) ∧
     (G.rx.ts = .backoff ∨ G.rx.ts = .active ∧ G.tx.ts = .active → Gives (.terminationLost t g) s a) ∧
     (G.rx.ts ≠ .detect → G.rx.ts ≠ .backoff → ¬ (G.rx.ts = .active ∧ G.tx.ts = .active) → Gives (.terminationLost t g) s (failAttempt g 0x1 false a)) ∧
     (let ends := fun (rx : Bool) (ts : TrainState) => (if rx then G.rx.ts else G.tx.ts) = ts ∧ (ts = .detect → G.tx.started = true) ∧
         ∃ m, stateMax ts (if rx then G.rx.tread.getD 0 else G.tx.tread.getD 0) = some m ∧ (if rx then G.rx.at_ else G.tx.at_) + m ≤ a.now
       let resteps := ¬ (fromDetect G = true ∧ G.farCap = none)
       (ends true .equalise → Gives (.trainTimerExpiry t g true) s (tryQual g (forceDone g a))) ∧
       (ends false .equalise → Gives (.trainTimerExpiry t g false) s
         (tryQual g (forAll (positions G.tx.lanes) (fun p => modLane g (laneOf p) fun L => { L with txDone := true }) a))) ∧
       (ends true .align → Gives (.trainTimerExpiry t g true) s (endAlign g a)) ∧
       (ends false .clock → resteps → Gives (.trainTimerExpiry t g false) s (modTx g (fun x => { x with ts := .align, at_ := a.now }) a)) ∧
       (ends false .align → resteps → Gives (.trainTimerExpiry t g false) s (modTx g (fun x => { x with ts := .equalise, at_ := a.now }) a)) ∧
       (∀ rx ts, ends rx ts → ts ≠ .equalise → ¬ (rx = true ∧ ts = .align) → ¬ (rx = false ∧ (ts = .clock ∨ ts = .align) ∧ resteps) →
         Gives (.trainTimerExpiry t g rx) s (failAttempt g (expiryReason ts) false a)) ∧
       (∀ (rx : Bool) m, stateMax (if rx then G.rx.ts else G.tx.ts) (if rx then G.rx.tread.getD 0 else G.tx.tread.getD 0) = some m →
         a.now < (if rx then G.rx.at_ else G.tx.at_) + m → Gives (.trainTimerExpiry t g rx) s a) ∧
       (∀ rx : Bool, stateMax (if rx then G.rx.ts else G.tx.ts) (if rx then G.rx.tread.getD 0 else G.tx.tread.getD 0) = none ∨
         (if rx then G.rx.ts else G.tx.ts) = .detect ∧ G.tx.started = false → Gives (.trainTimerExpiry t g rx) s a)) ∧
     (∀ e, G.backoffUntil = some e →
       (G.rx.ts = .backoff → e ≤ a.now → Gives (.backoffExpiry t g) s (enterDetect g a)) ∧
       (G.rx.ts ≠ .backoff ∨ a.now < e → Gives (.backoffExpiry t g) s a)) ∧
     (G.backoffUntil = none → Gives (.backoffExpiry t g) s a)) ∧
  (∀ (t : Nat) (g : GalIx) (l : LaneIx) (s : State), let a := begin t s
     let G := galAt a g
     hopRuns a g = true →
     (∀ c : Cap,
       (G.rx.ts = .exchange → Gives (.capReceive t g l c) s (a
         |> takeHop g (.cap c)
         |> modLane g l (fun L => { L with heardCap := some c, heard := some c.physLane.toNat })
         |> modGal g (fun G => { G with heardRx := G.heardRx || c.heard == 1#1 })
         |> exchange g)) ∧
       (G.rx.ts ≠ .exchange → Gives (.capReceive t g l c) s (takeHop g (.cap c) a))) ∧
     (∀ x : Landing, let b := takeHop g (.landing x) a
       let kept := modGal g fun G => { G with farLanding := some x }
       (G.rx.ts = .exchange → Gives (.landingReceive t g l x) s (exchange g (kept b))) ∧
       (∀ c, G.rx.ts = .active → G.farCap = some c →
         (G.farLanding ≠ some x → Gives (.landingReceive t g l x) s (kept (takeLanding g c.kind x b))) ∧
         (G.farLanding = some x → Gives (.landingReceive t g l x) s (kept b))) ∧
       (G.rx.ts ≠ .exchange → (G.rx.ts ≠ .active ∨ G.farCap = none) → Gives (.landingReceive t g l x) s b)) ∧
     (∀ (pos : BitVec 3) (n : BitVec 5) (q : BitVec 8), let k := laneOf pos.toNat
       let L := laneAt a g k
       let b := takeHop g (.eqReq pos n q) a
       let answered := fun (c : Coef) (u : State) => u
         |> modLane g k (fun L => { L with coef := c, reqCount := n.toNat, txDone := L.txDone || q == 0x1F#8 })
         |> sendRep g (.lane k.val) 64 none (.eqAck pos n (ibyte c.cm2) (ibyte c.cm1) (ibyte c.cp1) (ibyte c.cp2)) |> tryQual g
       let applies := fun (u : State) =>
         (n.toNat = L.reqCount → Gives (.eqReqReceive t g pos n q) s (answered L.coef u)) ∧
         (∀ c, n.toNat ≠ L.reqCount → (G.setTx.lanes[k]).coef = some c → Gives (.eqReqReceive t g pos n q) s (answered c u)) ∧
         (n.toNat ≠ L.reqCount → (G.setTx.lanes[k]).coef = none →
           Gives (.eqReqReceive t g pos n q) s (answered (requested L (mget? L.txSaved (G.tx.tread.getD 0).val) q.toNat) u))
       ((G.tx.ts = .equalise ∨ G.tx.ts = .active ∧ L.txFailed = true) → applies b) ∧
       ((G.tx.ts = .clock ∨ G.tx.ts = .align) → G.tx.mode = .back → applies b) ∧
       ((G.tx.ts = .clock ∨ G.tx.ts = .align) → G.tx.mode ≠ .back → applies (modTx g (fun x => { x with ts := .equalise, at_ := a.now }) b)) ∧
       (G.tx.ts ≠ .clock → G.tx.ts ≠ .align → G.tx.ts ≠ .equalise → ¬ (G.tx.ts = .active ∧ L.txFailed = true) → Gives (.eqReqReceive t g pos n q) s b)) ∧
     (∀ (pos : BitVec 3) (n : BitVec 5) (cm2 cm1 cp1 cp2 : BitVec 8) (areas : List Nat), let k := physOf G pos.toNat
       let L := laneAt a g k
       let c : Coef := ⟨sbyte cm2.toNat, sbyte cm1.toNat, sbyte cp1.toNat, sbyte cp2.toNat⟩
       let b := a |> takeHop g (.eqAck pos n cm2 cm1 cp1 cp2) |> modLane g k (fun L => { L with farCoef := c })
       let mine := fun (h : Hop) => match h with
         | .eqReq p _ _ => p == pos
         | _ => false
       (n.toNat ≠ L.eqCount → Gives (.eqAckReceive t g l pos n cm2 cm1 cp1 cp2 areas) s b) ∧
       (n.toNat = L.eqCount → let on := G.rx.ts = .equalise ∨ G.rx.ts = .active ∧ G.rx.attempt.step = 2 ∧ G.rx.attempt.pos = pos.toNat
         let still := L.search = .idle ∨ L.search = .done ∨ ∃ n k m, L.search = .adapt n k m
         let x := searchStep L c (G.rx.tread.getD 0) (G.setRx.presets.getD (G.rx.tread.getD 0).val 0) areas
         (¬ on ∨ still → Gives (.eqAckReceive t g l pos n cm2 cm1 cp1 cp2 areas) s (stopRep g mine b)) ∧
         (∀ peak area, on → L.search = .last peak area → Gives (.eqAckReceive t g l pos n cm2 cm1 cp1 cp2 areas) s (endSearch g pos.toNat peak (stopRep g mine b))) ∧
         (on → ¬ still → (∀ peak area, L.search ≠ .last peak area) → Gives (.eqAckReceive t g l pos n cm2 cm1 cp1 cp2 areas) s (stopRep g mine b
           |> modLane g k (fun L => { L with search := x.1, peak := x.2.2.1, area := x.2.2.2, live := { L.live with ctle := x.2.2.1 } })
           |> doIf (x.2.1 != 0) (eqRequest g pos.toNat x.2.1))))) ∧
     (∀ (sums : TapSums) (vga : BitVec 8) (drift : Int), let p := posOf G l
       let on := equalising G p
       let held := G.rx.ts == .active && ((laneAt a g l).failed || (laneAt a g l).rxIdle) && !on
       let set := (galSet a g).lanes[l]
       let b := modLane g l (fun L =>
         { L with live := adaptLane on held sums.acc vga drift L, sampled := vga, residuals := sums.residuals, vgaHoldNow := set.vgaHold,
                  modeNow := if L.modeNow = .fixed ∨ set.mode = .fixed then L.modeNow else set.mode }) a
       ((on = false ∨ ∀ n k x, (laneAt a g l).search ≠ .adapt n k x) → Gives (.adaptationWindowEnd t g l sums vga drift) s b) ∧
       (∀ n k x, on = true → (laneAt a g l).search = .adapt n k x →
         (n ≤ 1 → Gives (.adaptationWindowEnd t g l sums vga drift) s (endSearch g p k b)) ∧
         (2 ≤ n → Gives (.adaptationWindowEnd t g l sums vga drift) s (modLane g l (fun L => { L with search := .adapt (n - 1) k x }) b)))))

/-- QUALIFY and REPORT: the first QUAL starts QUALIFY on a receiver that has equalised, a later one tells how far the countdown is; the end of the countdown starts the pattern at
the receiver, and takes the transmitter through the slots left to the boundary at which it starts it; the pattern's end reports, of the lanes in training, those that passed at this tread, and has them lock again before RESULT; in a background attempt the lane passes on to step 4 or fails
the attempt. A RESULT settles the far transmitter, takes it up, down or back to another tread, or fails the attempt, as R138 decides; elsewhere it does nothing.
The model's own choices that it rests on: log entries 1, 11, 128. -/
def Obligations.QualifyAndReport : Prop :=
  ∀ (t : Nat) (g : GalIx) (l : LaneIx) (s : State), let a := begin t s
    let G := galAt a g
    hopRuns a g = true →
    (∀ (tread : BitVec 3) (fec : BitVec 1) (n : BitVec 16), let b := takeHop g (.qual tread fec n) a
      (G.rx.ts = .equalise ∨ G.rx.ts = .qualify ∧ G.rx.countdown = 0 ∧ G.rx.prbsOn = false → Gives (.qualReceive t g l tread fec n) s
        (b |> modRx g (fun r => { r with ts := .qualify, at_ := a.now, countdown := n.toNat, prbsOn := false }) |> stopRequests g)) ∧
      (G.rx.ts = .qualify ∧ G.rx.countdown ≠ 0 ∨ G.rx.ts = .active ∧ G.rx.attempt.step = 3 → G.rx.prbsOn = false →
        Gives (.qualReceive t g l tread fec n) s (modRx g (fun r => { r with countdown := n.toNat }) b)) ∧
      (G.rx.ts = .qualify ∨ G.rx.ts = .active → G.rx.prbsOn = true → Gives (.qualReceive t g l tread fec n) s b) ∧
      (G.rx.ts ≠ .equalise → G.rx.ts ≠ .qualify → ¬ (G.rx.ts = .active ∧ G.rx.attempt.step = 3) → Gives (.qualReceive t g l tread fec n) s b)) ∧
    (G.rx.ts = .qualify ∨ G.rx.ts = .active ∧ G.rx.attempt.step = 3 →
      Gives (.qualCountdownEnd t g true) s (modRx g (fun r => { r with countdown := 0, prbsOn := true }) a)) ∧
    (G.rx.ts ≠ .qualify → ¬ (G.rx.ts = .active ∧ G.rx.attempt.step = 3) → Gives (.qualCountdownEnd t g true) s a) ∧
    (let pass := fun (n : Nat) => let b := passSlots g n a
        Gives (.qualCountdownEnd t g false) s (if (galAt b g).tx.prbsUntil.isSome then b else passPeriod g b);
      (G.tx.prbsUntil = none → G.tx.ts = .qualify → pass G.tx.countdown) ∧
      (∀ p n, G.tx.prbsUntil = none → G.tx.ts = .active → G.tx.laneQual = some (p, n) → pass n) ∧
      (G.tx.prbsUntil.isSome = true ∨ G.tx.ts ≠ .qualify ∧ ¬ (G.tx.ts = .active ∧ G.tx.laneQual.isSome = true) → Gives (.qualCountdownEnd t g false) s a)) ∧
    (∀ results : List LaneQual, let good := fun (p : Nat) => qualPasses (G.rx.tread.getD 0) G.rx.fec (results.getD (physOf G p).val ⟨false, 0, 0, 0⟩)
      (G.rx.ts = .qualify → Gives (.qualifyEnd t g results) s (a |> relockLanes g
        |> modRx g (fun x => { x with ts := .report, at_ := a.now, qual := results, pass := bitmap ((positions G.rx.lanes).filter good), result := none, prbsOn := false })
        |> tryResult g)) ∧
      (G.rx.ts = .active → G.rx.attempt.step = 3 →
        (good G.rx.attempt.pos = true → Gives (.qualifyEnd t g results) s (a
          |> modRx g (fun r => { r with attempt := { r.attempt with step := 4, at_ := a.now }, prbsOn := false }) |> laneCheck g G.rx.attempt.pos 2#3)) ∧
        (good G.rx.attempt.pos = false → Gives (.qualifyEnd t g results) s (failedRejoin g G.rx.attempt.pos 3 a))) ∧
      (G.rx.ts ≠ .qualify → ¬ (G.rx.ts = .active ∧ G.rx.attempt.step = 3) → Gives (.qualifyEnd t g results) s a)) ∧
    (∀ r : ResultBlk, let x := G.tx
      let tread := x.tread.getD 0
      let n := popcount r.passed
      let b := a |> takeHop g (.result r) |> modTx g (fun x => { x with prbsUntil := none, countdown := 0 })
        |> doIf (decide (n ≥ max 2 x.floor)) (forAll (positions r.passed) fun p => modLane g (laneOf p) fun L => { L with txSaved := mput L.txSaved tread.val L.coef })
      let tells := fun (q : Tread) (action : BitVec 2) (lanes : BitVec 8) =>
        ({ toTread := BitVec.ofNat 3 q.val, fec := BitVec.ofBool (fecAt q G.fecT3), action, boundary := BitVec.ofNat 10 ((x.seq + 4) % 1024), lanes } : StepBlk)
      let decision := decide138 tread x.first x.mode x.goal x.target x.floor x.prev G.fecT3 n
      (x.ts ≠ .qualify → x.ts ≠ .report → Gives (.resultReceive t g r) s (takeHop g (.result r) a)) ∧
      (x.ts = .qualify ∨ x.ts = .report →
        (decision = .settle → Gives (.resultReceive t g r) s (b |> sendRep g .all 64 none (.step (tells tread 2#2 r.passed))
          |> modTx g (fun y => { y with ts := .settled, at_ := a.now, lanes := r.passed, below := x.target.any fun q => decide (tread.val < q.val) }))) ∧
        (∀ q action m, decision = .goTo q action m → let lanes := if m = .up then r.passed else x.lanes;
          Gives (.resultReceive t g r) s (b |> sendRep g .all 64 none (.step (tells q action lanes))
            |> modTx g (fun y => { y with ts := .switching, at_ := a.now, stepTo := some (tells q action lanes), mode := m,
                                          fell := if m = .back then y.fell ++ [tread] else y.fell, prev := if m = .up then some (tread, n) else y.prev }))) ∧
        (decision = .fails → Gives (.resultReceive t g r) s (failAttempt g 0x7 (x.goal.isSome && x.mode == .down) b))))

/-- Steps, guards and activation: a STEP settles a receiver that reported, or names the tread it switches to; one for an ACTIVE receiver raises `gallery.step_started` and is repeated
without effect; a boundary begins the guard of an ACTIVE direction, or the new tread of one that switches; a guard of 8 us ends in SWITCHING, and not before. ACTIVATE goes out and
striping starts once both directions have settled, or of a re-step the other is ACTIVE; it starts the walk of a settled receiver at the period it names, and does nothing to another. A new request to retrain
is answered where both directions are ACTIVE and step-free, and held where not; one already seen does nothing. A window of 100 ms whose errors lie above the threshold asks for a step
down, and 10 minutes without a trigger ask for one step up, each not before its time.
The model's own choices that it rests on: log entries 1, 11, 113, 131, 133. -/
def Obligations.StepsAndActivation : Prop :=
  ∀ (t : Nat) (g : GalIx) (s : State), let a := begin t s
    let G := galAt a g
    hopRuns a g = true →
    (∀ b : StepBlk,
      let r := G.rx
      let c := a |> takeHop g (.step b) |> stopRep g (fun h => match h with
        | .result _ => true
        | _ => false)
      let q := treadOf b.toTread.toNat
      let m : StepMode := if b.action = 0#2 then .up else if b.action = 1#2 then .back else .down
      let n := (r.result.map fun e => popcount e.passed).getD (popcount r.pass)
      let old := r.tread.getD 0
      (r.ts = .report → b.action = 2#2 → Gives (.stepReceive t g b) s (modRx g (fun r =>
        { r with ts := .settled, at_ := a.now, lanes := b.lanes, tread := some q, below := G.rx.target.any fun e => decide (q.val < e.val), result := none, doomed := false }) c)) ∧
      (r.ts = .report → b.action ≠ 2#2 → Gives (.stepReceive t g b) s (modRx g (fun r =>
        { r with ts := .switching, at_ := a.now, stepTo := some b, lanes := b.lanes, result := none, doomed := false, mode := m,
                 fell := if m = .back then r.fell ++ [old] else r.fell, prev := if m = .up then some (old, n) else r.prev }) c)) ∧
      (r.ts = .active → r.stepTo ≠ some b → Gives (.stepReceive t g b) s (a |> takeHop g (.step b)
        |> stopRep g (fun h => match h with
            | .retrain _ => true
            | _ => false)
        |> modRx g (fun r => { r with stepTo := some b, goal := some q, first := q, oldTread := some old, prev := some (old, popcount r.active), fell := [],
                                      mode := if b.action = 0#2 then .up else .down })
        |> raise 0x0303 (leBytes 1 g.val ++ leBytes 1 0 ++ leBytes 1 old.val ++ leBytes 1 q.val ++ leBytes 1 r.stepReason.toNat))) ∧
      (G.rx.ts = .active → G.rx.stepTo = some b → Gives (.stepReceive t g b) s (takeHop g (.step b) a)) ∧
      (G.rx.ts ≠ .report → G.rx.ts ≠ .active → Gives (.stepReceive t g b) s (takeHop g (.step b) a))) ∧
    (∀ b : StepBlk, G.rx.stepTo = some b →
      (G.rx.ts = .active → Gives (.stepBoundary t g true) s (a |> walk g 2048 |> cancelAttempt g |> modRx g (fun r => { r with
            ts := .guarding, at_ := a.now,
            lanes := b.lanes &&& bitmap ((List.range 8).filter fun p => let L := laneAt a g (physOf G p)
              !L.retired && !L.miswired) })
        |> reportCapacity g |> switchAway g)) ∧
      (G.rx.ts = .switching → Gives (.stepBoundary t g true) s (rxClock g (treadOf b.toTread.toNat) a))) ∧
    (∀ b : StepBlk, G.tx.stepTo = some b → let c := passTo g ((b.boundary.toNat + 1) % 1024) 1024 a
      (G.tx.ts = .active → Gives (.stepBoundary t g false) s (c |> modTx g (fun x => { x with
          ts := .guarding, at_ := a.now, frozenRing := true, laneQual := none, prbsUntil := none, readyWait := none, checkSeen := none })
        |> reportCapacity g |> switchAway g)) ∧
      (G.tx.ts = .switching → Gives (.stepBoundary t g false) s (c |> modTx g (fun x => { x with lanes := b.lanes }) |> txStart g (treadOf b.toTread.toNat)))) ∧
    (G.rx.stepTo = none ∨ G.rx.ts ≠ .active ∧ G.rx.ts ≠ .switching → Gives (.stepBoundary t g true) s a) ∧
    (G.tx.stepTo = none ∨ G.tx.ts ≠ .active ∧ G.tx.ts ≠ .switching → Gives (.stepBoundary t g false) s a) ∧
    (G.rx.ts = .guarding → G.rx.at_ + 8000 ≤ a.now → Gives (.guardEnd t g true) s (a |> latchRx g |> modRx g (fun r => { r with ts := .switching, at_ := a.now }))) ∧
    (G.rx.ts ≠ .guarding ∨ a.now < G.rx.at_ + 8000 → Gives (.guardEnd t g true) s a) ∧
    (G.tx.ts = .guarding → G.tx.at_ + 8000 ≤ a.now → Gives (.guardEnd t g false) s (a |> latchTx g |> modTx g (fun x =>
      { x with ts := .switching, at_ := a.now, frozenRing := false, ring := [], superseded := [] }))) ∧
    (G.tx.ts ≠ .guarding ∨ a.now < G.tx.at_ + 8000 → Gives (.guardEnd t g false) s a) ∧
    (txReady G = true → let re := G.tx.goal.isSome
      Gives (.activateSend t g) s (a |> startStriping g (if re then ((G.tx.reBoundary.getD G.tx.seq) + 1) % 1024 else 0)
        |> doIf (!re) (startCreditsTx g) |> startPeriod g |> startProbe g |> doIf (G.rx.ts == .active) (sendCredits g) |> reportCapacity g
        |> doIf re (reportStep g 1 (G.tx.tread.getD 0) G.tx.oldTread (popcount G.tx.lanes))
        |> doIf ((galSet a g).idleMask != 0#8) (idleEnter g (galSet a g).idleMask (galSet a g).stopClock) |> afterActive g (fromDetect G))) ∧
    (txReady G = false → Gives (.activateSend t g) s a) ∧
    (∀ (tread : BitVec 3) (fec : BitVec 1) (m : BitVec 8) (n : BitVec 10),
      (G.rx.ts = .settled → let re := G.rx.goal.isSome
        Gives (.activateReceive t g tread fec m n) s (a |> takeHop g (.activate tread fec m n)
          |> startWalk g (treadOf tread.toNat) (fec == 1#1) m n.toNat |> startCreditsRx g re |> reportCapacity g
          |> doIf re (reportStep g 0 (treadOf tread.toNat) G.rx.oldTread (popcount m)) |> afterActive g (fromDetect G))) ∧
      (G.rx.ts ≠ .settled → Gives (.activateReceive t g tread fec m n) s (takeHop g (.activate tread fec m n) a))) ∧
    (∀ r : RetrainBlk,
      (G.tx.lastReq = some r.reqId.toNat → Gives (.retrainReceive t g r) s (takeHop g (.retrain r) a)) ∧
      (G.tx.lastReq ≠ some r.reqId.toNat → stepFree (galAt (takeHop g (.retrain r) a) g) = true → Gives (.retrainReceive t g r) s (answerRetrain g r (takeHop g (.retrain r) a))) ∧
      (G.tx.lastReq ≠ some r.reqId.toNat → stepFree (galAt (takeHop g (.retrain r) a) g) = false →
        Gives (.retrainReceive t g r) s (modTx g (fun x => { x with heldRetrain := some r }) (takeHop g (.retrain r) a)))) ∧
    (∀ bits : Nat, G.rx.ts = .active → let b := modRx g (fun r => { r with winErr := 0, winAt := a.now }) a
      let tooMany := if G.rx.fec then 24 * bits < G.rx.winErr * 100000 else 4 < G.rx.winErr
      (a.now < G.rx.winAt + 100000000 → Gives (.stepDownWindow t g bits) s a) ∧
      (G.rx.winAt + 100000000 ≤ a.now → tooMany → Gives (.stepDownWindow t g bits) s (stepDownTrigger g b)) ∧
      (G.rx.winAt + 100000000 ≤ a.now → ¬ tooMany → Gives (.stepDownWindow t g bits) s b)) ∧
    (∀ q, G.rx.ts = .active → G.rx.quietSince = some q →
      let due := (galSet a g).reclimb = true ∧ G.rx.steppedDown = true ∧ q + 600000000000 ≤ a.now ∧ (G.rx.tread.getD 0).val < (G.rx.target.getD 5).val
      (due → Gives (.reclimbTimer t g) s (a |> modRx g (fun r => { r with quietSince := some a.now }) |> requestStep g ((G.rx.tread.getD 0).val + 1) 0x3)) ∧
      (¬ due → Gives (.reclimbTimer t g) s a)) ∧
    (G.rx.ts ≠ .active ∨ G.rx.quietSince = none → Gives (.reclimbTimer t g) s a) ∧
    (G.rx.ts ≠ .active → ∀ bits, Gives (.stepDownWindow t g bits) s a)

/-! ## Darning -/

/-- Loss reports and replay: a new report on a transmitter that is ACTIVE or in GUARD and lies within what it has sent is noted and answered, one outside is noted and counted, a
repeated one or one in another state does no more. While its own report waits the receiver sends it again, after 4 us, and not before, as a new one with the next identity. The REPLAY
that answers it ends the discard and the report's repeats, and has the walk go on at the restart period with the set it names and without the lanes still darned, whose next attempts
wait 1 ms at least; one without loss counts nothing else, the others count in 0x423; a REPLAY that answers nothing does nothing.
The model's own choices that it rests on: log entries 12, 18, 19, 117. -/
def Obligations.LossReportsAreAnsweredByReplay : Prop :=
  ∀ (t : Nat) (g : GalIx) (s : State), let a := begin t s
    let G := galAt a g
    hopRuns a g = true →
    (∀ l : LossBlk, let b := takeHop g (.loss l) a
      let c := modTx g (fun x => { x with lastReport := some l.reportId.toNat }) b
      (G.tx.ts = .active ∨ G.tx.ts = .guarding → G.tx.lastReport ≠ some l.reportId.toNat →
        (reportFits G.tx l = true → Gives (.lossReceive t g l) s (answerLoss g l c)) ∧
        (reportFits G.tx l = false → Gives (.lossReceive t g l) s (countGal 0x425 g 0 c))) ∧
      (G.tx.lastReport = some l.reportId.toNat ∨ G.tx.ts ≠ .active ∧ G.tx.ts ≠ .guarding → Gives (.lossReceive t g l) s b)) ∧
    (G.rx.held = true → Gives (.lossReportRepeat t g) s (sendLoss g a)) ∧
    (G.rx.held = false → Gives (.lossReportRepeat t g) s a ∧ Gives (.lossReportRetry t g) s a) ∧
    (a.now < G.rx.reportAt + 4000 → Gives (.lossReportRetry t g) s a) ∧
    (G.rx.held = true → G.rx.reportAt + 4000 ≤ a.now → Gives (.lossReportRetry t g) s (a
      |> modRx g (fun r => { r with reportId := (r.reportId + 1) % 16, reportAt := a.now })
      |> sendLoss g |> abandonRx g (physOf G (((positions (failedMap G)).head?).getD 0)))) ∧
    (∀ r : ReplayBlk, let b := takeHop g (.replay r) a
      let q := r.restartSeq.toNat
      let later := (G.rx.nextActive.filter fun e => !keyGe (q, 0) (e.1, 0)).map fun e => (e.1, e.2 &&& ~~~failedMap G)
      let u := b
        |> modGal g (fun H => { H with
            lanes := H.lanes.map fun L => if L.failed && !L.retired then { L with nextTry := some (max (L.nextTry.getD 0) (a.now + 1000000)) } else L
            rx := { H.rx with held := false, nextActive := (q, r.active) :: later, attempt := if H.rx.attempt.step ≥ 4 then {} else H.rx.attempt,
                              jumps := H.rx.jumps ++ [{ seq := G.rx.heldSeq, slot := G.rx.heldSlot, restart := q, lossless := r.lossless == 1#1 }] } })
        |> stopRep g (fun h => match h with
            | .loss _ => true
            | _ => false)
      let answers := G.rx.held = true ∧ r.reportId.toNat = G.rx.reportId
      (answers → r.lossless = 1#1 → Gives (.replayReceive t g r) s (walkOn g u)) ∧
      (answers → r.lossless = 0#1 → Gives (.replayReceive t g r) s (walkOn g (countGal 0x423 g 0 u))) ∧
      (¬ answers → Gives (.replayReceive t g r) s (walkOn g b)))

/-- Rejoin: where no attempt and no REJOIN runs, and neither a discard nor a step, the lowest darned lane whose wait is over starts to relock; a step that runs past its limit is a
failed rejoin, and none within it. For a darned transmit lane `qualify` starts QUAL on it alone, and `ready` waits for the side-band, for 0.1 ms and no longer, each identity once;
`retire` retires a lane for good and reports it, and takes it out of striping or its drive off. A REJOIN adds a darned lane to the receive set from the period it names, which ends
the attempt.
The model's own choices that it rests on: log entries 1, 22, 120. -/
def Obligations.DarnedLanesRejoin : Prop :=
  ∀ (t : Nat) (g : GalIx) (s : State), let a := begin t s
    let G := galAt a g
    let k := G.rx.attempt
    hopRuns a g = true →
    (let may := G.rx.ts = .active ∧ k.step = 0 ∧ G.rx.held = false ∧ G.rx.rejoin = none ∧ G.rx.stepTo = none;
      let due := fun (p : Nat) => attemptDue a.now (laneAt a g (physOf G p))
      (∀ p, may → p < 8 → due p = true → (∀ q, q < p → due q = false) → Gives (.rejoinAttemptStart t g) s (a
        |> modRx g (fun r => { r with attempt := { pos := p, step := 1, at_ := a.now } })
        |> modLane g (physOf G p) (fun L => { unlock L with nextTry := none, seam := 16 }))) ∧
      (¬ may ∨ (∀ p, p < 8 → due p = false) → Gives (.rejoinAttemptStart t g) s a)) ∧
    (let lim := if k.step = 2 then equaliseMax (G.rx.tread.getD 0) else if k.step = 3 then 1400000 else 100000;
      (G.rx.ts = .active → k.step ≠ 0 → k.at_ + lim ≤ a.now → Gives (.rejoinAttemptLimit t g) s (failedRejoin g k.pos k.step a)) ∧
      (G.rx.ts ≠ .active ∨ k.step = 0 ∨ a.now < k.at_ + lim → Gives (.rejoinAttemptLimit t g) s a)) ∧
    (∀ (pos : BitVec 3) (id : BitVec 16), let l := laneOf pos.toNat
      let b := fun (code : BitVec 3) => takeHop g (.laneCheck pos code id) a
      let takes := G.tx.ts = .active ∧ G.tx.checkSeen ≠ some id.toNat ∧ (laneAt a g l).txFailed = true
      (takes → Gives (.laneCheckQualify t g pos id) s (b 1#3
          |> modTx g (fun x => { x with checkSeen := some id.toNat, laneQual := some (pos.toNat, 256), prbsUntil := none })
          |> stopRep g (fun h => match h with
              | .eqAck p .. => p == pos
              | _ => false)
          |> emit (.hop g (bit8 pos.toNat) (.qual (BitVec.ofNat 3 (G.tx.tread.getD 0).val) (BitVec.ofBool G.tx.fec) 256#16))) ∧
        Gives (.laneCheckReady t g pos id) s (b 2#3
          |> modTx g (fun x => { x with checkSeen := some id.toNat, readyWait := some (pos.toNat, a.now) }) |> tryRejoin g)) ∧
      (¬ takes → Gives (.laneCheckQualify t g pos id) s (b 1#3) ∧ Gives (.laneCheckReady t g pos id) s (b 2#3)) ∧
      (let c := b 3#3
          |> modTx g (fun x => { x with checkSeen := some id.toNat, readyWait := if (x.readyWait.map (·.1)) = some pos.toNat then none else x.readyWait,
                                        laneQual := if (x.laneQual.map (·.1)) = some pos.toNat then none else x.laneQual })
          |> modLane g l (fun L => { L with retiredTx := true, txFailed := false })
          |> raise 0x0204 (leBytes 1 g.val ++ leBytes 1 l.val ++ leBytes 1 1);
        let strips := (txSet G.tx ||| G.tx.active).getLsbD pos.toNat
        (G.tx.ts = .active → (laneAt a g l).retiredTx = false →
          (strips = true → Gives (.laneCheckRetire t g pos id) s (idleEnter g (bit8 pos.toNat) false c)) ∧
          (strips = false → Gives (.laneCheckRetire t g pos id) s (driveOff g pos.toNat c))) ∧
        (G.tx.ts ≠ .active ∨ (laneAt a g l).retiredTx = true → Gives (.laneCheckRetire t g pos id) s (b 3#3)))) ∧
    (∀ (p e : Nat), G.tx.readyWait = some (p, e) →
      (e + 100000 ≤ a.now → Gives (.sidebandWaitExpiry t g) s (modTx g (fun x => { x with readyWait := none }) a)) ∧
      (a.now < e + 100000 → Gives (.sidebandWaitExpiry t g) s a)) ∧
    (G.tx.readyWait = none → Gives (.sidebandWaitExpiry t g) s a) ∧
    (∀ r : RejoinBlk, let p := r.pos.toNat
      let q := r.rejoinSeq.toNat
      let l := physOf G p
      let z := lastBefore G.rx.fec q
      let b := takeHop g (.rejoin r) a
      let takes := G.rx.ts = .active ∧ (laneAt a g l).failed = true ∧ (laneAt a g l).retired = false ∧ G.rx.held = false ∧ G.rx.rejoin = none
      (takes → Gives (.rejoinReceive t g r) s (b |> rxChange g q (· ||| bit8 p)
        |> modRx g (fun x => { x with nextActive := x.nextActive.map fun e => if e.1 = q then (q, r.active) else e })
        |> modLane g l (fun L => { L with deskew := [], lastGood := z.1, lastSlot := z.2, startSeq := none })
        |> modRx g (fun x => { x with rejoin := some (p, q), attempt := if x.attempt.pos = p then {} else x.attempt })
        |> stopRep g (fun h => match h with
            | .laneCheck k _ _ => k == r.pos
            | _ => false)
        |> walkOn g)) ∧
      (¬ takes → Gives (.rejoinReceive t g r) s (walkOn g b)))

/-! ## Credits -/

/-- What the far end tells of credits, where the receive direction takes hop-control blocks: a limit that advances by less than 2,048 is taken and one that does not is counted; INFO is
kept; a PROBE is echoed once; the ECHO of the outstanding probe gives the round trip in 10 ns steps, rounded up, and any other changes nothing; SENT blocks recover what was lost on
the way, once the walk has come to the period that brought them.
Credits by time, on an ACTIVE transmitter: each credit block whose advance has waited 1 us is sent, and not before; every 10 us the limits advance and both blocks are sent; every
100 us SENT carries the counts; every 100 ms a probe takes the next identity and notes its moment; none of them before its time. A message class turns idle 20 us after its bobbin
emptied, if the far end demands nothing, and not before.
The model's own choices that it rests on: log entries 1, 19, 131. -/
def Obligations.CreditsAreTakenAndSent : Prop :=
  (∀ (t : Nat) (g : GalIx) (s : State), let a := begin t s
     let G := galAt a g
     hopRuns a g = true → takesHops G.rx.ts = true →
     (let takes := fun (k : Cls) (v : Nat) (u : State) =>
         if modSub 4096 v (cget (galAt u g).ctx.limit k) < 2048 then
           modGal g (fun H => { H with ctx := { H.ctx with limit := cset H.ctx.limit k v } }) u
         else countGal 0x438 g 0 u;
       (∀ (px pm : BitVec 12) (d : BitVec 4), Gives (.creditAReceive t g px pm d) s
         (a |> takeHop g (.creditA px pm d) |> takes .px px.toNat |> takes .pm pm.toNat |> takeDemand g d)) ∧
       (∀ (np cp : BitVec 12) (d : BitVec 4), Gives (.creditBReceive t g np cp d) s
         (a |> takeHop g (.creditB np cp d) |> takes .np np.toNat |> takes .cp cp.toNat |> takeDemand g d))) ∧
     (∀ quota reach : BitVec 12, Gives (.infoReceive t g quota reach) s (a |> takeHop g (.info quota reach)
       |> modGal g (fun H => { H with ctx := { H.ctx with farQuotaPx := quota.toNat, farReachPx := reach.toNat } }) |> reportAs true g)) ∧
     (∀ id : BitVec 8, let b := takeHop g (.probe id) a
       (G.ctx.echoedId ≠ some id.toNat → Gives (.probeReceive t g id) s
         (b |> modGal g (fun H => { H with ctx := { H.ctx with echoedId := some id.toNat } }) |> sendCredit g (.echo id))) ∧
       (G.ctx.echoedId = some id.toNat → Gives (.probeReceive t g id) s b)) ∧
     (∀ id : BitVec 8, let b := takeHop g (.echo id) a
       (∀ e, G.ctx.probeAt = some e → id.toNat = G.ctx.probeId → Gives (.echoReceive t g id) s
         (b |> modGal g (fun H => { H with ctx := { H.ctx with probeAt := none, rtt := ceilDiv (a.now - e) 10 } }) |> reportAs true g)) ∧
       (G.ctx.probeAt = none ∨ id.toNat ≠ G.ctx.probeId → Gives (.echoReceive t g id) s b)) ∧
     (∀ px pm : BitVec 20, let h : Hop := .sentA px pm
       let q := hopPeriod G.rx h
       (keyGe (G.rx.walkSeq, 0) (q, 0) = true → Gives (.sentAReceive t g px pm) s (a |> takeHop g h |> recover g .px px.toNat |> recover g .pm pm.toNat)) ∧
       (keyGe (G.rx.walkSeq, 0) (q, 0) = false → Gives (.sentAReceive t g px pm) s (a |> takeHop g h |> modRx g (fun r => { r with sentWait := r.sentWait ++ [(q, h)] })))) ∧
     (∀ np cp : BitVec 20, let h : Hop := .sentB np cp
       let q := hopPeriod G.rx h
       (keyGe (G.rx.walkSeq, 0) (q, 0) = true → Gives (.sentBReceive t g np cp) s (a |> takeHop g h |> recover g .np np.toNat |> recover g .cp cp.toNat)) ∧
       (keyGe (G.rx.walkSeq, 0) (q, 0) = false → Gives (.sentBReceive t g np cp) s (a |> takeHop g h |> modRx g (fun r => { r with sentWait := r.sentWait ++ [(q, h)] }))))) ∧
  (∀ (t : Nat) (g : GalIx) (s : State), let a := begin t s
     let G := galAt a g
     hopRuns a g = true →
     (G.tx.ts = .active →
       (let waited := fun (x : Option Nat) => ∃ e, x = some e ∧ e + 1000 ≤ a.now;
         (waited G.crx.advancedA → ¬ waited G.crx.advancedB → Gives (.creditPendingTimeout t g) s (sendCreditA g a)) ∧
         (¬ waited G.crx.advancedA → waited G.crx.advancedB → Gives (.creditPendingTimeout t g) s (sendCreditB g a)) ∧
         (waited G.crx.advancedA → waited G.crx.advancedB → Gives (.creditPendingTimeout t g) s (sendCreditB g (sendCreditA g a))) ∧
         (¬ waited G.crx.advancedA → ¬ waited G.crx.advancedB → Gives (.creditPendingTimeout t g) s a)) ∧
       (elapsed a.now 10000 G.crx.refreshAt = true → Gives (.creditRefresh t g) s (a |> advance g
         |> modGal g (fun H => { H with crx := { H.crx with refreshAt := some a.now } }) |> sendCreditA g |> sendCreditB g)) ∧
       (elapsed a.now 10000 G.crx.refreshAt = false → Gives (.creditRefresh t g) s a) ∧
       (elapsed a.now 100000 G.ctx.sentAt = true → Gives (.sentPeriod t g) s (a
         |> modGal g (fun H => { H with ctx := { H.ctx with sentAt := some a.now } }) |> sendSent g)) ∧
       (elapsed a.now 100000 G.ctx.sentAt = false → Gives (.sentPeriod t g) s a) ∧
       (elapsed a.now 100000000 G.ctx.probedAt = true → let id := (G.ctx.probeId + 1) % 256
         Gives (.probePeriod t g) s (a |> modGal g (fun H => { H with ctx := { H.ctx with probeId := id, probeAt := some a.now, probedAt := some a.now } })
           |> sendCredit g (.probe (BitVec.ofNat 8 id)))) ∧
       (elapsed a.now 100000000 G.ctx.probedAt = false → Gives (.probePeriod t g) s a)) ∧
     (G.tx.ts ≠ .active → Gives (.creditPendingTimeout t g) s a ∧ Gives (.creditRefresh t g) s a ∧ Gives (.sentPeriod t g) s a ∧ Gives (.probePeriod t g) s a) ∧
     (∀ k : Cls, let x := G.crx
       let due := k ≠ .px ∧ cget x.demand k = false ∧ cget x.stored k = 0 ∧ cget x.quietAt k + 20000 ≤ a.now
       (due → Gives (.classIdleTimeout t g k) s (updateLimits g (modGal g (fun H => { H with crx := { H.crx with busy := cset H.crx.busy k false } }) a))) ∧
       (¬ due → Gives (.classIdleTimeout t g k) s a)))

/-! ## Placement -/

/-- Records reach the placement inputs while the Cutter is clocked: announcements from a North gallery and claims from a South one, record by record, a claim in place of the same
claimant's; a malformed message or record is only counted. A driver fault from a South gallery of a region that leaves here is kept and trips monitor 5 where its kind is selected, and
does nothing where it is not, or the region leaves nowhere here, or the message is malformed; its end takes it away, and clears the monitor with the last one.
The model's own choices that it rests on: log entry 25. -/
def Obligations.PlacementRecordsAreTaken : Prop :=
  ∀ (t : Nat) (g : GalIx) (p : Parcel) (s : State), let a := begin t s
    let b := takeQueued g p a
    active a = true →
    (gateOn a 17 = true → isNorth g = true → pKind p = 0x05 →
      (recordsOf p.payload = none → Gives (.announceReceive t g p) s (countDev 0x507 0 b)) ∧
      (∀ l, recordsOf p.payload = some l → Gives (.announceReceive t g p) s (forAll l (fun x u => match annOf (pSrc p) a.now x with
        | some (r, w, k) => takeAnn g r w k u
        | none => countDev 0x507 0 u) b))) ∧
    (gateOn a 17 = true → isNorth g = false → pKind p = 0x06 →
      (recordsOf p.payload = none → Gives (.claimReceive t g p) s (countDev 0x507 0 b)) ∧
      (∀ l, recordsOf p.payload = some l → Gives (.claimReceive t g p) s (forAll l (fun x u => match claimOf g a.now x with
        | some (r, c) => modRegionIn r (fun i => { i with claims := (i.claims.filter fun k => k.gallery != g.val || k.claimant != c.claimant) ++ [c] }) u
        | none => countDev 0x507 0 u) b))) ∧
    (gateOn a 17 = false → Gives (.announceReceive t g p) s a ∧ Gives (.claimReceive t g p) s a) ∧
    (isNorth g = false → pKind p = 0x07 → let w := field p.payload 0 2
      let r := bits w 11 0
      let kind := bits w 13 12
      let driver := BitVec.ofNat 64 (field p.payload 8 8)
      let old := (monAt b r g).faults
      let rest := old.filter fun f => f.1 != driver || f.2.1 != kind
      let good := p.payload.length = 16 ∧ kind ≠ 0
      let takes := leavesHere b r = true ∧ (par1 b r 5).testBit (kind - 1) = true
      (¬ good → Gives (.driverFaultReceive t g p) s b) ∧
      (good → bitOf w 14 = false → takes →
        Gives (.driverFaultReceive t g p) s (b |> modMon r g (fun m => { m with faults := rest ++ [(driver, kind, a.now)] }) |> tripMon 5 r g)) ∧
      (good → bitOf w 14 = false → ¬ takes → Gives (.driverFaultReceive t g p) s b) ∧
      (good → bitOf w 14 = true → rest.length = old.length → Gives (.driverFaultReceive t g p) s b) ∧
      (good → bitOf w 14 = true → rest.length ≠ old.length → rest ≠ [] → Gives (.driverFaultReceive t g p) s (modMon r g (fun m => { m with faults := rest }) b)) ∧
      (good → bitOf w 14 = true → rest.length ≠ old.length → rest = [] →
        Gives (.driverFaultReceive t g p) s (b |> modMon r g (fun m => { m with faults := [] }) |> clearMon 5 r g)))

/-- Runs of the Cutter: in AUTO, or in MANUAL by a forced trigger that holds, one that may run freezes its inputs, and one asked for during a run follows it; a run that ends writes its
entries, one that was discarded or lost its table writes nothing. A pending entry takes effect 250 ms after it was written and not before, if no cut mark brought it; the input of a dual
region whose cut mark is overdue by 1.5 periods is switched where the other has come later, and not otherwise; records expire after 3 s and not before; and a PLACED device originates
the announcements of what it passes on and its own claims once per second.
The model's own choices that it rests on: log entries 29, 32, 34, 38, 126, 131. -/
def Obligations.TheCutterPlaces : Prop :=
  ∀ (t : Nat) (s : State), let a := begin t s
    (∀ k, let asks := a.live.cutMode = .automatic ∨ a.live.cutMode = .manual ∧ k = .forced ∧ forcedHolds a = true
      (asks → mayRun a = true → a.cutter.running = none →
        Gives (.placementRunStart t k) s { a with cutter := { a.cutter with running := some (freezeInputs a), discard := false } }) ∧
      (asks → mayRun a = true → a.cutter.running.isSome = true → Gives (.placementRunStart t k) s { a with cutter := { a.cutter with again := true } }) ∧
      (¬ asks ∨ mayRun a = false → Gives (.placementRunStart t k) s a)) ∧
    (active a = true → gateOn a 17 = true →
      (∀ i, a.cutter.running = some i → let b := auditAll a
        (b.cutter.discard = false → b.cutter.tableLost = false → Gives (.placementRunDone t) s (endRun i b)) ∧
        (b.cutter.discard = true ∨ b.cutter.tableLost = true →
          Gives (.placementRunDone t) s (runAgain { b with cutter := { b.cutter with running := none, discard := false } }))) ∧
      (a.cutter.running = none → Gives (.placementRunDone t) s a)) ∧
    (active a = true → ∀ r : Region,
      (∀ e, mget? (pendPlane a) r.toNat = some e →
        (e.at_ + 250000000 ≤ a.now → Gives (.pendingEntryTimeout t r) s (applyEntry r.toNat e a)) ∧
        (a.now < e.at_ + 250000000 → Gives (.pendingEntryTimeout t r) s a)) ∧
      (mget? (pendPlane a) r.toNat = none → Gives (.pendingEntryTimeout t r) s a)) ∧
    (active a = true → ∀ r : Region, let b := audit r.toNat a
      let e := entryOf b r.toNat
      let h := galOf (if e.selNow then e.ingressA.toNat else e.ingressB.toNat)
      let late := ∃ m, mget? b.cutter.selCutAt r.toNat = some m ∧ 5 * periodOf b r.toNat ≤ 2 * (b.now - m)
      let came := ∃ w k, mget? (galAt b h).whole r.toNat = some w ∧ mget? b.cutter.lastKey r.toNat = some k ∧ keyLater w.key k = true
      let switches := inUse e = true ∧ e.dual = true ∧ e.selMode = 0#2 ∧ late ∧ came ∧ galActive b h = true
      (switches → Gives (.cutMarkOverdue t r) s (switchInput r.toNat b)) ∧ (¬ switches → Gives (.cutMarkOverdue t r) s b)) ∧
    (active a = true → gateOn a 17 = true → ∀ (r : Region) (g : GalIx),
      (∀ x, mget? (regionIn a r.toNat).ann g.val = some x →
        (x.at_ + 3000000000 ≤ a.now → Gives (.recordExpiry t r g none) s (a
          |> modRegionIn r.toNat (fun i => { i with ann := merase i.ann g.val }) |> countDev 0x508 0
          |> announceChange r.toNat (recordOf a r.toNat) false |> disarmGone r.toNat)) ∧
        (a.now < x.at_ + 3000000000 → Gives (.recordExpiry t r g none) s a)) ∧
      (mget? (regionIn a r.toNat).ann g.val = none → Gives (.recordExpiry t r g none) s a) ∧
      (∀ c : BitVec 64, let found := (regionIn a r.toNat).claims.find? fun k => k.gallery == g.val && k.claimant == c
        (∀ k, found = some k →
          (k.at_ + 3000000000 ≤ a.now → Gives (.recordExpiry t r g (some c)) s
            (a |> modRegionIn r.toNat (fun i => { i with claims := i.claims.erase k }) |> countDev 0x508 0)) ∧
          (a.now < k.at_ + 3000000000 → Gives (.recordExpiry t r g (some c)) s a)) ∧
        (found = none → Gives (.recordExpiry t r g (some c)) s a))) ∧
    (∀ g : GalIx, isPlaced a = true → isNorth g = false → galActive a g = true →
      (elapsed a.now 1000000000 (galAt a g).annAt = true →
        Gives (.announceOriginate t g) s (a |> modGal g (fun G => { G with annAt := some a.now }) |> originateAnn g)) ∧
      (elapsed a.now 1000000000 (galAt a g).annAt = false → Gives (.announceOriginate t g) s a)) ∧
    (active a = true → isPlaced a = true →
      (elapsed a.now 1000000000 a.cutter.claimAt = true → let b := auditAll { a with cutter := { a.cutter with claimAt := some a.now } }
        Gives (.claimOriginate t) s (originateClaims (claimed b) b)) ∧
      (elapsed a.now 1000000000 a.cutter.claimAt = false → Gives (.claimOriginate t) s a))

/-! ## Parcels and the Hall -/

/-- What the walk delivers on an ACTIVE receive direction: a PX parcel that broke off ends as R191 says; a parcel past its class's credit is discarded and counted, a poisoned or corrupt
message too, a good message is routed, good PX goes by its region's way, and bad PX is counted, marks its frame and ends poisoned where it had begun to leave or goes to the engine. A
cut mark names missing lines, lets a pending entry take effect and goes by the entry then in force; a gap marks its frame bad and goes by its region's way; a broken basting train is
only counted, a good one released on the galleries it is sent on, at most four on each. A table's error that a parcel's lookups meet is counted and stays.
The model's own choices that it rests on: log entries 21, 26, 27, 40, 121, 126. -/
def Obligations.StreamItemsAreTaken : Prop :=
  ∀ (t : Nat) (g : GalIx) (s : State), let a := begin t s
    rxRuns a g = true →
    (∀ n : Nat, n < 2048 → n ∉ a.hall.routeBad →
      strike (some (.route n)) a = countDev 0x806 0 { a with hall := { a.hall with routeBad := n :: a.hall.routeBad } }) ∧
    (∀ (p : Parcel) (begun : Bool) (x : Option Upset), let c := strike x a
      let b := takeItem g (.parcel p) c
      let r := (pRegion p).toNat
      let gives := fun (u : State) => Gives (.parcelReceive t g p begun x) s (u |> markEcc g (pCls p) (eccOf x) a.hall.arrivalSeq |> drainStraight g)
      let broken := RxItem.broken p ∈ (galAt c g).rx.arrived
      let fits := parcelLen p ≤ roomFor (galAt b g).crx (pCls p)
      (broken → let q := wayOf g r (modRx g (fun x => { x with arrived := x.arrived.erase (.broken p) }) c)
        gives (q.2 |> markBad g r |> doIf (begun || goesHere q.1) (endPoisoned g q.1 (entryOf q.2 r) p))) ∧
      (¬ broken → ¬ fits → pCls p ≠ .px → gives (countGal 0x436 g 0 b)) ∧
      (¬ broken → ¬ fits → pCls p = .px → gives (markBad g r (countGal 0x436 g 0 b))) ∧
      (¬ broken → fits → pCls p ≠ .px →
        (p.poisoned = true → gives (countGal 0x432 g 0 b)) ∧
        (p.poisoned = false → crcOk p = false → gives (countGal 0x431 g (clsNo (pCls p)) b)) ∧
        (p.poisoned = false → crcOk p = true → gives (receiveMsg g p b))) ∧
      (¬ broken → fits → pCls p = .px → let q := wayOf g r b
        let e := entryOf q.2 r
        (p.poisoned = false → crcOk p = true → gives (q.2 |> doIf (pxKnown p) (trackPx g q.1 p) |> forwardPx g q.1 e p (parcelLen p))) ∧
        (p.poisoned = false → crcOk p = false → gives (q.2 |> countGal 0x431 g 0 |> markBad g r |> doIf (begun || goesHere q.1) (endPoisoned g q.1 e p))) ∧
        (p.poisoned = true → gives (q.2 |> countGal 0x432 g 0 |> markBad g r |> doIf (begun || goesHere q.1) (endPoisoned g q.1 e p))))) ∧
    (∀ c : CutMark, let r := c.region.toNat
      let q := wayOf g r (takeItem g (.cut c) a)
      let b := q.2 |> trackCut g q.1 r |> closeFrame g r (cutKeyOf c)
      let gives := fun (u : State) => Gives (.cutMarkReceive t g c) s (u |> judgeCopy g r |> takeSwitch g r (cutKeyOf c) |> forwardCut g c |> drainStraight g)
      (mget? (pendPlane b) r = none → gives b) ∧
      (∀ e, mget? (pendPlane b) r = some e → (isNorth g && ingressOf e.e == g.val) = true → gives (applyEntry r e b)) ∧
      (∀ e, mget? (pendPlane b) r = some e → (isNorth g && ingressOf e.e == g.val) = false → gives b)) ∧
    (∀ x : Gap, let r := x.region.toNat
      let q := wayOf g r (takeItem g (.gap x) a)
      let b := q.2 |> markBad g r |> trackGap g x
      (∀ targets next straight, q.1 = .go targets next straight →
        Gives (.gapReceive t g x) s (b |> creditStore g .px 8 |> enqueue g (.gap x) targets next straight 8 0 |> drainStraight g)) ∧
      (q.1 = .discard → Gives (.gapReceive t g x) s (b |> storeDiscard g .px 8 |> drainStraight g))) ∧
    (∀ (l : Train) (whole : Bool), let b := modRx g (fun r => { r with arrived := r.arrived.erase (.train l whole) }) (auditAll a)
      let good := inBoot b = false ∧ whole = true ∧ trainOk l = true
      (¬ good → Gives (.bastingTrainReceive t g l whole) s (countGal 0x415 g 0 b)) ∧
      (good → Gives (.bastingTrainReceive t g l whole) s (forAll (trainGals b g) (fun h u =>
        if (galAt u h).tx.trains.length < 4 then modTx h (fun x => { x with trains := x.trains ++ [(g.val, l)], emptyAt := none }) u
        else countGal 0x415 h 1 u) b)))

/-- The Hall: an input that has no parcel crossing takes up the head of the class named, and its cell goes to each output that still lacks it and grants it; with more cells to come the
grant stays, with the last one the parcel arrives there and the grant ends; a cell that has reached all its outputs makes room for the next one, and after the last one the parcel
leaves its input. A bobbin's error is counted, and with an uncorrectable one a message leaves its input and PX goes on poisoned. Port 8 fills its readers first, with the errors its
reads meet noted. With the Hall lost only port 8 goes on.
What a transmit island sends at a parcel's turn, on an ACTIVE direction that is not stalled: what a replay still owes goes first, then a basting train, then a message while PX has
not its turn, then PX that credit covers; a turn of PX between messages comes when messages have had 64 KiB of a window; at the window's end, after 100 us, they may again. A stalled
direction only sets its demands, one in training only passes its slots, and in EXCHANGE the exchange goes on. A released train goes out at once where the direction is not stalled. An
event that waits is let go when what it waits for has left.
The model's own choices that it rests on: log entries 19, 33, 36, 37, 106, 122, 125. -/
def Obligations.TheHallAndTransmitIslandsMoveParcels : Prop :=
  (∀ (t : Nat) (i : Fin 10) (k : Cls) (met : ReadErrs) (s : State), let a := begin t s
     active a = true → gateOn a 16 = true →
     (let crosses := fun (u : State) => Gives (.hallCellTransfer t i k met) s (u |> forAll (List.finRange 10) (crossTo i) |> nextCell i);
       (∀ g, galPort i.val = some g → a.hall.lost = false → let q := presentCell i k a
         let e := max met.cell.val q.1
         (e ≠ 2 → crosses (countEcc g e q.2)) ∧ (e = 2 → crosses (eccBad i (countEcc g e q.2)))) ∧
       (i.val = 8 → crosses (presentCell i k (a |> noteErrors met.single met.double |> fillReaders)).2) ∧
       (i.val = 9 → a.hall.lost = false → crosses (presentCell i k a).2) ∧
       (i.val ≠ 8 → a.hall.lost = true → Gives (.hallCellTransfer t i k met) s a)) ∧
     (∀ (u : State) (o : Fin 10) (x : HallXfer), u.hall.ports[i].cur = some x →
       let mine := u.hall.grants[o] = some i ∨ u.hall.grants[o] = none ∧ turnOf u o = some i
       let v := modPort i (fun p => { p with cur := some { x with todo := x.todo.filter (· ≠ o.val) } }) u
       let turned := fun (w : State) => { w with hall := { w.hall with rr := w.hall.rr.set o.val ((i.val + 1) % 10) o.isLt } }
       (¬ (mine ∧ o.val ∈ x.todo) → crossTo i o u = u) ∧
       (mine → o.val ∈ x.todo → x.cells ≠ 1 → crossTo i o u = turned (setGrant o (some i) v)) ∧
       (mine → o.val ∈ x.todo → x.cells = 1 → crossTo i o u = arriveAt o x (turned (setGrant o none v)))) ∧
     (∀ (u : State) (x : HallXfer), u.hall.ports[i].cur = some x →
       (x.todo ≠ [] → nextCell i u = u) ∧
       (x.todo = [] → 2 ≤ x.cells → nextCell i u = modPort i (fun _ => { cur := some { x with cells := x.cells - 1, todo := x.outs } }) u) ∧
       (x.todo = [] → x.cells ≤ 1 → nextCell i u = leaveInput i x u) ∧
       (x.cls ≠ .px → eccBad i u = leaveInput i x (forAll ((List.finRange 10).filter fun o => u.hall.grants[o] == some i) (fun o => setGrant o none) u)) ∧
       (∀ h, x.cls = .px → galPort x.item.port = some h →
         eccBad i u = modPort i (fun q => { q with cur := some { x with item := { x.item with item := poison x.item.item } } }) (markBad h (regionOfItem x.item.item) u)) ∧
       (x.cls = .px → galPort x.item.port = none →
         eccBad i u = modPort i (fun q => { q with cur := some { x with item := { x.item with item := poison x.item.item } } }) u)) ∧
     (∀ u : State, u.hall.ports[i].cur = none →
       (∀ x, inputHead u i k = some x → presentCell i k u = (x.ecc, modPort i (fun _ =>
         { cur := some { item := x, cls := k, cells := ceilDiv (itemLen x.item) 128, outs := x.targets, todo := x.targets } }) u)) ∧
       (inputHead u i k = none → presentCell i k u = (0, u)))) ∧
  (∀ (t : Nat) (g : GalIx) (s : State), let a := begin t s
     (hopRuns a g = true → ∀ idle : Nat, let c := passSlots g idle a
       let G := galAt c g
       let d := sendReplay g c
       let b := skimPx g ((galAt d g).egress.px.length) d
       let sent := fun (u : State) => Gives (.parcelTransmit t g idle) s (u |> demands g |> noteEmpty g |> drainStraight (pairOf g))
       let px := modGal g (fun G => { G with ctx := { G.ctx with alternate := false } }) (sendPx g b)
       let exchanges := G.tx.ts = .exchange ∨ G.rx.ts = .exchange
       (exchanges → Gives (.parcelTransmit t g idle) s (exchange g c)) ∧
       (¬ exchanges → G.tx.ts ≠ .active → Gives (.parcelTransmit t g idle) s c) ∧
       (¬ exchanges → G.tx.ts = .active → stalled G = true → Gives (.parcelTransmit t g idle) s (demands g c)) ∧
       (¬ exchanges → G.tx.ts = .active → stalled G = false →
         ((galAt b g).tx.trains ≠ [] → sent (sendTrain g b)) ∧
         ((galAt b g).tx.trains = [] →
           (∀ k i, nextMsg b g = some (k, i) → (pxReady b g = false ∨ (galAt b g).ctx.budgetUsed + itemLen i.item ≤ 65536 ∨ (galAt b g).ctx.alternate = false) →
             sent (sendMsg g k i (pxReady b g) b)) ∧
           (∀ k i, nextMsg b g = some (k, i) → pxReady b g = true → 65536 < (galAt b g).ctx.budgetUsed + itemLen i.item → (galAt b g).ctx.alternate = true → sent px) ∧
           (nextMsg b g = none → pxReady b g = true → sent px) ∧
           (nextMsg b g = none → pxReady b g = false → sent b)))) ∧
     (creditsRun a g = true → (stalled (galAt a g) = false → Gives (.bastingTrainSend t g) s (a |> sendReplay g |> sendTrain g |> noteEmpty g)) ∧
       (stalled (galAt a g) = true → Gives (.bastingTrainSend t g) s a)) ∧
     (active a = true → let e := (galAt a g).ctx.budgetAt + 100000
       (e ≤ a.now → Gives (.messageBudgetWindow t g) s (modGal g (fun G => { G with ctx := { G.ctx with budgetUsed := 0, budgetAt := a.now, alternate := false } }) a)) ∧
       (a.now < e → Gives (.messageBudgetWindow t g) s a)) ∧
     (active a = true → ∀ port : Fin 10, let free := fun (i : QItem) => match i.item with
         | .parcel p => { i with waits := i.waits && mustWait a p i.arrival }
         | _ => i
       (∀ h, galPort port.val = some h → Gives (.eventRelease t port) s
         (a |> modGal h (fun G => { G with bobbin := { G.bobbin with pm := G.bobbin.pm.map free } }) |> drainStraight h)) ∧
       (port.val = 9 → Gives (.eventRelease t port) s { a with hall := { a.hall with mgmtOut := a.hall.mgmtOut.map free } }) ∧
       (port.val = 8 → Gives (.eventRelease t port) s a)))

/-! ## The correction engine and its store -/

/-- The engine's pipes take items in order, each under the entry in force when it arrived: a cut mark commits and is passed on, a gap is passed on, and PX is corrected where its region
is served and its line has a pipe, passed on in RGB48 where not, and named by a gap where its line is gone. A failed check fences its pipe, drops the line held in it, makes the oldest
parcel a gap where it was inside, and looks for a substitute for every region it served, which the event names; a fenced pipe does not fail again.
The model's own choices that it rests on: log entries 24, 31, 37. -/
def Obligations.ThePipesWork : Prop :=
  ∀ (t : Nat) (s : State), let a := begin t s
    active a = true → engineOn a = true →
    (∀ single double : List Nat, let b := noteErrors single double a
      (b.corr.inQ = [] → Gives (.pipeProcessParcel t single double) s b) ∧
      (∀ i l, b.corr.inQ = i :: l → let r := regionOfItem i.item
        let d := b |> modCorr (fun c => { c with inQ := l }) |> audit r
        (prevOf d r i.arrival = none → Gives (.pipeProcessParcel t single double) s (prunePrev r (engineItem i d))) ∧
        (∀ p, prevOf d r i.arrival = some p → Gives (.pipeProcessParcel t single double) s (prunePrev r (underPrev r p i d))))) ∧
    (∀ (d : State) (i : QItem),
      (∀ c, i.item = .cut c → engineItem i d = engineCut i c d) ∧
      (∀ x, i.item = .gap x → engineItem i d = pushOut i (.gap x) d) ∧
      (∀ p, i.item = .parcel p → let r := (pRegion p).toNat
        let e := entryOf d r
        let out := fun (x : List (Nat × Nat × Nat) × State) => forAll (reform p x.1) (fun y => pushOut i (.parcel y)) x.2
        (lineGone d r (pLine p) e = true → engineItem i d = engineGap i r (pLine p) d) ∧
        (∀ k, lineGone d r (pLine p) e = false → served d r e = true → pipeOf d r (pLine p) e = some k →
          engineItem i d = out (d |> readWords 1 (recordWords d p) |> correctAll r k (pLine p) (pPixel p) (pixelsOf p))) ∧
        (lineGone d r (pLine p) e = false → (served d r e = false ∨ pipeOf d r (pLine p) e = none) → engineItem i d = out (pixelsOf p, d)))) ∧
    (∀ pipe : Fin 8, a.corr.pipes[pipe].fenced = false → let b := auditAll (modPipe pipe.val (fun p => { p with fenced := true, hold := none }) a)
      let rs := pipeRegions b pipe.val
      let fails := fun (inside : Bool) (u : State) => let q := rs.foldl (fun acc r => substitute pipe.val r acc) ([], u)
        Gives (.pipeCheckFail t pipe inside) s (raise 0x0504 (leBytes 1 pipe.val ++ leBytes 1 (min rs.length 56) ++ leBytes 1 (b2n (decide (rs.length > 56))) ++
          leBytes 1 0 ++ ((q.1.take 56).flatMap fun e => leBytes 2 e.1 ++ leBytes 1 (e.2.getD 0xFF) ++ leBytes 1 0)) q.2)
      let was := { b with corr := { b.corr with pipes := b.corr.pipes.set pipe.val { b.corr.pipes[pipe] with fenced := false } } }
      let mine := fun (p : Parcel) => pipeOf was (pRegion p).toNat (pLine p) (entryOf b (pRegion p).toNat) = some pipe.val
      fails false b ∧ (b.corr.inQ = [] → fails true b) ∧
      (∀ i l, b.corr.inQ = i :: l →
        (∀ p, i.item = .parcel p → mine p → fails true (b |> modCorr (fun x => { x with inQ := l }) |> engineGap i (pRegion p).toNat (pLine p))) ∧
        ((∀ p, i.item = .parcel p → ¬ mine p) → fails true b))) ∧
    (∀ (pipe : Fin 8) (inside : Bool), a.corr.pipes[pipe].fenced = true → Gives (.pipeCheckFail t pipe inside) s a)

/-- The store at work while it holds: a scrub step counts what it read, notes the errors it met and keeps its place; clearing that is done leaves an extent EMPTY or ready to be taken;
a catch-up copy leaves both banks alike; the first write that may go is performed, and none where none may; a commit answers OK once no write that came before it into its extent is
still on its way, and is left alone while one is; and a store that is lost loses its extents, marks every region corrected here unserved, fails what was queued and answers those that
wait, and is lost once.
The model's own choices that it rests on: log entries 20, 37, 56. -/
def Obligations.TheStoreWorks : Prop :=
  ∀ (t : Nat) (s : State), let a := begin t s
    active a = true → gateOn a 19 = true →
    (a.corr.storeLost = false → ∀ (pos : BitVec 26) (single double : List Nat), Gives (.storeScrub t pos single double) s (a
      |> storeUse 4 (modSub 67108864 pos.toNat a.corr.scrubPos) |> modCorr (fun c => { c with scrubPos := pos.toNat })
      |> noteErrors single double |> readWords 4 double)) ∧
    (a.corr.storeLost = false → engineOn a = true → ∀ r : Region, let d := dirOf a r.toNat
      (d.cstate = .clearing → Gives (.extentClearingDone t r) s (a |> modDir r.toNat (fun d => { d with cstate := .empty }) |> storeUse 3 (65536 * d.units))) ∧
      (∀ x, d.cstate ≠ .clearing → d.newExt = some x → Gives (.extentClearingDone t r) s (a
        |> modDir r.toNat (fun d => { d with newExt := some { x with cleared := true } }) |> storeUse 3 (65536 * x.units))) ∧
      (d.cstate ≠ .clearing → d.newExt = none → Gives (.extentClearingDone t r) s a) ∧
      (∀ single double : List Nat, let half := bankUnits d
        let from_ := (d.base + if d.bank then half else 0) * 65536
        let to_ := (d.base + if d.bank then 0 else half) * 65536
        (d.catching = true → Gives (.catchUpCopyDone t ⟨r, single, double⟩) s (a |> noteErrors single double |> readWords 5 (wordsOf from_ (half * 65536))
          |> modCorr (copyBytes from_ to_ (half * 65536)) |> modDir r.toNat (fun d => { d with catching := false }) |> storeUse 3 (2 * 65536 * half))) ∧
        (d.catching = false → Gives (.catchUpCopyDone t ⟨r, single, double⟩) s a))) ∧
    (a.corr.storeLost = false →
      (∀ before x bs posted np n rest, firstReady a [] a.corr.queue = some (before, .write x bs posted np n, rest) →
        Gives (.postedWriteComplete t) s (a |> modCorr (fun c => { c with queue := before ++ rest }) |> performWrite x bs posted np)) ∧
      (firstReady a [] a.corr.queue = none → Gives (.postedWriteComplete t) s a)) ∧
    (∀ (r : Region) (safe : Bool),
      (markOf a.corr safe r.toNat = none → Gives (.commitWritesDrained t r safe) s a) ∧
      (∀ n, markOf a.corr safe r.toNat = some n → let hit := commitHit (dirOf a r.toNat) safe
        let queued := ∃ x bs posted np k j, StoreWrite.write x bs posted np k ∈ a.corr.queue ∧ k < n ∧ j < bs.length ∧ hit (x + j) = true
        ((queued ∨ comesBefore a n hit = true) → Gives (.commitWritesDrained t r safe) s a) ∧
        (¬ queued → comesBefore a n hit = false → Gives (.commitWritesDrained t r safe) s (a
          |> modCorr (dropMark safe r.toNat)
          |> modDir r.toNat (fun d => if safe then { d with sState := if d.sState = .none then .none else .valid } else { d with drained := d.commitPending })
          |> answerWaiting (fun w => w.op == (if safe then 0x504 else 0x502) && field w.req.payload 0 2 % 4096 == r.toNat) 0 [])))) ∧
    (a.corr.storeLost = true → Gives (.storeLost t) s a) ∧
    (a.corr.storeLost = false → let b := auditAll a
      let here := (forcePlane b).filter fun e => e.2.state == .placed && e.2.site == .here
      Gives (.storeLost t) s (b
        |> modCorr (fun c => { c with storeLost := true, dir := [], cells := [], fill := [], eccBad := [], gapUntilCut := here.map fun e => (e.1, 8) })
        |> forAll here (fun e => modDir e.1 fun d => { d with unserved := true })
        |> failQueue 0x0C 0x0A |> answerWaiting (fun w => w.op == 0x502 || w.op == 0x504) 5 [] |> raise 0x0506 []))

/-! ## Safety -/

/-- Safe frames and monitors by time: a replaced region that is due on a gallery has its next safe frame begun, one later than a period counted, and one not due none; monitors 1, 3 and 5
trip or clear when their time has come and not before; nine sensors and twelve supplies are sampled, 130.0 degrees on any sensor trips the device, and 1 s with all below 120.0 clears
it; a Hall that is lost trips the device, once.
The end of a safe state: a region with no reason left leaves it 500 ms after the last one cleared, its own PX muted to the next cut mark and the event raised, and not before or with a
reason left. The device's SAFE for a lost reference ends 500 ms after the galleries affected have retrained, and that for heat 500 ms after the trip cleared, each alone or both at
once, with what follows for the device's outputs; before its time neither ends.
The model's own choices that it rests on: log entries 1, 24, 25, 48, 124. -/
def Obligations.MonitorsAndSafeStatesKeepTime : Prop :=
  (∀ (t : Nat) (r : Region) (g : GalIx) (s : State), let a := begin t s
     (active a = true → gateOn a 16 = true →
       let due := replaced a r.toNat = true ∧ g ∈ leavesOn a r.toNat ∧ (galAt a g).lost = none ∧ substDue a r.toNat g = true
       let b := audit r.toNat a
       let key := ((readerAt b r.toNat g false).bind (·.cutKey)).getD (nextKeySent b r.toNat g)
       let late := substDueAt b r.toNat g + periodOf b r.toNat < b.now
       (due → ¬ late → Gives (.safeFrameStart t r g) s (startFrame r.toNat g false key b)) ∧
       (due → late → Gives (.safeFrameStart t r g) s (startFrame r.toNat g false key (countDev 0x60A 0 b))) ∧
       (¬ due → Gives (.safeFrameStart t r g) s a)) ∧
     (active a = true →
       (∀ e, (monAt a r.toNat g).freshAt = some e →
         (e + par1 a r.toNat 1 * 1000000 ≤ a.now → Gives (.freshnessTimeout t r g) s (a |> modMon r.toNat g (fun m => { m with freshAt := none }) |> tripMon 1 r.toNat g)) ∧
         (a.now < e + par1 a r.toNat 1 * 1000000 → Gives (.freshnessTimeout t r g) s a)) ∧
       ((monAt a r.toNat g).freshAt = none → Gives (.freshnessTimeout t r g) s a) ∧
       (∀ e, (monAt a r.toNat g).overAt = some e →
         (e + 1000000000 ≤ a.now → Gives (.luminanceClear t r g) s (a |> modMon r.toNat g (fun m => { m with overAt := none }) |> clearMon 3 r.toNat g)) ∧
         (a.now < e + 1000000000 → Gives (.luminanceClear t r g) s a)) ∧
       ((monAt a r.toNat g).overAt = none → Gives (.luminanceClear t r g) s a) ∧
       (let l := (monAt a r.toNat g).faults
         let l' := l.filter fun f => a.now < f.2.2 + 1000000000;
         (l'.length = l.length → Gives (.driverFaultExpiry t r g) s a) ∧
         (l'.length ≠ l.length → l' ≠ [] → Gives (.driverFaultExpiry t r g) s (modMon r.toNat g (fun m => { m with faults := l' }) a)) ∧
         (l'.length ≠ l.length → l' = [] → Gives (.driverFaultExpiry t r g) s (a |> modMon r.toNat g (fun m => { m with faults := l' }) |> clearMon 5 r.toNat g))) ∧
       (∀ (n : Fin 12) (mv : Nat), Gives (.supplySample t n mv) s { a with diag := { a.diag with supplies := a.diag.supplies.set n.val mv } })) ∧
     (guarding a = true →
       (∀ (n : Fin 9) (v : Int), let temps := a.diag.temps.set n.val v
         let low := temps.toList.all (· < 1200)
         let b := modSafety (fun f => { f with thermalLowAt := if low = false then none else if f.thermalLowAt.isSome then f.thermalLowAt else some a.now })
           { a with diag := { a.diag with temps, tempSeen := a.diag.tempSeen ||| (1#9 <<< n.val) } }
         (v < 1300 ∨ a.safety.thermal = true → Gives (.sensorSample t n v) s b) ∧
         (1300 ≤ v → a.safety.thermal = false → Gives (.sensorSample t n v) s
           (internalTrip 0x1 n.val (fun f => { f with thermal := true, thermalSafe := f.record.internal != .lockout, thermalClearAt := none }) b))) ∧
       (let due := ∃ e, a.safety.thermalLowAt = some e ∧ a.safety.thermal = true ∧ e + 1000000000 ≤ a.now;
         (due → Gives (.thermalClear t) s (modSafety (fun f => { f with thermal := false, thermalClearAt := some a.now }) a)) ∧
         (¬ due → Gives (.thermalClear t) s a))) ∧
     (active a = true → gateOn a 16 = true → a.hall.lost = false →
       Gives (.hallLost t) s (internalTrip 0x2 0 (fun f => { f with hallTrip := true }) { a with hall := { a.hall with lost := true } })) ∧
     (a.hall.lost = true → Gives (.hallLost t) s a)) ∧
  (∀ (t : Nat) (r : Region) (s : State), let a := begin t s
     let x := regSafe a r.toNat
     guarding a = true →
     (let ends := x.inSafe = true ∧ x.reasons = [] ∧ ∃ e, x.clearAt = some e ∧ e + 500000000 ≤ a.now;
       (ends → Gives (.safeStateEnd t r) s (a |> modReg r.toNat (fun x => { x with inSafe := false, clearAt := none, since := 0 }) |> muteRegion r.toNat
         |> raiseRegion 0x0602 r (leBytes 2 r.toNat))) ∧
       (¬ ends → Gives (.safeStateEnd t r) s a)) ∧
     (let ref := a.clocks.refFailure = true ∧ ∃ e, refBack a = some e ∧ e + 500000000 ≤ a.now;
       let hot := a.safety.thermalSafe = true ∧ ∃ e, a.safety.thermalClearAt = some e ∧ e + 500000000 ≤ a.now
       let endRef := fun (u : State) => { modSafety (fun f => { f with refSafe := false }) u with
         clocks := { u.clocks with refFailure := false, sides := u.clocks.sides.map fun x => { x with affected := 0#8 } } }
       let endHot := modSafety fun f => { f with thermalSafe := false, thermalClearAt := none }
       (ref → hot → Gives (.deviceSafeEnd t) s (afterDevice a (endHot (endRef a)))) ∧
       (ref → ¬ hot → Gives (.deviceSafeEnd t) s (afterDevice a (endRef a))) ∧
       (¬ ref → hot → Gives (.deviceSafeEnd t) s (afterDevice a (endHot a))) ∧
       (¬ ref → ¬ hot → Gives (.deviceSafeEnd t) s (afterDevice a a))) ∧
     afterDevice a a = a)

/-- Lock-out and its release: a waiting lock-out record is written first in first out while no brown-out lasts, and logged, and waits while one does. The release pin's fall within 30 s of
arming is noted, one later fails the release with cause 1 and is counted, one with nothing armed is counted; a rise less than 1 s later fails the release with cause 2, and one after
1 s checks it: with a condition of its scope still present it fails with cause 3, otherwise the scope is released, logged and reported. Arming expires after 30 s with cause 1, a
session after 60 s, and neither before.
A password check takes 200 ms: for the host whose check runs, the right password does what the command asked for and answers OK, but for a change of the password while a brown-out
warning lasts, which waits; a wrong one is counted and answers 6; before that time, and for every other host, nothing happens.
The model's own choices that it rests on: log entries 85, 86, 88, 137. -/
def Obligations.LockOutAndPasswordChecks : Prop :=
  (∀ (t : Nat) (s : State), let a := begin t s
     guarding a = true →
     (∀ n x l, a.power.brownout = none → a.safety.recWait = (n, x) :: l → Gives (.lockoutRecordWrite t) s (a
       |> modSafety (fun f => { f with recWait := l, record := { f.record with lockRec := mput f.record.lockRec n x } })
       |> safetyLog x.requester 0x03 (if n < 16 then targetGroup n else targetDevice) x.node 0 x.cause noDigest noDigest (leBytes 2 x.region ++ leBytes 1 x.gallery))) ∧
     (a.safety.recWait = [] ∨ a.power.brownout.isSome = true → Gives (.lockoutRecordWrite t) s a) ∧
     Gives (.releaseCheck t) s (checkRelease a) ∧
     (∀ x f, a.safety.armed = some x → x.fell = some f →
       (f + 1000000000 ≤ a.now → a.pins.clrN = false → condPresent a x.scope x.group = true → checkRelease a = failRelease 3 a) ∧
       (f + 1000000000 ≤ a.now → a.pins.clrN = false → condPresent a x.scope x.group = false → checkRelease a = (a
         |> modSafety (fun f => { f with armed := none }) |> releaseScope x.scope x.group |> endArmed
         |> safetyLog x.requester 0x04 (releaseTarget x.scope x.group) x.node 0 0 noDigest noDigest (leBytes 1 x.scope ++ leBytes 1 x.group)
         |> raise 0x0604 (leBytes 1 x.scope ++ leBytes 1 x.group))) ∧
       (a.now < f + 1000000000 ∨ a.pins.clrN = true → checkRelease a = a)) ∧
     (∀ x, a.safety.armed = some x →
       (x.fell = none → checkRelease a = a) ∧
       (x.fell = none → x.at_ + 30000000000 ≤ a.now → Gives (.releaseArmExpiry t) s (failRelease 1 a)) ∧
       (x.fell.isSome = true ∨ a.now < x.at_ + 30000000000 → Gives (.releaseArmExpiry t) s a)) ∧
     (a.safety.armed = none → checkRelease a = a ∧ Gives (.releaseArmExpiry t) s a) ∧
     (a.pins.clrN = true → let b := { a with pins := { a.pins with clrN := false } }
       (∀ x, a.safety.armed = some x → a.now ≤ x.at_ + 30000000000 →
         Gives (.lockoutClrNFall t) s (modSafety (fun f => { f with armed := some { x with fell := some a.now } }) b)) ∧
       (∀ x, a.safety.armed = some x → x.at_ + 30000000000 < a.now → Gives (.lockoutClrNFall t) s (countDev 0x703 0 (failRelease 1 b))) ∧
       (a.safety.armed = none → Gives (.lockoutClrNFall t) s (countDev 0x703 0 b)) ∧
       Gives (.lockoutClrNRise t) s a) ∧
     (a.pins.clrN = false → let up := fun (u : State) => Gives (.lockoutClrNRise t) s { u with pins := { u.pins with clrN := true } }
       (∀ x f, a.safety.armed = some x → x.fell = some f → a.now < f + 1000000000 → up (failRelease 2 a)) ∧
       (∀ x f, a.safety.armed = some x → x.fell = some f → f + 1000000000 ≤ a.now → up (checkRelease a)) ∧
       (∀ x, a.safety.armed = some x → x.fell = none → up a) ∧
       (a.safety.armed = none → up a) ∧
       Gives (.lockoutClrNFall t) s a) ∧
     (∀ x, a.safety.session = some x → (x.2.2 + 60000000000 ≤ a.now → Gives (.sessionTimeout t) s (modSafety (fun f => { f with session := none }) a)) ∧
       (a.now < x.2.2 + 60000000000 → Gives (.sessionTimeout t) s a)) ∧
     (a.safety.session = none → Gives (.sessionTimeout t) s a)) ∧
  (∀ (t : Nat) (s : State), let a := begin t s
     fwRuns a = true →
     Gives (.passwordCheckDone t) s (forAll allHosts endCheck a) ∧
     (∀ (u : State) (h : HostId),
       (∀ w, (ringAt u h).wait = some w → let due := u.safety.checking = some (hostIx h).val ∧ w.op / 256 = 6 ∧ w.at_ + 200000000 ≤ u.now
         let right := rightPassword u (slice w.req.payload 1 (arg w.req 0 1))
         let b := modSafety (fun f => { f with checking := none }) u
         (due → right = false → endCheck h u = (b |> countDev 0xB03 0 |> answerWait h 6 [])) ∧
         (due → right = true → (w.op ≠ 0x604 ∨ u.power.brownout = none) → endCheck h u = (b |> afterCheck w |> answerWait h 0 [])) ∧
         (due → right = true → w.op = 0x604 → u.power.brownout.isSome = true → endCheck h u = u) ∧
         (¬ due → endCheck h u = u)) ∧
       ((ringAt u h).wait = none → endCheck h u = u)))

/-! ## Clocks and islands -/

/-- Clock switches, gates and meters while the clock supervisor acts. A switch completes on a clock that is there; it is forced no sooner than its detection time, the island's state
lost, reported and counted, and onto a lost clock at once, the island then held in local reset. A unit that acknowledges closes its gate; one that does not is cut off and closed by
force at its limit. A meter takes its offset, or no reading. With no such switch or gate open, each command changes nothing.
The model's own choices that it rests on: log entries 44, 45, 127. -/
def Obligations.SwitchesAndGatesEnd : Prop :=
  ∀ (t : Nat) (s : State), let a := begin t s
    supervising a = true →
    (∀ (i : Fin 22) (q : SwitchReq), (a.clocks.switching.find? (·.island == i.val)) = some q →
      (srcLost a q.incoming = false → Gives (.clockSwitchComplete t i) s (endSwitch q a)) ∧
      (srcLost a q.incoming = true → Gives (.clockSwitchComplete t i) s a) ∧
      (srcLost a q.incoming = false → a.now < q.at_ + detectTime q.incoming → Gives (.forcedSwitch t i) s a) ∧
      (srcLost a q.incoming = false → q.at_ + detectTime q.incoming ≤ a.now → Gives (.forcedSwitch t i) s
        (a |> loseIsland q.island |> raise 0x0901 (by8 q.island ++ by8 (srcCode q.incoming)) |> countDev 0xA01 q.island |> endSwitch q)) ∧
      (srcLost a q.incoming = true → a.clocks.localReset.getLsbD q.island = false → Gives (.forcedSwitch t i) s
        (a |> loseIsland q.island |> raise 0x0901 (by8 q.island ++ by8 (srcCode q.incoming)) |> countDev 0xA01 q.island
          |> modClocks (fun c => { c with localReset := islandBit c.localReset q.island true, onRun := islandBit c.onRun q.island false }))) ∧
      (srcLost a q.incoming = true → a.clocks.localReset.getLsbD q.island = true → Gives (.forcedSwitch t i) s a)) ∧
    (∀ i : Fin 22, (a.clocks.switching.find? (·.island == i.val)) = none → Gives (.clockSwitchComplete t i) s a ∧ Gives (.forcedSwitch t i) s a) ∧
    (∀ u : Fin 24, a.clocks.closing.any (·.unit == u.val) = true → Gives (.gateQuiesceAck t u) s (closeGate u.val a)) ∧
    (∀ u : Fin 24, a.clocks.closing.any (·.unit == u.val) = false → Gives (.gateQuiesceAck t u) s a) ∧
    (∀ (u : Fin 24) (q : GateReq), (a.clocks.closing.find? (·.unit == u.val)) = some q →
      (q.at_ + quiesceLimit a q.unit ≤ a.now → Gives (.forcedGate t u) s
        (a |> cutAccess q.unit |> closeGate q.unit |> raise 0x0902 (by8 (gateIsland q.unit)) |> countDev 0xA02 (gateIsland q.unit))) ∧
      (a.now < q.at_ + quiesceLimit a q.unit → Gives (.forcedGate t u) s a)) ∧
    (∀ u : Fin 24, (a.clocks.closing.find? (·.unit == u.val)) = none → Gives (.forcedGate t u) s a) ∧
    (∀ (m : Fin 25) (v : BitVec 32), Gives (.meterGate t m v) s
      { a with clocks := { a.clocks with meters := a.clocks.meters.set m.val (if meterBlank a m.val then 0x80000000#32 else v) m.isLt } })

/-- References and the crystal. A lost reference is noted and counted; in P0 the sides that run on it are lost and the device trips, outside P0 they wait. A restored one is healthy
again and reported, and islands held for it are released. The firmware takes the other healthy reference for the sides that wait, or reports them to wait on; a side already reported
waits for its other reference. The crystal's loss unlocks its PLLs and the reference outputs, puts the DRAM to self-refresh, moves islands 16 to 20 to the ring oscillator in P0 and
trips the device.
PLLs, the reference outputs and the calibration. A PLL that locks moves its islands to their run clocks; the DRAM's ends self-refresh, a side's lets its held galleries go. One
that unlocks parks its islands, a side's galleries lost or trained anew. REFOUT locks where it is enabled and the crystal runs; the impedance calibration is noted.
The model's own choices that it rests on: log entries 45, 46, 47, 54, 132, 140. -/
def Obligations.ReferencesAndPlls : Prop :=
  (∀ (t : Nat) (s : State), let a := begin t s
     (supervising a = true →
       (∀ ref : Fin 2, srcLost a (refOf ref.val) = false → srcLost a .xin = false → let b := declareLost ref.val a; let l := sidesOn b (refOf ref.val)
         (l = [] → Gives (.refclkLost t ref) s b) ∧
         (a.power.pstate ≠ .p0 → Gives (.refclkLost t ref) s (forAll l (fun sd => modSide sd fun x => { x with waiting := true, reported := false }) b)) ∧
         (a.power.pstate = .p0 → l ≠ [] → Gives (.refclkLost t ref) s
           (b |> forAll l loseSide |> internalTrip 0x4 ref.val (fun f => { f with refSafe := f.record.internal != .lockout })))) ∧
       (∀ ref : Fin 2, (srcLost a (refOf ref.val) || srcLost a .xin) = true → Gives (.refclkLost t ref) s a) ∧
       (∀ ref : Fin 3, a.clocks.refHealthy.getLsbD ref.val = false → (srcLost a .xin = false ∨ ref = 2 ∧ a.clocks.pll.getLsbD 0 = true) →
         let mine := a.clocks.switching.filter fun q => q.incoming == refOf ref.val && a.clocks.localReset.getLsbD q.island
         Gives (.refclkRestored t ref) s (a
           |> modClocks (fun c => { c with refLost := c.refLost &&& ~~~(1#3 <<< ref.val), refHealthy := c.refHealthy ||| (1#3 <<< ref.val) })
           |> forAll mine (fun q u => u
             |> modClocks (fun c => { c with localReset := if q.island < 16 then c.localReset else islandBit c.localReset q.island false })
             |> endSwitch q)
           |> raise 0x0904 (by8 ref.val))) ∧
       (∀ ref : Fin 3, (a.clocks.refHealthy.getLsbD ref.val = true ∨ srcLost a .xin = true ∧ (ref ≠ 2 ∨ a.clocks.pll.getLsbD 0 = false)) →
         Gives (.refclkRestored t ref) s a) ∧
       (srcLost a .xin = false → let b := (a |> declareLost 2
           |> modClocks (fun c => { c with pll := c.pll &&& 0b1100#4, refout := c.refout.map fun o => { o with locked := false } })
           |> modCorr (fun c => { c with selfRefresh := true }));
         (a.power.pstate = .p0 → Gives (.xinLost t) s (b
           |> forAll (([16, 17, 18, 19, 20] : List Nat).filter (gateOn b)) (fun i => requestSwitch i false .ring)
           |> forAll (sidesOn b .xin) loseSide |> internalTrip 0x4 2 (fun f => { f with xinTrip := f.record.internal != .lockout }))) ∧
         (a.power.pstate ≠ .p0 → Gives (.xinLost t) s (forAll (sidesOn b .xin) (fun sd => modSide sd fun x => { x with waiting := true, reported := false }) b))) ∧
       (srcLost a .xin = true → Gives (.xinLost t) s a)) ∧
     (fwRuns a = true → ∀ ref : Fin 3,
       (srcLost a (refOf ref.val) = false → Gives (.referenceSwitch t ref) s a) ∧
       (srcLost a (refOf ref.val) = true →
         let l := (sidesOn a (refOf ref.val)).filter fun k => a.clocks.sides[k].waiting && (!a.clocks.sides[k].reported || (otherRef a k).isSome)
         let who := fun (c : Option RefSrc) => l.filter fun k => otherRef a k == c
         Gives (.referenceSwitch t ref) s
           (a |> takeRef ref.val (who (some .a)) (some .a) |> takeRef ref.val (who (some .b)) (some .b) |> takeRef ref.val (who (some .xin)) (some .xin)
             |> takeRef ref.val (who none) none)))) ∧
  (∀ (t : Nat) (s : State), let a := begin t s
     (active a = true →
       (∀ p : Fin 4, canLock a p.val = true → a.clocks.pll.getLsbD p.val = false → let b := a |> modClocks (fun c => { c with pll := c.pll ||| (1#4 <<< p.val) }) |> moveToRun p.val
         (p = 0 → Gives (.pllLock t p) s b) ∧
         (p = 1 → Gives (.pllLock t p) s (if gateOn a 19 then modCorr (fun c => { c with selfRefresh := false }) b else b)) ∧
         (p = 2 → Gives (.pllLock t p) s (sideBack 0 b)) ∧ (p = 3 → Gives (.pllLock t p) s (sideBack 1 b))) ∧
       (∀ p : Fin 4, (canLock a p.val = false ∨ a.clocks.pll.getLsbD p.val = true) → Gives (.pllLock t p) s a) ∧
       (∀ p : Fin 4, a.clocks.pll.getLsbD p.val = true → p.val < 2 → let b := modClocks (fun c => { c with pll := c.pll &&& ~~~(1#4 <<< p.val) }) a
         Gives (.pllLockLoss t p) s (forAll ((islandsOf p.val).filter fun i => a.clocks.onRun.getLsbD i) (fun i => requestSwitch i false .ring) b)) ∧
       (∀ (p : Fin 4) (sd : Fin 2), a.clocks.pll.getLsbD p.val = true → p.val = 2 + sd.val →
         let leave := fun (g : GalIx) (u : State) => if galActive u g then loseGallery g 0x1 u else if hopRuns u g then enterDetect g u else u
         Gives (.pllLockLoss t p) s (a |> forAll (sideGals sd) leave |> modClocks (fun c => { c with pll := c.pll &&& ~~~(1#4 <<< p.val) })
           |> forAll ((islandsOf p.val).filter fun i => a.clocks.onRun.getLsbD i) (fun i => requestSwitch i false .xin))) ∧
       (∀ p : Fin 4, a.clocks.pll.getLsbD p.val = false → Gives (.pllLockLoss t p) s a) ∧
       (∀ ok : Bool, Gives (.zcalCalibration t ok) s { a with clocks := { a.clocks with zcalTrim := !ok } })) ∧
     (∀ out : Fin 2,
       (a.power.inReset = none → a.power.pstate ≠ .p3 → a.clocks.refout[out].enabled = true → srcLost a .xin = false → Gives (.refoutLock t out) s
         { a with clocks := { a.clocks with refout := a.clocks.refout.set out.val { a.clocks.refout[out] with locked := true } out.isLt } }) ∧
       (a.clocks.refout[out].enabled = false ∨ srcLost a .xin = true → Gives (.refoutLock t out) s a)))

/-! ## Power, reset and boot -/

/-- Resets. When the rails stand the power-on reset ends, the pad banks sense their range and the oscillator wait is ahead, the device then held by RESET_N or released with the straps
sampled. A rail that falls below its threshold resets all that a power-on does; RESET_N low holds a pin reset; the correction store's rail loses the store. The oscillator wait ends
at its time and not before.
The model's own choices that it rests on: log entries 5, 41, 42, 49. -/
def Obligations.ResetsHoldAndEnd : Prop :=
  ∀ (t : Nat) (s : State), let a := begin t s
    (a.power.inReset = some .por → a.pins.testMode = false →
      let p := { a.power with rails := 0b111111#6, porAt := a.now, oscWaiting := true, cold := true, vioRange := a.pins.vio33 }
      (a.pins.resetNLow = none → Gives (.powerOnReset t) s { a with power := { p with inReset := none, sampled := a.pins.straps, bootAt := a.now, since := a.now } }) ∧
      (a.pins.resetNLow.isSome = true → Gives (.powerOnReset t) s { a with power := { p with inReset := some .pin } })) ∧
    (a.power.inReset ≠ some .por ∨ a.pins.testMode = true → Gives (.powerOnReset t) s a) ∧
    (∀ rail : Fin 5, Gives (.railBelowThreshold t rail) s
      (resetDevice .por (some .por) { a with power := { a.power with rails := a.power.rails &&& ~~~(1#6 <<< rail.val) } })) ∧
    (a.power.inReset ≠ some .por → let b := { a with power := { a.power with rails := a.power.rails &&& 0b011111#6 } }
      (guarding a = true → Gives (.vdramLoss t) s (loseStore b)) ∧
      (guarding a = false → Gives (.vdramLoss t) s { b with corr := { b.corr with storeLost := true, dir := [], cells := [], fill := [], eccBad := [] } })) ∧
    (a.power.inReset = some .por → Gives (.vdramLoss t) s a) ∧
    (∀ hold : Nat, let b := { a with pins := { a.pins with resetNLow := some (a.now + hold) } }
      (a.power.inReset ≠ some .por → a.power.inReset ≠ some .extest → Gives (.resetNLow t hold) s (resetDevice .pin (some .pin) b)) ∧
      (a.power.inReset = some .por ∨ a.power.inReset = some .extest → Gives (.resetNLow t hold) s b)) ∧
    (alwaysOn a = true → a.power.oscWaiting = true → a.power.bootAt + oscWaitMin a.power.sampled.oscWait ≤ a.now →
      Gives (.oscWaitEnd t) s { a with power := { a.power with oscWaiting := false } }) ∧
    (a.now < a.power.bootAt + oscWaitMin a.power.sampled.oscWait ∨ a.power.oscWaiting = false → Gives (.oscWaitEnd t) s a)

/-- The boot. Once the system PLLs lock the sequencer completes the fuses, loads the record, applies the boot profile, puts the locks in force and opens the first gates; a part
whose return was completed here is erased instead. The boot ROM takes the newest slot that checks, or recovery, and waits in a brown-out where it would write a slot, as
the sequencer does where it would blow fuses or erase; a slot that fails its check is logged. Firmware then
serves, applies its profile, enables its units and reports `system.booted`.
The watchdog and the trial. 250 ms without service restart the Mezzanine, counted and to be reported, a TRIAL slot one reset nearer its roll-back; the ring
hardware answers the frames that stand in the rings; firmware that had enabled its
units readopts what runs, reports the watchdog and the posted writes it cut. After 60 s of service a TRIAL slot is confirmed and the anti-rollback fuses reach its version.
The model's own choices that it rests on: log entries 9, 51, 52, 134, 135, 138. -/
def Obligations.TheDeviceBoots : Prop :=
  (∀ (t : Nat) (s : State), let a := begin t s
     active a = true →
     (a.power.seqDone = false → a.power.oscWaiting = false → a.clocks.pll.getLsbD 0 = true → a.clocks.pll.getLsbD 1 = true → bootWaits a = false →
       let f := completeFuses a
       (f.mram.erasing = true → Gives (.bootSequencerRun t) s (eraseReturned f)) ∧
       (f.mram.erasing = false → Gives (.bootSequencerRun t) s (loadRecord f
         |> doIf a.power.cold (modMram fun m => { m with bootCount := m.bootCount + 1#32 })
         |> bootSettings
         |> doIf a.power.storeRetained (fun u => u |> openGate 19 |> modCorr fun c => { c with selfRefresh := false })
         |> bootLocks |> forAll allGals bootGallery |> openGate 16 |> openGate 20
         |> modPower (fun p => { p with seqDone := true, cold := false })
         |> modMez (fun m => { m with run := if holdRom a then .recovery else .rom, readopt := false })))) ∧
     (a.power.seqDone = true ∨ a.power.oscWaiting = true ∨ a.clocks.pll.getLsbD 0 = false ∨ a.clocks.pll.getLsbD 1 = false ∨ bootWaits a = true → Gives (.bootSequencerRun t) s a) ∧
     (a.power.seqDone = true → gateOn a 20 = true → a.mez.run = .rom →
       (holdRom a = true → Gives (.bootRomSlotCheck t) s { a with mez := { a.mez with run := .recovery, slot := none } }) ∧
       (holdRom a = false → let x := checkSlot a.otp (fwSlot a 0); let y := checkSlot a.otp (fwSlot a 1)
         let back := (if x.2 then [0] else []) ++ (if y.2 then [1] else [])
         let same := x.1 = fwSlot a 0 ∧ y.1 = fwSlot a 1
         let b := { a with mram := { a.mram with slots := #v[x.1, y.1] } } |> doIf (slotFails a.otp (fwSlot a 0)) (logSlot 0) |> doIf (slotFails a.otp (fwSlot a 1)) (logSlot 1)
         (a.power.brownout = none ∨ same →
           (∀ n, newestSlot x.1 y.1 (slotLive x.1) (slotLive y.1) = some n → Gives (.bootRomSlotCheck t) s
             { b with mez := { a.mez with run := .starting, slot := some n, level := (fwSlot b n).level, rolledBack := a.mez.rolledBack ++ back } }) ∧
           (newestSlot x.1 y.1 (slotLive x.1) (slotLive y.1) = none → Gives (.bootRomSlotCheck t) s
             { b with mez := { a.mez with run := .recovery, slot := none, rolledBack := a.mez.rolledBack ++ back } })) ∧
         (a.power.brownout.isSome = true → ¬ same → Gives (.bootRomSlotCheck t) s a))) ∧
     (a.power.seqDone = false ∨ a.mez.run ≠ .rom → Gives (.bootRomSlotCheck t) s a) ∧
     (a.mez.run = .starting → a.mez.readopt = false → a.mez.halted = false → let b := a |> startServing |> applyProfile |> applyOutputs |> enableUnits |> reportWatchdog
       Gives (.firmwareBootComplete t) s (raise 0x0002 (bootedBody b) b)) ∧
     (a.mez.run ≠ .starting ∨ a.mez.readopt = true ∨ a.mez.halted = true → Gives (.firmwareBootComplete t) s a)) ∧
  (∀ (t : Nat) (s : State), let a := begin t s
     (active a = true →
       (a.mez.run = .running ∨ a.mez.run = .starting → a.mez.halted = false →
         let more := fun (v : State) => v |> mezRestart |> modMez (fun m =>
           { m with watchdogs := if m.watchdogs = 0xFFFFFFFF#32 then m.watchdogs else m.watchdogs + 1#32, watchdogDue := true, readopt := gateOn a 17 }) |> ringHardware
         (∀ n, a.mez.slot = some n → (fwSlot a n).state = .trial →
           Gives (.mezzanineWatchdog t) s (more (modFwSlot n (fun x => { x with trialResets := min 255 (x.trialResets + 1) }) a))) ∧
         ((a.mez.slot = none ∨ ∃ n, n < 2 ∧ a.mez.slot = some n ∧ (fwSlot a n).state ≠ .trial) → Gives (.mezzanineWatchdog t) s (more a))) ∧
       (a.mez.run = .rom ∨ a.mez.run = .recovery ∨ a.mez.halted = true → Gives (.mezzanineWatchdog t) s a) ∧
       (a.mez.run = .starting → a.mez.readopt = true → a.mez.halted = false → Gives (.firmwareReadopt t) s
         (a |> startServing |> enableUnits |> reportWatchdog |> modMez (fun m => { m with readopt := false, postedCut := [] })
           |> forAll a.mez.postedCut (fun w => lateError w.asker w.address w.count 0x0B))) ∧
       (a.mez.run ≠ .starting ∨ a.mez.readopt = false ∨ a.mez.halted = true → Gives (.firmwareReadopt t) s a)) ∧
     (fwRuns a = true → a.power.brownout = none →
       (∀ n e, a.mez.slot = some n → a.mez.trialSince = some e →
         (e + 60000000000 ≤ a.now → (fwSlot a n).state = .trial → let b := modFwSlot n (fun x => { x with state := .confirmed }) a
           Gives (.trialConfirm t) s { b with mez := { b.mez with trialSince := none }, otp := { a.otp with antiRollback := blowTo (fwSlot a n).secVersion 64 a.otp.antiRollback } }) ∧
         (a.now < e + 60000000000 ∨ (fwSlot a n).state ≠ .trial → Gives (.trialConfirm t) s a)) ∧
       (a.mez.slot = none ∨ a.mez.trialSince = none → Gives (.trialConfirm t) s a)) ∧
     (a.power.brownout.isSome = true → Gives (.trialConfirm t) s a))

/-- Power states. An entry completes when the messages have gone, into P2 or, its leases ended and its log written, P3, and answers OK; it is refused with 0x0A after 2 ms, or where
a safety condition arose or a release is armed, and the device goes on in P0. A falling WAKE_N leaves P2 or P3. The Cutter's hold ends at its time.
Brown-out, erasure and FREEZE_N. A warning is noted, and counted once it has lasted 10 ms; at its end what waited in MRAM is written and the warning is counted and reported with
its length. A returned part is erased. FREEZE_N falling freezes the device, where it does not merely end less than 1 us of a high that began after the boot.
The model's own choices that it rests on: log entries 49, 50, 55, 65, 80. -/
def Obligations.PowerStatesAndBrownOut : Prop :=
  (∀ (t : Nat) (s : State), let a := begin t s
     (active a = true → ∀ e : PowerEntry, a.power.entry = some e →
       (messagesGone a = false → a.now < e.startedAt + 2000000 → Gives (.p2DrainEnd t) s a) ∧
       (messagesGone a = true → e.safetyArose = false → a.safety.armed = none → e.target = 2 → Gives (.p2DrainEnd t) s (sleep (answerEntry 0 a))) ∧
       (messagesGone a = true → e.safetyArose = false → a.safety.armed = none → e.target ≠ 2 → Gives (.p2DrainEnd t) s
         (answerEntry 0 a |> endForP3 |> sleep |> resetDevice .p3 none |> modPower (fun p => { p with pstate := .p3, oscWaiting := false }))) ∧
       ((messagesGone a = false ∧ e.startedAt + 2000000 ≤ a.now ∨ messagesGone a = true ∧ (e.safetyArose = true ∨ a.safety.armed.isSome = true)) →
         let w := a |> modPower (fun p => { p with entry := none }) |> answerEntry 0x0A |> forAll (allGals.filter (galActive a)) updateLimits
         (w.live.cutMode = .automatic → Gives (.p2DrainEnd t) s (startRun w)) ∧ (w.live.cutMode ≠ .automatic → Gives (.p2DrainEnd t) s w))) ∧
     (a.power.entry = none → Gives (.p2DrainEnd t) s a) ∧
     (active a = true → ∀ d, a.power.cutterHold = some d → let b := { a with power := { a.power with cutterHold := none, heldGalleries := 0#8 } }
       (d ≤ a.now → a.live.cutMode ≠ .automatic → Gives (.cutterHoldExpiry t) s b) ∧
       (d ≤ a.now → a.live.cutMode = .automatic → Gives (.cutterHoldExpiry t) s (startRun b)) ∧
       (a.now < d → Gives (.cutterHoldExpiry t) s a)) ∧
     (a.power.cutterHold = none → Gives (.cutterHoldExpiry t) s a) ∧
     (∀ low : Nat, let b := { a with pins := { a.pins with wakeLow := a.now + low } }
       (alwaysOn a = true → a.power.pstate = .p2 → Gives (.wakeNFall t low) s (leaveP2 b)) ∧
       (alwaysOn a = true → a.power.pstate = .p3 → Gives (.wakeNFall t low) s (leaveP3 b)) ∧
       (alwaysOn a = false ∨ a.power.pstate = .p0 → Gives (.wakeNFall t low) s b))) ∧
  (∀ (t : Nat) (s : State), let a := begin t s
     (a.power.inReset ≠ some .por → a.power.brownout = none →
       Gives (.brownoutWarning t) s { a with power := { a.power with brownout := some a.now, brownSustained := false } } ∧ Gives (.brownoutEnd t) s a) ∧
     (a.power.brownout.isSome = true ∨ a.power.inReset = some .por → Gives (.brownoutWarning t) s a) ∧
     (guarding a = true → ∀ b, a.power.brownout = some b →
       (b + 10000000 ≤ a.now → a.power.brownSustained = false → Gives (.brownoutSustained t) s
         ({ a with power := { a.power with brownSustained := true } } |> countDev 0xA05 0)) ∧
       (a.now < b + 10000000 ∨ a.power.brownSustained = true → Gives (.brownoutSustained t) s a) ∧
       (a.power.inReset ≠ some .por → let long := a.power.brownSustained || decide (b + 10000000 < a.now)
         let w := { a with power := { a.power with brownout := none, brownSustained := false } } |> writeWaiting |> writeUpdate
         Gives (.brownoutEnd t) s ({ w with log := { w.log with staging := w.log.staging.map fun e => { e with deferred := true } } }
           |> doIf (long && !a.power.brownSustained) (countDev 0xA05 0) |> countDev 0xA04 0
           |> raise 0x0905 (by32 (min ((a.now - b) / 1000) (2 ^ 32 - 1)) ++ by8 (if long then 1 else 0))))) ∧
     (a.power.brownout = none → Gives (.brownoutSustained t) s a) ∧
     (guarding a = false → a.power.inReset ≠ some .por → a.power.brownout.isSome = true →
       Gives (.brownoutEnd t) s { a with power := { a.power with brownout := none, brownSustained := false } }) ∧
     (guarding a = true → a.mram.erasing = true → a.power.brownout = none → Gives (.returnedErasure t) s (eraseReturned a)) ∧
     (a.mram.erasing = false ∨ a.power.brownout.isSome = true → Gives (.returnedErasure t) s a) ∧
     (canFreeze a = true → ∀ high : Nat, 1000 ≤ high ∨ a.now - high ≤ a.power.bootAt → Gives (.freezeNFall t high) s (freezeNow 1 a)) ∧
     (canFreeze a = false → freezeTie a = true → ∀ high : Nat, 1000 ≤ high ∨ a.now - high ≤ a.power.bootAt →
       Gives (.freezeNFall t high) s { a with frz := { a.frz with cause := 1 } }) ∧
     (∀ high : Nat, high < 1000 → a.power.bootAt < a.now - high → Gives (.freezeNFall t high) s a) ∧
     (canFreeze a = false → freezeTie a = false → ∀ high : Nat, Gives (.freezeNFall t high) s a))

/-! ## The bridge and port L -/

/-- What the bridge answers at port 9, its buffers included. A read or non-posted write is refused for its tag, its form, its window and the window's rules, in that order, else it
goes to its target; a posted write that fails leaves a late error, else it waits for its target, and the 257th outstanding one waits in its queue. A parcel of another kind or class is
none of the command's, and nothing is served while port 9 is not.
A completion ends the remote access whose tag it carries, when it fails or brings the last byte, or adds its data, and any other is discarded; an event for this landing alone goes
on, marked as relayed, to every enabled sink, or is dropped for each while the bridge is gated; a prefetched buffer lasts 10 us.
The model's own choices that it rests on: log entries 91, 92, 93. -/
def Obligations.TheBridgeServesPortNine : Prop :=
  (∀ (t : Nat) (port : Fin 10) (p : Parcel) (s : State), let a := begin t s; let x := accessOf p port.val (arrivalOf a port.val p); let d := takeMgmt port.val p a
     (port9Serves a = true → pKind p = 1 → pCls p = .np → ∀ (ahead : Nat) (single double : List Nat), let c := noteErrors single double d
       let b := if (bufferFor c x.asker.src x.address).isSome then c else modBridge (fun k => { k with prefetch := k.prefetch.filter fun y => y.src != x.asker.src }) c
       (tagCheck b x.asker ≠ 0 → Gives (.bridgeRead t port p ahead single double) s (refuseTag x.asker (tagCheck b x.asker) b)) ∧
       (tagCheck b x.asker = 0 → readFormed p x = false → Gives (.bridgeRead t port p ahead single double) s (refuse x.asker 3 b)) ∧
       (tagCheck b x.asker = 0 → readFormed p x = true → decodeWindow b x.asker.src x.address x.count = none →
         Gives (.bridgeRead t port p ahead single double) s (refuse x.asker 2 (noWindow b))) ∧
       (∀ w, tagCheck b x.asker = 0 → readFormed p x = true → decodeWindow b x.asker.src x.address x.count = some w →
         ((!fitsWindow w x || (x.lock && !winFlag w 58)) = true → Gives (.bridgeRead t port p ahead single double) s (refuse x.asker 3 b)) ∧
         ((!fitsWindow w x || (x.lock && !winFlag w 58)) = false → Gives (.bridgeRead t port p ahead single double) s (readTarget w x ahead b)))) ∧
     (port9Serves a = true → pKind p = 2 → pCls p = .pm → a.bridge.posted.length < 256 →
       (writeFormed p x = false → Gives (.bridgeWritePosted t port p) s (lateError x.asker x.address x.count 3 d)) ∧
       (writeFormed p x = true → decodeWindow d x.asker.src x.address x.count = none →
         Gives (.bridgeWritePosted t port p) s (lateError x.asker x.address x.count 1 (noWindow d))) ∧
       (∀ w r, writeFormed p x = true → decodeWindow d x.asker.src x.address x.count = some w → postedFails w x d = some r →
         Gives (.bridgeWritePosted t port p) s (lateError x.asker x.address x.count r d)) ∧
       (∀ w, writeFormed p x = true → decodeWindow d x.asker.src x.address x.count = some w → postedFails w x d = none →
         Gives (.bridgeWritePosted t port p) s (acceptPosted w x d))) ∧
     (256 ≤ a.bridge.posted.length → Gives (.bridgeWritePosted t port p) s a) ∧
     (port9Serves a = true → pKind p = 2 → pCls p = .np →
       (tagCheck d x.asker ≠ 0 → Gives (.bridgeWriteNonposted t port p) s (refuseTag x.asker (tagCheck d x.asker) d)) ∧
       (tagCheck d x.asker = 0 → writeFormed p x = false → Gives (.bridgeWriteNonposted t port p) s (refuse x.asker 3 d)) ∧
       (tagCheck d x.asker = 0 → writeFormed p x = true → decodeWindow d x.asker.src x.address x.count = none →
         Gives (.bridgeWriteNonposted t port p) s (refuse x.asker 2 (noWindow d))) ∧
       (∀ w, tagCheck d x.asker = 0 → writeFormed p x = true → decodeWindow d x.asker.src x.address x.count = some w →
         (winFlag w 59 = true → Gives (.bridgeWriteNonposted t port p) s (refuse x.asker 2 d)) ∧
         (winFlag w 59 = false → (!fitsWindow w x || (x.lock && !winFlag w 58)) = true → Gives (.bridgeWriteNonposted t port p) s (refuse x.asker 3 d)) ∧
         (winFlag w 59 = false → (!fitsWindow w x || (x.lock && !winFlag w 58)) = false → Gives (.bridgeWriteNonposted t port p) s (writeTarget w x d)))) ∧
     (∀ (ahead : Nat) (single double : List Nat),
       (port9Serves a = false ∨ pKind p ≠ 1 ∨ pCls p ≠ .np → Gives (.bridgeRead t port p ahead single double) s a)) ∧
     (port9Serves a = false ∨ pKind p ≠ 2 ∨ pCls p ≠ .pm → Gives (.bridgeWritePosted t port p) s a) ∧
     (port9Serves a = false ∨ pKind p ≠ 2 ∨ pCls p ≠ .np → Gives (.bridgeWriteNonposted t port p) s a)) ∧
  (∀ (t : Nat) (port : Fin 10) (p : Parcel) (s : State), let a := begin t s; let d := takeMgmt port.val p a
     (port9Serves a = true → pKind p = 3 → pCls p = .cp →
       (gateOn a 22 = false ∨ a.bridge.remote = none → Gives (.completionReceive t port p) s d) ∧
       (∀ r, gateOn a 22 = true → a.bridge.remote = some r →
         ((pTag p).toNat ≠ r.tag → Gives (.completionReceive t port p) s d) ∧
         ((pTag p).toNat = r.tag → (pAttr p).toNat ≠ 0 → Gives (.completionReceive t port p) s
           (d |> modBridge (fun b => { b with remote := none }) |> answerWait (allHosts.getD r.ring .link) 0 (remotePayload (pAttr p).toNat []))) ∧
         ((pTag p).toNat = r.tag → (pAttr p).toNat = 0 → r.read = false → Gives (.completionReceive t port p) s
           (d |> modBridge (fun b => { b with remote := none }) |> answerWait (allHosts.getD r.ring .link) 0 (remotePayload 0 []))) ∧
         ((pTag p).toNat = r.tag → (pAttr p).toNat = 0 → r.read = true → let got := r.got ++ (p.payload.drop 4).take (field p.payload 2 2 % 4096)
           (got.length < r.count → Gives (.completionReceive t port p) s (modBridge (fun b => { b with remote := some { r with got } }) d)) ∧
           (r.count ≤ got.length → Gives (.completionReceive t port p) s
             (d |> modBridge (fun b => { b with remote := none }) |> answerWait (allHosts.getD r.ring .link) 0 (remotePayload 0 got)))))) ∧
     (port9Serves a = true → pKind p = 4 → pCls p = .pm →
       (pDest p = 0xFFFF#16 → Gives (.eventRelay t port p) s d) ∧
       (pDest p ≠ 0xFFFF#16 → Gives (.eventRelay t port p) s (forAll ((List.finRange 4).filter fun k => a.live.sinks[k].enable) (fun k u =>
         if gateOn u 22 then toSink k 4 (relayed p.payload) (if pRefsRegion p then some (pRefRegion p) else none) (pRefsData p) u else countDev 0x805 k.val u) d))) ∧
     (port9Serves a = false ∨ pKind p ≠ 3 ∨ pCls p ≠ .cp → Gives (.completionReceive t port p) s a) ∧
     (port9Serves a = false ∨ pKind p ≠ 4 ∨ pCls p ≠ .pm → Gives (.eventRelay t port p) s a) ∧
     (active a = true → Gives (.prefetchExpiry t) s (modBridge (fun b => { b with prefetch := b.prefetch.filter fun y => a.now < y.at_ + 10000 }) a)) ∧
     (active a = false → Gives (.prefetchExpiry t) s a))

/-- Port L serves the request whose turn it is, after the recovery that is due. A plain access that is acknowledged to its end answers with its data, one that is not is counted and
fails with 5; a locked read takes or keeps its source's sequence and turns away the locked reads of others; the unlocking write ends the sequence, and without one it answers 7. A held
clock times the request out, as do the eighth lost arbitration and 10 ms of losing. With no request of its kind a command changes nothing but the recovery.
Port L by time and line: a held data line outside a sequence is recovered, a fenced bus or a sequence in force left alone; a locked sequence ends 1 ms after its first read, and
its loss is remembered for 100 ms; nothing runs while port L does not.
The model's own choices that it rests on: log entries 90, 111. -/
def Obligations.PortLRunsRequests : Prop :=
  (∀ (t : Nat) (s : State), let a := begin t s
     portLRuns a = true →
     (∀ r : PlReq, nextReq a = some r → let c := recoverIfDue a
       (r ∈ c.portL.waiting →
         (∀ (acked : Nat) (data : List Byte), r.lock = false → let x := runBus r busStart true acked data
           let b := c |> takeReq r |> emit (.portL x.1) |> modPortL (fun p => { p with filter := c.live.twFilter })
           (x.2.1 = true → Gives (.portlTransaction t acked data) s (endReq r 0 0 x.2.2 b)) ∧
           (x.2.1 = false → Gives (.portlTransaction t acked data) s (b |> countDev 0x904 0 |> endReq r 5 7 []))) ∧
         (∀ (acked : Nat) (data : List Byte), r.lock = true → r.read = true → let x := runBus r (if c.portL.lock.isSome then busAgain else busStart) false acked data
           let b := c |> takeReq r |> emit (.portL x.1)
           (∀ since, x.2.1 = true → (c.portL.lock = none → since = some c.now) → (∀ o, c.portL.lock = some o → since = o.since) → Gives (.lockedRead t acked data) s (b
             |> modPortL (fun p => { p with lock := some { src := r.asker.src, address := r.address, since },
                                            lostFor := if p.lostFor.map (·.1) = some r.asker.src then none else p.lostFor })
             |> endReq r 0 0 x.2.2 |> retryOthers r.asker.src)) ∧
           (x.2.1 = false → Gives (.lockedRead t acked data) s (b |> loseLock |> countDev 0x904 0 |> endReq r 5 7 []))) ∧
         (∀ acked : Nat, r.lock = true → r.read = false → let x := runBus r busAgain true acked []
           (c.portL.lock.map (·.src) = some r.asker.src →
             let b := c |> takeReq r |> emit (.portL x.1) |> modPortL (fun p => { p with lock := none, filter := c.live.twFilter })
             (x.2.1 = true → Gives (.unlockingWrite t acked) s (endReq r 0 0 [] b)) ∧
             (x.2.1 = false → Gives (.unlockingWrite t acked) s (b |> countDev 0x904 0 |> endReq r 5 7 []))) ∧
           (c.portL.lock.map (·.src) ≠ some r.asker.src → Gives (.unlockingWrite t acked) s (c |> takeReq r
             |> modPortL (fun p => { p with lostFor := if p.lostFor.map (·.1) = some r.asker.src then none else p.lostFor }) |> endReq r 7 0 []))) ∧
         (∀ held hold : Nat, (c.live.twlStretch * 100000 < held → Gives (.portlStretchTimeout t held hold) s (c |> modPortL (fun p => { p with hold }) |> timeoutReq r)) ∧
           (held ≤ c.live.twlStretch * 100000 → Gives (.portlStretchTimeout t held hold) s c)) ∧
         (let since := if r.losses = 0 then c.now else r.at_;
           (r.losses < 7 → c.now < since + 10000000 → Gives (.portlArbitrationLost t) s
             (modPortL (fun p => { p with waiting := p.waiting.map fun y => if y = r then { r with losses := r.losses + 1, at_ := since } else y }) c)) ∧
           (7 ≤ r.losses ∨ since + 10000000 ≤ c.now → Gives (.portlArbitrationLost t) s (timeoutReq r c)))) ∧
       (r ∉ c.portL.waiting → ∀ (held hold : Nat), Gives (.portlStretchTimeout t held hold) s c ∧ Gives (.portlArbitrationLost t) s c ∧
         (∀ acked data, r.lock = false → Gives (.portlTransaction t acked data) s c) ∧
         (∀ acked data, r.lock = true → r.read = true → Gives (.lockedRead t acked data) s c) ∧
         (∀ acked, r.lock = true → r.read = false → Gives (.unlockingWrite t acked) s c)) ∧
       (∀ acked data, (r.lock = true → Gives (.portlTransaction t acked data) s a) ∧ (r.lock = false ∨ r.read = false → Gives (.lockedRead t acked data) s a) ∧
         (r.lock = false ∨ r.read = true → Gives (.unlockingWrite t acked) s a))) ∧
     (nextReq a = none → ∀ (acked held hold : Nat) (data : List Byte), Gives (.portlTransaction t acked data) s a ∧ Gives (.lockedRead t acked data) s a ∧
       Gives (.unlockingWrite t acked) s a ∧ Gives (.portlStretchTimeout t held hold) s a ∧ Gives (.portlArbitrationLost t) s a)) ∧
  (∀ (t : Nat) (s : State), let a := begin t s
     (portLRuns a = true →
       (∀ hold : Nat, (a.portL.fenced = false → a.portL.lock = none →
           Gives (.portlSdaStuckDetect t hold) s (recoverIfDue { a with portL := { a.portL with hold, recoverDue := true } })) ∧
         (a.portL.fenced = true ∨ a.portL.lock.isSome = true → Gives (.portlSdaStuckDetect t hold) s a)) ∧
       (∀ e, a.portL.lock.bind (·.since) = some e →
         (e + 1000000 ≤ a.now → Gives (.lockedSequenceTimeout t) s (timeoutLock a)) ∧ (a.now < e + 1000000 → Gives (.lockedSequenceTimeout t) s a)) ∧
       (a.portL.lock.bind (·.since) = none → Gives (.lockedSequenceTimeout t) s a)) ∧
     (active a = true → ∀ src e, a.portL.lostFor = some (src, e) →
       (e + 100000000 ≤ a.now → Gives (.lockLostStateExpiry t) s (modPortL (fun p => { p with lostFor := none }) a)) ∧
       (a.now < e + 100000000 → Gives (.lockLostStateExpiry t) s a)) ∧
     (a.portL.lostFor = none → Gives (.lockLostStateExpiry t) s a) ∧
     (portLRuns a = false → ∀ (acked held hold : Nat) (data : List Byte), Gives (.portlTransaction t acked data) s a ∧ Gives (.lockedRead t acked data) s a ∧
       Gives (.unlockingWrite t acked) s a ∧ Gives (.portlStretchTimeout t held hold) s a ∧ Gives (.portlArbitrationLost t) s a ∧
       Gives (.portlSdaStuckDetect t hold) s a ∧ Gives (.lockedSequenceTimeout t) s a))

/-! ## Mailboxes -/

/-- The mailbox window of a gallery. A write that fits the aperture lands for the source that may write it; a doorbell puts the aperture's frame in its host's ring, or notes with the
ring full that it was refused, and does nothing for a source that is not the bound one; an acknowledge removes the source's oldest response; a register byte does what its bits say and
any other is ignored. While the window is down each command changes nothing.
Where no software serves a ring its hardware answers the frame within the doorbell: it carries out an order toward safe and answers it 0, and answers every other frame 1, or 0x0A
in RECOVERY, counted each time; rings that software serves it leaves alone.
The dispatcher takes the frame whose turn it is. Who serves its ring refuses a bad CRC with 0x0B, a bad field with 3 and an unknown opcode, and else runs the frame's command; the
ring hardware answers it otherwise. With no frame to take nothing changes.
The model's own choices that it rests on: log entries 73, 77, 98, 130, 135. -/
def Obligations.MailboxesCarryFrames : Prop :=
  (∀ (t : Nat) (s : State) (g : GalIx) (src : BitVec 16), let a := begin t s; let h := hostOfGal g; let n := a.hall.arrivalSeq
     (windowUp a = true →
       (∀ (off : Nat) (data : List Byte), 0x100 ≤ off → off + data.length ≤ 0x800 →
         (boundToOther (ringAt a h) src = true → Gives (.mailboxApertureWrite t g src off data) s a) ∧
         (boundToOther (ringAt a h) src = false → data ≠ [] → off % 4 ≠ 0 ∨ data.length % 4 ≠ 0 → Gives (.mailboxApertureWrite t g src off data) s a) ∧
         (boundToOther (ringAt a h) src = false → data ≠ [] → off % 4 = 0 → data.length % 4 = 0 → Gives (.mailboxApertureWrite t g src off data) s
           (modRing h (fun r => { r with bound := if r.bound.isSome then r.bound else some (src, a.now),
                                         aperture := ((List.range data.length).zip data).foldl (fun m e => if off - 0x100 + e.1 < 1792 then mput m (off - 0x100 + e.1) e.2 else m) r.aperture }) a))) ∧
       (∀ (off : Nat) (data : List Byte), off < 0x100 ∨ 0x800 < off + data.length ∨ data = [] → Gives (.mailboxApertureWrite t g src off data) s a) ∧
       (boundToOther (ringAt a h) src = true → Gives (.mailboxDoorbell t g src) s a) ∧
       (boundToOther (ringAt a h) src = false → 8 ≤ (ringAt a h).cmds.length → Gives (.mailboxDoorbell t g src) s (modRing h (fun r => { r with dbRefused := true }) a)) ∧
       (boundToOther (ringAt a h) src = false → (ringAt a h).cmds.length < 8 → Gives (.mailboxDoorbell t g src) s (modRing h (fun r => { r with aperture := [], bound := none })
         (ringHardware (modRing h (fun r =>
           { r with cmds := r.cmds ++ [{ bytes := apertureFrame r, at_ := a.now, src, gallery := some g, arrival := n }], tail := r.tail + 1#8 }) a)))) ∧
       (∀ x l, responsesFor (ringAt a h) src = x :: l → Gives (.mailboxRspAck t g src) s (modRing h (fun r => { r with rsps := r.rsps.erase x }) a)) ∧
       (responsesFor (ringAt a h) src = [] → Gives (.mailboxRspAck t g src) s a) ∧
       Gives (.mailboxDbRefusedClear t g) s (modRing h (fun r => { r with dbRefused := false }) a) ∧
       (∀ b : Byte,
         (b.getLsbD 0 = true → b.getLsbD 1 = false → Gives (.registerWrite t g src 6 b) s (doorbell g src n a)) ∧
         (b.getLsbD 0 = false → b.getLsbD 1 = true → Gives (.registerWrite t g src 6 b) s (modRing h (fun r => { r with dbRefused := false }) a)) ∧
         (b.getLsbD 0 = true → b.getLsbD 1 = true → Gives (.registerWrite t g src 6 b) s (doorbell g src n (modRing h (fun r => { r with dbRefused := false }) a))) ∧
         (b.getLsbD 0 = false → b.getLsbD 1 = false → Gives (.registerWrite t g src 6 b) s a) ∧
         (b.getLsbD 0 = true → Gives (.registerWrite t g src 9 b) s (rspAck h src a)) ∧
         (b.getLsbD 0 = false → Gives (.registerWrite t g src 9 b) s a) ∧
         (∀ off : Nat, off ≠ 6 → off ≠ 9 → Gives (.registerWrite t g src off b) s a))) ∧
     (windowUp a = false → ∀ (off : Nat) (data : List Byte) (b : Byte), Gives (.mailboxApertureWrite t g src off data) s a ∧ Gives (.mailboxDoorbell t g src) s a ∧
       Gives (.mailboxRspAck t g src) s a ∧ Gives (.mailboxDbRefusedClear t g) s a ∧ Gives (.registerWrite t g src off b) s a) ∧
     (∀ (u : State) (m : Nat), let hs := allHosts.filter fun o => canTake o u && !softHost o u
       ringHardware u = answerFrames 32 u ∧ (fwRuns u = true ∨ nextOf hs u = none → answerFrames m u = u) ∧
       (∀ o i f, nextOf hs u = some (o, i, f) → let q := reqOf o f; let good := frameCrc f.bytes && frameFields f.bytes
         let b := { modRing o (fun r => { r with cmds := r.cmds.eraseIdx i, head := r.head + 1#8 }) u with mbx :=
           { (modRing o (fun r => { r with cmds := r.cmds.eraseIdx i, head := r.head + 1#8 }) u).mbx with cycle := mezCycle f.at_, frame := f.arrival } }
         let c := countDev 0x104 (cmdRing o) b
         let reply := fun (st : Nat) => hwAnswer o f.src (frOp f.bytes) q.tag.toNat q.token.toNat q.seq.toNat st
         ((good && hwOrder (frOp f.bytes) q b) = true → answerFrames (m + 1) u = answerFrames m (reply 0 (runOrder q c))) ∧
         ((good && hwOrder (frOp f.bytes) q b) = false → romServes b = true → answerFrames (m + 1) u = answerFrames m (reply 0x0A c)) ∧
         ((good && hwOrder (frOp f.bytes) q b) = false → romServes b = false → answerFrames (m + 1) u = answerFrames m (reply 1 c))))) ∧
  (∀ (t : Nat) (s : State), let a := begin t s
     (nextFrame a = none → Gives (.dispatchCommand t) s a) ∧
     (∀ h i f, nextFrame a = some (h, i, f) → let b := modRing h (fun r => { r with cmds := r.cmds.eraseIdx i, head := r.head + 1#8 }) a
       let d := { b with mbx := { b.mbx with cycle := mezCycle f.at_, frame := f.arrival } }
       let q := reqOf h f; let op := frOp f.bytes
       (softServes q d = true →
         (frameCrc f.bytes = false → Gives (.dispatchCommand t) s (answerBad 0x101 0x0B op q d)) ∧
         (frameCrc f.bytes = true → frameFields f.bytes = false → Gives (.dispatchCommand t) s (answerBad 0x102 3 op q d)) ∧
         (∀ c, frameCrc f.bytes = true → frameFields f.bytes = true → allCmds.find? (fun c => c.op == op) = some c → Gives (.dispatchCommand t) s (serve c q d)) ∧
         (frameCrc f.bytes = true → frameFields f.bytes = true → allCmds.find? (fun c => c.op == op) = none →
           (fwRuns d = true → Gives (.dispatchCommand t) s (answerBad 0x102 0x0C op q d)) ∧
           (fwRuns d = false → Gives (.dispatchCommand t) s (pushRsp h q.src (reqRsp op q 0 0x0A q.token.toNat []) d)))) ∧
       (softServes q d = false → Gives (.dispatchCommand t) s (serveHw op q (frameCrc f.bytes && frameFields f.bytes) d))))

/-- Rings, waits and leases by time, host by host in the order of priority and domain by domain: an aperture's binding lapses after 1 ms, a response unacknowledged for 1 s is dropped
and counted, a command whose limit has passed is answered 8 with what its TIMEOUT undoes, a bridge sync answers when no write of its source that came before it is out, and a lease not
renewed for 10 s ends and is counted. Before its time each changes nothing.
Slow work by time: a verify and a commit of an update that some host waits for answer what the image and the slot say, and a commit waits out a brown-out; the log's writer stores
the oldest staged entry, one a millisecond; a stream not read for 10 s ends; an eye scan of a lane in lock is kept, of the one eye of a two-level tread alone.
The model's own choices that it rests on: log entries 1, 63, 67. -/
def Obligations.WaitsEndByTime : Prop :=
  (∀ (t : Nat) (s : State), let a := begin t s
     (windowUp a = true → Gives (.apertureBindingLapse t) s (lapseBinding .second (lapseBinding .link a)) ∧
       Gives (.responseExpiry t) s (dropOldResponses .debug (dropOldResponses .service (dropOldResponses .second (dropOldResponses .link a))))) ∧
     (windowUp a = false → Gives (.apertureBindingLapse t) s a ∧ Gives (.responseExpiry t) s a) ∧
     (fwRuns a = true ∨ active a = true ∧ romServes a = true → Gives (.waitingCommandTimeout t) s (endWait .debug (endWait .service (endWait .second (endWait .link a))))) ∧
     (fwRuns a = false → romServes a = false ∨ active a = false → Gives (.waitingCommandTimeout t) s a) ∧
     (fwRuns a = true → Gives (.bridgeSyncDone t) s (endSync .debug (endSync .service (endSync .second (endSync .link a))))) ∧
     (fwRuns a = false → Gives (.bridgeSyncDone t) s a) ∧
     (guarding a = true → Gives (.leaseExpiry t) s (forAll (List.range 15) expireLease a)) ∧ (guarding a = false → Gives (.leaseExpiry t) s a) ∧
     (∀ (h : HostId) (u : State),
       (∀ b, (ringAt u h).bound = some b → (b.2 + 1000000 ≤ u.now → lapseBinding h u = modRing h (fun r => { r with bound := none, aperture := [] }) u) ∧
         (u.now < b.2 + 1000000 → lapseBinding h u = u)) ∧
       ((ringAt u h).bound = none → lapseBinding h u = u) ∧
       (let old := (ringAt u h).rsps.filter fun x => decide (x.at_ + 1000000000 ≤ u.now);
         (old ≠ [] → dropOldResponses h u = (u |> modRing h (fun r => { r with rsps := r.rsps.filter fun x => decide (u.now < x.at_ + 1000000000) })
           |> countN 0x105 0 0 (rspRing h) old.length)) ∧
         (old = [] → dropOldResponses h u = u)) ∧
       (∀ w, (ringAt u h).wait = some w →
         (timesOut w.op = true → w.due ≤ u.now → endWait h u = (u |> timeoutEffect w |> answerWait h 8 [])) ∧
         (timesOut w.op = false ∨ u.now < w.due → endWait h u = u) ∧
         (w.op = 0x709 → writesOut u (syncSource w.req) w.mark = false → let x := syncAnswer (syncSource w.req) u; endSync h u = answerWait h 0 x.1 x.2) ∧
         (w.op ≠ 0x709 ∨ writesOut u (syncSource w.req) w.mark = true → endSync h u = u)) ∧
       ((ringAt u h).wait = none → endWait h u = u ∧ endSync h u = u)) ∧
     (∀ (d : Nat) (u : State), let l := leaseAt u d
       (l.holder.isSome = true → l.renewed + 10000000000 ≤ u.now → expireLease d u = (u |> endLease d (some 1) |> countDev 0x107 d)) ∧
       (l.holder = none ∨ u.now < l.renewed + 10000000000 → expireLease d u = u))) ∧
  (∀ (t : Nat) (s : State), let a := begin t s
     (active a = true → (fwRuns a || romServes a) = true →
       (someWaits 0xC02 a = true → let img := image a.upd
         (wholeImage a.upd = false → Gives (.updateVerifyDone t) s (answerUpd 0xC02 0x0A [] a)) ∧
         (wholeImage a.upd = true → imageSigned a.otp img = false → Gives (.updateVerifyDone t) s (answerUpd 0xC02 0x0B [] (countDev 0xB05 0 a))) ∧
         (wholeImage a.upd = true → imageSigned a.otp img = true → authentic a.otp img = false → Gives (.updateVerifyDone t) s (answerUpd 0xC02 6 [] (countDev 0xB05 0 a))) ∧
         (wholeImage a.upd = true → imageSigned a.otp img = true → authentic a.otp img = true →
           Gives (.updateVerifyDone t) s (answerUpd 0xC02 0 (slice img 8 4) { a with upd := { a.upd with state := .verified, digest := sha384Num img } }))) ∧
       (someWaits 0xC02 a = false → Gives (.updateVerifyDone t) s a) ∧
       (someWaits 0xC03 a = true → a.power.brownout = none →
         (∀ same, committing a = false → Gives (.updateCommitDone t same) s (answerUpd 0xC03 0x0A [] a)) ∧
         (committing a = true → Gives (.updateCommitDone t false) s (answerUpd 0xC03 0x0B [] (failCommit a))) ∧
         (committing a = true → let x := trialSlot a
           Gives (.updateCommitDone t true) s (a |> modFwSlot a.upd.target (fun _ => x) |> modUpd (fun u => { u with state := .committed }) |> answerUpd 0xC03 0 []
             |> raise 0x0C01 (by8 a.upd.target ++ List.replicate 3 0#8 ++ by32 x.level.toNat)))) ∧
       (∀ same, someWaits 0xC03 a = false ∨ a.power.brownout.isSome = true → Gives (.updateCommitDone t same) s a)) ∧
     (guarding a = true → a.power.brownout = none →
       (∀ e l, a.log.staging = e :: l → (∀ k, a.log.lastWrite = some k → k + 1000000 ≤ a.now) → Gives (.logWriterFlush t) s
         { a with log := { a.log with entries := (a.log.entries ++ [e]).drop (a.log.entries.length + 1 - 16384), staging := l, written := a.log.written + 1#32,
                                      lastWrite := some a.now } }) ∧
       (∀ k, a.log.lastWrite = some k → a.now < k + 1000000 → Gives (.logWriterFlush t) s a) ∧
       (a.log.staging = [] → Gives (.logWriterFlush t) s a)) ∧
     (a.power.brownout.isSome = true → Gives (.logWriterFlush t) s a) ∧
     (active a = true → ∀ h, a.log.stream = some h →
       (h.lastRead + 10000000000 ≤ a.now → Gives (.logStreamHolderExpiry t) s (endStream a)) ∧ (a.now < h.lastRead + 10000000000 → Gives (.logStreamHolderExpiry t) s a)) ∧
     (a.log.stream = none → Gives (.logStreamHolderExpiry t) s a) ∧
     (∀ (g : GalIx) (l : LaneIx) (eye : Fin 3) (points : List (BitVec 128)),
       (hopRuns a g = true → laneLocked (laneAt a g l) = true → (laneAt a g l).failed = false → (laneAt a g l).rxIdle = false →
         (eye = 0 ∨ 4 ≤ ((galAt a g).rx.tread.getD 0).val → Gives (.eyeScanComplete t g l eye points) s
           (modLane g l (fun L => { L with eyes := mput L.eyes eye.val { at_ := a.now, points } }) a)) ∧
         (eye ≠ 0 → ((galAt a g).rx.tread.getD 0).val < 4 → Gives (.eyeScanComplete t g l eye points) s a)) ∧
       (hopRuns a g = false ∨ laneLocked (laneAt a g l) = false ∨ (laneAt a g l).failed = true ∨ (laneAt a g l).rxIdle = true →
         Gives (.eyeScanComplete t g l eye points) s a)))

/-! ## Port M and the test access port -/

/-- Port M's transactions. One of the mailbox class acts in P0, wakes the device from P2 and then acts, wakes it from P3 unacknowledged, and is not acknowledged in reset or FROZEN; one
of the status class acts but in reset and P3. A fragment joins the assembly if it obeys every rule, and the first rule it breaks decides what is counted and dropped; the other
transactions read, ring and abort with a PEC that holds, else they are counted.
Port M's bus and attention. A transaction that breaks on the bus is counted and a fragment with it rejected; an address match wakes the device from P2 acknowledged and from P3 not;
every 100 ms responses and events that stand latch their causes again. A cause that is latched is sent once the bus has been idle for 50 us, by the way that is set, and a Host Notify not
acknowledged is tried again after 10 ms; a send that loses the bus, or comes too early, changes nothing.
The model's own choices that it rests on: log entries 78, 79, 131. -/
def Obligations.PortMCarriesTransactions : Prop :=
  (∀ (t : Nat) (s : State), let a := begin t s
     let box := fun (c : Instr) (f : State → State) =>
       (alwaysOn a = false → Gives c s (emit (.portMAck false) a)) ∧ (alwaysOn a = true → a.power.pstate = .p0 → Gives c s (f a)) ∧
       (alwaysOn a = true → a.power.pstate = .p2 → Gives c s (f (wake a))) ∧ (alwaysOn a = true → a.power.pstate = .p3 → Gives c s (wake (emit (.portMAck false) a)))
     let status := fun (c : Instr) (f : State → State) =>
       (a.power.inReset.isSome = true → Gives c s (emit (.portMAck false) a)) ∧
       (a.power.inReset = none → a.power.pstate = .p3 → a.frz.on = false → Gives c s (wake (emit (.portMAck false) a))) ∧
       (a.power.inReset = none → a.power.pstate ≠ .p3 ∨ a.frz.on = true → Gives c s (f a))
     (∀ n body pec, box (.mbxPut t n body pec) (putFrag n body pec)) ∧
     (∀ (b : State) (n : Byte) (body : List Byte) (pec : Option Byte),
       (n.toNat < 2 ∨ 241 < n.toNat → putFrag n body pec b = badProtocol b) ∧
       (2 ≤ n.toNat → n.toNat ≤ 241 → body = [] → putFrag n body pec b = rejectFrag false (badProtocol b)) ∧
       (∀ c data, 2 ≤ n.toNat → n.toNat ≤ 241 → body.take n.toNat = c :: data → let held := if c.getLsbD 0 then 0 else (b.portM.asm_.getD []).length
         (fragOrder b.portM c = false → putFrag n body pec b = rejectFrag true (badProtocol b)) ∧
         (fragOrder b.portM c = true → 1028 < held + data.length → putFrag n body pec b = rejectFrag true (badProtocol b)) ∧
         (fragOrder b.portM c = true → held + data.length ≤ 1028 → body.length < n.toNat → putFrag n body pec b = rejectFrag false (badProtocol b)) ∧
         (fragOrder b.portM c = true → held + data.length ≤ 1028 → n.toNat ≤ body.length →
           (pecOk b ([writeByte b, 0x20#8, n, c] ++ data) pec = false → putFrag n body pec b = (b |> countDev 0x902 0 |> emit (.portMAck false) |> rejectFrag false)) ∧
           (pecOk b ([writeByte b, 0x20#8, n, c] ++ data) pec = true → putFrag n body pec b = (b |> modPortM (joinFrag c data) |> emit (.portMAck true)))))) ∧
     (∀ frag, box (.mbxGet t 1#8 frag) (fun b => sendBlock [writeByte b, 0x21#8, 1#8, frag] (getFrag frag.toNat b) b)) ∧
     (∀ n frag, n ≠ 1#8 → box (.mbxGet t n frag) badProtocol) ∧
     box (.mbxStatus t) (fun b => sendBlock [writeByte b, 0x22#8] (mbxStatus b) b) ∧
     (∀ pec, box (.mbxRing t pec) (fun b => if pecOk b [writeByte b, 0x23#8] pec then emit (.portMAck true) (ringFrame b) else badPec b)) ∧
     (∀ tag pec, box (.mbxAbortDiscard t tag pec) (fun b =>
       if pecOk b [writeByte b, 0x24#8, 1#8, tag] pec then emit (.portMAck true) (discardAssembly b) else badPec b)) ∧
     (∀ tag pec, box (.mbxAbortRelease t tag pec) (fun b =>
       if pecOk b [writeByte b, 0x24#8, 2#8, tag] pec then emit (.portMAck true) (releaseTag tag b) else badPec b)) ∧
     (∀ tag pec, box (.mbxAbortBoth t tag pec) (fun b =>
       if pecOk b [writeByte b, 0x24#8, 3#8, tag] pec then emit (.portMAck true) (releaseTag tag (discardAssembly b)) else badPec b)) ∧
     (∀ ptr data, status (.statusPointerWrite t (ptr :: data)) (fun b =>
       emit (.portMAck true) (modPortM (fun m => data.foldl (fun m x => putStatus x m) { m with ptr }) b))) ∧
     status (.statusPointerWrite t []) (emit (.portMAck true)) ∧
     (∀ (r : Fin 3) data, status (.snapSelectWrite t r data) (fun b =>
       emit (.portMAck true) (modPortM (fun m => data.foldl (fun m x => putStatus x m) { m with ptr := BitVec.ofNat 8 (0x40 + r.val) }) b))) ∧
     (∀ n, status (.statusClassRead t n) (fun b => emit (.portM (statusRead (quick b) n b).1) (statusRead (quick b) n b).2))) ∧
  (∀ (t : Nat) (s : State), let a := begin t s
     (guarding a = true → ∀ put : Bool, let b := a |> countDev 0x901 0 |> emit (.portMAck false)
       Gives (.portmSclTimeout t put) s (if put then rejectFrag false b else b) ∧ Gives (.portmBusError t put) s (if put then rejectFrag false b else b)) ∧
     (guarding a = false → (∀ put : Bool, Gives (.portmSclTimeout t put) s a ∧ Gives (.portmBusError t put) s a) ∧ Gives (.attentionRelatch t) s a) ∧
     (alwaysOn a = true → a.power.pstate = .p2 → Gives (.portmP2WakeMatch t) s (wake (emit (.portMAck true) a)) ∧ Gives (.portmP3WakeMatch t) s a) ∧
     (alwaysOn a = true → a.power.pstate = .p3 → Gives (.portmP3WakeMatch t) s (wake (emit (.portMAck false) a)) ∧ Gives (.portmP2WakeMatch t) s a) ∧
     (alwaysOn a = false ∨ a.power.pstate = .p0 → Gives (.portmP2WakeMatch t) s a ∧ Gives (.portmP3WakeMatch t) s a) ∧
     (guarding a = true →
       (elapsed a.now 100000000 a.portM.relatchAt = true → Gives (.attentionRelatch t) s { a with portM := { a.portM with
         relatchAt := some a.now,
         causes := a.portM.causes ||| BitVec.ofNat 5 ((if (svc a).rsps = [] then 0 else 1) + 2 * (if (svc a).evts = [] then 0 else 1)) } }) ∧
       (elapsed a.now 100000000 a.portM.relatchAt = false → Gives (.attentionRelatch t) s a)) ∧
     (∀ idle : Nat, 50000 ≤ idle → active a = true → a.portM.causes ≠ 0#5 →
       (a.live.twAttn = 1 → Gives (.attentionSdaLowSend t idle true) s (a |> emit (.portMSend (statusAddr a) [causeByte a]) |> modPortM (fun m => { m with causes := 0#5 })) ∧
         Gives (.attentionSdaLowSend t idle false) s a) ∧
       (∀ acked : Bool, a.live.twAttn = 2 →
         let sent := a |> emit (.portMSend a.live.twHost.toNat ([BitVec.ofNat 8 (2 * statusAddr a), causeByte a] ++ slice (quick a) 8 1))
           |> modPortM (fun m => if acked then { m with causes := 0#5, notifyAt := none } else { m with notifyAt := some a.now })
         (a.portM.notifyAt = none → Gives (.attentionHostNotifySend t idle true acked) s sent ∧ Gives (.attentionHostNotifySend t idle false acked) s a) ∧
         (a.portM.notifyAt.isSome = true → ∀ won, Gives (.attentionHostNotifySend t idle won acked) s a) ∧
         (∀ e, a.portM.notifyAt = some e → e + 10000000 ≤ a.now → Gives (.hostNotifyRetry t true acked) s sent ∧ Gives (.hostNotifyRetry t false acked) s a) ∧
         (∀ e won, a.portM.notifyAt = some e → a.now < e + 10000000 → Gives (.hostNotifyRetry t won acked) s a) ∧
         (∀ won, a.portM.notifyAt = none → Gives (.hostNotifyRetry t won acked) s a))) ∧
     (∀ idle won acked, idle < 50000 ∨ active a = false ∨ a.portM.causes = 0#5 → Gives (.attentionSdaLowSend t idle won) s a ∧ Gives (.attentionHostNotifySend t idle won acked) s a) ∧
     (∀ idle won acked, (a.live.twAttn ≠ 1 → Gives (.attentionSdaLowSend t idle won) s a) ∧
       (a.live.twAttn ≠ 2 → Gives (.attentionHostNotifySend t idle won acked) s a ∧ Gives (.hostNotifyRetry t won acked) s a)) ∧
     (∀ won acked, active a = false ∨ a.portM.causes = 0#5 → Gives (.hostNotifyRetry t won acked) s a))

/-- The test access port. In power-on reset it does nothing. An instruction above the debug level in force is counted and acts as BYPASS, one that the power state or a freeze does not
let work acts as BYPASS, and any other selects its register and does what its row says.
The model's own choices that it rests on: log entries 16, 69, 70, 71, 81, 135. -/
def Obligations.TheTapScansItsRegisters : Prop :=
  ∀ (t : Nat) (s : State), let a := begin t s
    let runs := fun (c : Instr) (code : Nat) (f : State → State) =>
      (a.power.inReset = some .por → Gives c s a) ∧
      (a.power.inReset ≠ some .por → a.dbg.level < tapLevel code → Gives c s (a |> modDbg (fun d => { d with ir := 0xFF }) |> countDev 0xB02 0 |> shiftOut 1 0)) ∧
      (a.power.inReset ≠ some .por → tapLevel code ≤ a.dbg.level → tapWorks code a = false → Gives c s (a |> modDbg (fun d => { d with ir := 0xFF }) |> shiftOut 1 0)) ∧
      (a.power.inReset ≠ some .por → tapLevel code ≤ a.dbg.level → tapWorks code a = true → Gives c s (f (modDbg (fun d => { d with ir := code }) a)))
    let scan := fun (c : Instr) (f : State → State) => runs c 0x20 (fun b => let b' := shiftOut 40 (mbxCapture b) b; if active b' then f b' else b')
    (let b := modDbg (fun d => { d with ir := 0x01, extest := false }) a;
      (a.power.inReset = some .por → Gives (.tapReset t) s a) ∧
      (a.power.inReset ≠ some .por → a.power.inReset ≠ some .extest → Gives (.tapReset t) s b) ∧
      (a.power.inReset = some .extest → a.pins.resetNLow = none → Gives (.tapReset t) s (releaseReset b)) ∧
      (a.power.inReset = some .extest → a.pins.resetNLow.isSome = true → Gives (.tapReset t) s (modPower (fun p => { p with inReset := some .pin }) b))) ∧
    runs (.tapIdcode t) 0x01 (shiftOut 32 idcode) ∧
    (∀ code : Byte, (a.power.inReset = some .por → Gives (.tapBypass t code) s a) ∧ (a.power.inReset ≠ some .por → Gives (.tapBypass t code) s
      ((if a.dbg.level < tapLevel code.toNat then countDev 0xB02 0 a else a) |> modDbg (fun d => { d with ir := 0xFF }) |> shiftOut 1 0))) ∧
    (∀ n pins new, runs (.tapSamplePreload t n pins new) 0x02 (fun b => b |> shiftOut n pins |> modDbg (fun d => { d with boundary := new % 2 ^ n }))) ∧
    (∀ n pins new, let x := fun (b : State) => (if b.dbg.extest then b else modDbg (fun d => { d with extest := true }) (resetDevice .pin (some .extest) b))
        |> shiftOut n pins |> modDbg (fun d => { d with boundary := new % 2 ^ n })
      runs (.tapExtest t n pins new) 0x03 x ∧ runs (.tapExtestPulse t n pins new) 0x04 x ∧ runs (.tapExtestTrain t n pins new) 0x05 x) ∧
    runs (.tapDbgStatus t) 0x10 (fun b => shiftOut 32 (dbgStatus b) b) ∧
    runs (.tapDbgNonce t) 0x11 (fun b => shiftOut 320 (leNat (nonceBytes (newNonce b))) (newNonce b)) ∧
    (∀ (level key : Byte) (sig : List Byte),
      ((level ≠ 1#8 ∧ level ≠ 2#8 ∨ 1 < key.toNat) → runs (.tapDbgToken t level key sig) 0x12 id) ∧
      ((level = 1#8 ∨ level = 2#8) → key.toNat ≤ 1 →
        (mayCheck a = false ∨ lifecycle a.otp ≠ 0 ∧ a.dbg.nonce = none → runs (.tapDbgToken t level key sig) 0x12 (modDbg fun d => { d with last := 3 })) ∧
        (mayCheck a = true → lifecycle a.otp = 0 → runs (.tapDbgToken t level key sig) 0x12 (modDbg fun d => { d with last := 1 })) ∧
        (∀ n, mayCheck a = true → lifecycle a.otp ≠ 0 → a.dbg.nonce = some n →
          runs (.tapDbgToken t level key sig) 0x12 (fun b => (useToken n level.toNat key.toNat (fit 96 sig) b).2)))) ∧
    scan (.tapMbxNop t) (fun b => setCapture ((dbgRing b).rsps.length % 256 + 256 * ((oldest b).length % 65536)) b) ∧
    scan (.tapMbxResetPtr t) (fun b => b |> modDbg (fun d => { d with cmd := [], rd := 0 }) |> setCapture 0) ∧
    (∀ data : BitVec 32, scan (.tapMbxPut t data) (fun b => setCapture 0 (if b.dbg.cmd.length + 4 ≤ 1028 then modDbg (fun d => { d with cmd := d.cmd ++ leBytes 4 data.toNat }) b
      else modDbg (fun d => { d with refused := true }) b))) ∧
    scan (.tapMbxRing t) (fun b => setCapture 0 (if 8 ≤ (dbgRing b).cmds.length then modDbg (fun d => { d with refused := true }) b
      else b |> modRing .debug (fun r => { r with cmds := r.cmds ++ [{ bytes := b.dbg.cmd, at_ := b.now, src := 0#16, gallery := none, arrival := b.hall.arrivalSeq }],
                                                  tail := r.tail + 1#8 })
             |> ringHardware |> modDbg (fun d => { d with refused := false, cmd := [] }))) ∧
    scan (.tapMbxGet t) (fun b => b |> setCapture (field (oldest b) b.dbg.rd 4) |> modDbg (fun d => { d with rd := min 2047 (d.rd + 4) })) ∧
    scan (.tapMbxAck t) (fun b => b |> modRing .debug (fun r => { r with rsps := r.rsps.drop 1 }) |> modDbg (fun d => { d with rd := 0 }) |> setCapture 0) ∧
    runs (.tapFreeze t) 0x21 (fun b => if canFreeze b then freezeNow 4 b else b) ∧
    runs (.tapSnapPublic t) 0x22 (fun b => shiftOut (2048 * publicBlocks) (if b.frz.on then leNat (snapshot false b) else 0) b) ∧
    runs (.tapSnapFull t) 0x30 (fun b => if b.frz.on then { (shiftOut (2048 * fullBlocks) (leNat (snapshot true b)) b) with free := b.free + 1 }
      else shiftOut (2048 * fullBlocks) 0 b) ∧
    (∀ addr : BitVec 64, runs (.tapSramRead t addr) 0x31 (fun b =>
      { (shiftOut 64 (leNat ((List.range 8).map fun k => Config.memory b.free 512 (addr.toNat + k))) b) with free := b.free + 1 })) ∧
    runs (.tapMezHalt t) 0x32 (fun b => if active b ∧ b.mez.run ≠ .off then ringHardware (modMez (fun m => { m with halted := true }) b) else b) ∧
    runs (.tapMezStep t) 0x32 (fun b => if active b ∧ b.mez.halted then modMez (fun m => { m with steps := m.steps + 1 }) b else b) ∧
    runs (.tapMezResume t) 0x32 (fun b => if active b then modMez (fun m => { m with halted := false }) b else b)

/-! ## Three rules stated whole -/

/-- When several conditions hold together, the device reports the first state in the order FROZEN, LOCKOUT, SAFE, BOOT, RECOVERY, PLACED, STRAIGHT, in its status as in its quick status (R33). -/
def Obligations.TheFirstStateInOrderIsReported : Prop :=
  ∀ s : State,
    let order := [(s.frz.on, 5), (s.safety.devLock.isSome, 4), (devSafe s, 3), (inBoot s, 0), (decide (s.mez.run = .recovery), 6), (isPlaced s, 2)]
    deviceState s = ((order.find? (·.1)).map (·.2)).getD 1 ∧
    (s.frz.on = false → (quick s).getD 8 0#8 = BitVec.ofNat 8 (deviceState s)) ∧
    (s.frz.on = true → 8 ≤ s.frz.qs.length → (quick s).getD 8 0#8 = 5#8)

/-- The class of internal faults is safe by default; a `safety.monitor_set` of it accepts only safe or lock-out, and any other value, off among them, fails with BAD_ARG and changes no
setting (R30). -/
def Obligations.InternalFaultsAreNeverOff : Prop :=
  State.reset.safety.record.internal = .safe ∧ ({} : SafetyRecord).internal = .safe ∧
  ∀ (t : Nat) (q : Req) (s : State), Passes cmdMonitorSet t q s → arg q 0 1 = 0xFF → let r := ready cmdMonitorSet t q s
    (arg q 2 1 ≠ 1 → arg q 2 1 ≠ 2 → Gives (.safetyMonitorSet t q) s (answer cmdMonitorSet q 3 [] r)) ∧
    (∀ c, (arg q 2 1 = 1 ∧ c = MonClass.safe ∨ arg q 2 1 = 2 ∧ c = MonClass.lockout) → arg q 1 1 = 6 → arg q 3 1 = 0xFF → arg q 4 2 = 0 → arg q 6 2 = 0 →
      inSession q r = true → r.power.brownout = none → logFull r = false → Replies (.safetyMonitorSet t q) cmdMonitorSet t q s [] (fun b =>
        modSafety (fun f => { f with record := { f.record with internal := c } }) b
          |> logSetting targetDevice q (by8 (classCode b.safety.record.internal)) (by8 (classCode c))))

/-- An unlocking write from a source that has no locked sequence in force is answered LOCK_LOST, when it arrives as when its sequence was lost while it waited, never touches the bus, and
ends the lost state of its source (R421). -/
def Obligations.UnlockingWithoutASequenceIsLost : Prop :=
  ∀ (t : Nat) (s : State), let a := begin t s
    let forget := fun (src : BitVec 16) => modPortL (fun p => { p with lostFor := if p.lostFor.map (·.1) = some src then none else p.lostFor })
    (∀ (port : Fin 10) (p : Parcel) (w : BitVec 128), let x := accessOf p port.val (arrivalOf a port.val p); let d := takeMgmt port.val p a
      port9Serves a = true → pKind p = 2 → pCls p = .np → tagCheck d x.asker = 0 → writeFormed p x = true → x.lock = true →
      decodeWindow d x.asker.src x.address x.count = some w → winFlag w 59 = false → fitsWindow w x = true → winFlag w 58 = true → targetOf (winBase w) = some 3 →
      gateOn a 22 = true → gateOn a 23 = true → a.portL.fenced = false → hasSequence a x.asker.src = false →
      Gives (.bridgeWriteNonposted t port p) s (refuse x.asker 7 (forget x.asker.src d))) ∧
    (∀ (r : PlReq) (acked : Nat), portLRuns a = true → a.portL.recoverDue = false → nextReq a = some r → r ∈ a.portL.waiting → r.lock = true → r.read = false →
      a.portL.lock.map (·.src) ≠ some r.asker.src →
      Gives (.unlockingWrite t acked) s (endReq r 7 0 [] (forget r.asker.src (takeReq r a))))
end

