-- ==== Sys2Proof/Laws/Effect.lean ====
section
/-! SUPPORT. Laws of the frame of a command: what begins and ends every effect, and how a mailbox command comes to its own work. -/

namespace Sys2Proof.Machine

theorem guardR_pos {c : Bool} {st : Nat} {s : State} {k : Reply} (h : c = true) : guardR c st s k = k := by simp [guardR, h]

theorem guardR_neg {c : Bool} {st : Nat} {s : State} {k : Reply} (h : c = false) : guardR c st s k = fail st s := by simp [guardR, h]

theorem onGal_pos {q : Req} {s : State} {k : GalIx → Reply} {g : GalIx} (h : arg q 0 1 = g.val) : onGal q s k = k g := by
  unfold onGal; rw [dif_pos (by omega)]; congr 1; exact Fin.ext h

/-- A command whose guard holds gives its effect. -/
theorem effect_acts {t : Nat} {ok : State → Bool} {f : State → State} {s : State} (h : ok (begin t s) = true) :
    effect t ok f s = .next (finish (f (begin t s))) := by
  simp [effect, h]

/-- A command whose guard does not hold only lets time pass. -/
theorem effect_rests {t : Nat} {ok : State → Bool} {f : State → State} {s : State} (h : ok (begin t s) = false) :
    effect t ok f s = .next (finish (begin t s)) := by
  simp [effect, h]

/-- With nothing due, a command begins with the time and an empty latch alone. -/
theorem begin_quiet {t : Nat} {s : State} (h : firstDue t s = none) : begin t s = { s with out := [], now := max s.now t } := by
  have h' : firstDue t { s with out := [] } = none := h
  simp [begin, settle, h']

/-- Where no trigger fired, what follows an effect changes nothing but the record of attention. -/
theorem finish_quiet {s : State} (h : s.diag.fired = false) : { finish s with portM := s.portM } = s := by
  unfold finish noteAttention
  simp only [h, Bool.false_eq_true, if_false]
  split <;> rfl

/-- What the firmware does with a fresh request: it refuses it for its lease or its shape, or runs it. -/
theorem serve_fresh {c : Cmd} {t : Nat} {q : Req} {s : State} (h : Fresh t q s) :
    serve c q (taken t s) =
      let r := ready c t q s
      if leaseStep c q r ≠ 0 then answer c q (leaseStep c q r) [] (countRefusal c (leaseStep c q r) q r)
      else if shapeStep c q ≠ 0 then answer c q (shapeStep c q) [] r
      else runCmd c q r := by
  obtain ⟨-, h2, h3⟩ := h
  have hf : fwRuns (taken t s) = true := h2
  have hr : (ringAt (taken t s) q.host).dup.map (·.1) ≠ some q.seq := h3
  unfold serve
  rw [if_pos hf]
  unfold serveFw
  cases hx : (ringAt (taken t s) q.host).dup with
  | none => rfl
  | some x =>
    rw [hx] at hr
    have hn : x.1 ≠ q.seq := fun e => hr (congrArg some e)
    simp only [hn, if_false]; rfl

/-- A fresh request gives what the firmware does with it. -/
theorem command_fresh {c : Cmd} {t : Nat} {q : Req} {s u : State} (h : Fresh t q s) (hu : serve c q (taken t s) = u) :
    command t c q s = .next (finish u) := by
  unfold command
  rw [effect_acts h.1]
  exact congrArg (fun u => Host.Outcome.next (finish u)) hu

/-- A request whose checks have passed runs its body. -/
theorem command_runs {c : Cmd} {t : Nat} {q : Req} {s : State} (h : Passes c t q s) : command t c q s = .next (finish (
    let r := ready c t q s
    match c.body q r with
    | .done st p s' => answer c q st p s'
    | .wait l s' => modRing q.host (fun x => { x with wait := some { op := c.op, req := q, at_ := r.now, due := r.now + l * slower r, mark := r.mbx.frame } }) s')) := by
  obtain ⟨h1, h4, h5, h6, h7⟩ := h
  rw [command_fresh h1 rfl, serve_fresh h1]
  simp only [h4, h5, ne_eq, not_true_eq_false, if_false, runCmd, h6, h7, Bool.false_eq_true] <;> rfl

/-- A request whose checks have passed and whose body answers. -/
theorem command_answers {c : Cmd} {t : Nat} {q : Req} {s : State} {p : List Byte} {f : State → State} (h : Passes c t q s)
    (hb : c.body q (ready c t q s) = .done 0 p (f (ready c t q s))) :
    command t c q s = .next (finish (answer c q 0 p (f (ready c t q s)))) := by
  rw [command_runs h]; simp only [hb]

/-- A request whose checks have passed and whose body waits. -/
theorem command_waits {c : Cmd} {t : Nat} {q : Req} {s : State} {l : Nat} {f : State → State} (h : Passes c t q s)
    (hb : c.body q (ready c t q s) = .wait l (f (ready c t q s))) :
    let r := ready c t q s
    let w : Waiting := { op := c.op, req := q, at_ := r.now, due := r.now + l * slower r, mark := r.mbx.frame }
    command t c q s = .next (finish (modRing q.host (fun x => { x with wait := some w }) (f r))) := by
  intro r w
  rw [command_runs h]; simp only [hb]; rfl

/-- A row of a mailbox command replies with what the command's body answers. -/
theorem replies_of {i : Instr} {c : Cmd} {t : Nat} {q : Req} {s : State} {p : List Byte} {f : State → State} (hi : exec i s = command t c q s)
    (h : Passes c t q s) (hb : c.body q (ready c t q s) = .done 0 p (f (ready c t q s))) : Replies i c t q s p f :=
  hi.trans (command_answers h hb)

/-- A row of a mailbox command whose body refuses answers its status and changes nothing else. -/
theorem refuses_of {i : Instr} {c : Cmd} {t : Nat} {q : Req} {s : State} {st : Nat} (hi : exec i s = command t c q s)
    (h : Passes c t q s) (hb : c.body q (ready c t q s) = fail st (ready c t q s)) : Gives i s (answer c q st [] (ready c t q s)) := by
  unfold Gives; rw [hi, command_runs h]; simp only [hb, fail]

/-- A row of a mailbox command whose body waits has its effect and waits. -/
theorem waits_of {i : Instr} {c : Cmd} {t : Nat} {q : Req} {s : State} {l : Nat} {f : State → State} (hi : exec i s = command t c q s)
    (h : Passes c t q s) (hb : c.body q (ready c t q s) = .wait l (f (ready c t q s))) : Waits i c t q s l f :=
  hi.trans (command_waits h hb)

end Sys2Proof.Machine
end

