-- ==== Sys2Proof/Laws/Maps.lean ====
section
/-! SUPPORT. Laws of sparse maps: reading after writing, and the rising order of keys. -/

namespace Sys2Proof.Machine

/-- The keys of a map rise. -/
def Rising (m : SMap α) : Prop := (m.map (·.1)).Pairwise (· < ·)

theorem mget?_mput (m : SMap α) (k j : Nat) (v : α) (h : Rising m) :
    mget? (mput m k v) j = if j = k then some v else mget? m j := by
  induction m with
  | nil => simp [mput, mget?, eq_comm]
  | cons e r ih =>
    obtain ⟨i, w⟩ := e
    have hr : Rising r := List.Pairwise.of_cons h
    unfold mput
    by_cases h1 : i = k
    · subst h1
      by_cases h2 : i = j
      · simp [mget?, h2]
      · simp [mget?, h2, Ne.symm h2]
    · by_cases h2 : k < i
      · simp only [h1, h2, if_true, if_false, mget?, eq_comm]
      · simp only [h1, h2, if_false, mget?, ih hr]
        by_cases h3 : i = j
        · subst h3; simp [h1]
        · simp [h3]

theorem mget?_merase (m : SMap α) (k j : Nat) : mget? (merase m k) j = if j = k then none else mget? m j := by
  induction m with
  | nil => simp [merase, mget?]
  | cons e r ih =>
    obtain ⟨i, w⟩ := e
    simp only [merase, List.filter_cons] at ih ⊢
    by_cases h1 : i = k
    · subst h1
      simp only [bne_self_eq_false, Bool.false_eq_true, if_false, mget?, ih]
      by_cases h2 : j = i
      · simp [h2]
      · simp [h2, Ne.symm h2]
    · have hb : (i != k) = true := by simpa using h1
      simp only [hb, if_true, mget?, ih]
      by_cases h2 : i = j
      · subst h2; simp [h1]
      · simp [h2]

theorem mget_eq (d : α) (m : SMap α) (k : Nat) : mget d m k = (mget? m k).getD d := by
  induction m with
  | nil => rfl
  | cons e r ih =>
    obtain ⟨i, w⟩ := e
    by_cases h : i = k <;> simp [mget, mget?, h, ih]

theorem mem_keys_mput (m : SMap α) (k : Nat) (v : α) (x : Nat) :
    x ∈ (mput m k v).map (·.1) → x = k ∨ x ∈ m.map (·.1) := by
  induction m with
  | nil => simp [mput]
  | cons e r ih =>
    obtain ⟨i, w⟩ := e
    unfold mput
    split
    · simp_all
    · split
      · simp
      · simp only [List.map_cons, List.mem_cons]
        rintro (h | h)
        · exact .inr (.inl h)
        · exact (ih h).imp_right .inr

theorem rising_mput (m : SMap α) (k : Nat) (v : α) (h : Rising m) : Rising (mput m k v) := by
  induction m with
  | nil => simp [mput, Rising]
  | cons e r ih =>
    obtain ⟨i, w⟩ := e
    unfold Rising at h ih ⊢
    simp only [List.map_cons, List.pairwise_cons] at h
    unfold mput
    split
    · subst_vars; simpa using h
    · split
      · rename_i h2
        simp only [List.map_cons, List.pairwise_cons, List.mem_cons]
        refine ⟨?_, h⟩
        rintro x (rfl | hx)
        · exact h2
        · exact Nat.lt_trans h2 (h.1 x hx)
      · rename_i h1 h2
        simp only [List.map_cons, List.pairwise_cons]
        refine ⟨fun x hx => ?_, ih h.2⟩
        rcases mem_keys_mput r k v x hx with rfl | hx
        · omega
        · exact h.1 x hx

theorem rising_filter (m : SMap α) (p : Nat × α → Bool) (h : Rising m) : Rising (m.filter p) :=
  List.Pairwise.sublist (List.filter_sublist.map _) h

theorem rising_merase (m : SMap α) (k : Nat) (h : Rising m) : Rising (merase m k) := rising_filter m _ h

theorem mem_mput (m : SMap α) (k : Nat) (v : α) (e : Nat × α) : e ∈ mput m k v → e = (k, v) ∨ e ∈ m := by
  induction m with
  | nil => simp [mput]
  | cons a r ih =>
    obtain ⟨i, w⟩ := a
    unfold mput
    split
    · simp only [List.mem_cons]; exact fun h => h.imp_right .inr
    · split
      · simp only [List.mem_cons]; exact id
      · simp only [List.mem_cons]
        rintro (h | h)
        · exact .inr (.inl h)
        · exact (ih h).imp_right .inr

/-- Reading a key after changing one. -/
theorem mget_mmod [DecidableEq α] (d : α) (m : SMap α) (k j : Nat) (f : α → α) (h : Rising m) :
    mget d (mmod d m k f) j = if j = k then f (mget d m k) else mget d m j := by
  unfold mmod mset
  split
  · rename_i he
    simp only [mget_eq, mget?_merase]
    split
    · subst_vars; rw [mget_eq] at he; simp [he]
    · rfl
  · simp only [mget_eq, mget?_mput _ _ _ _ h]
    split <;> simp_all

theorem rising_mmod [DecidableEq α] (d : α) (m : SMap α) (k : Nat) (f : α → α) (h : Rising m) : Rising (mmod d m k f) := by
  unfold mmod mset
  split
  · exact rising_merase _ _ h
  · exact rising_mput _ _ _ h

end Sys2Proof.Machine
end

