-- ==== Sys2Proof/Laws/State.lean ====
section
/-! SUPPORT. What each update of the state leaves in each field, one lemma per field per update; and a gallery read after a change of one. -/

namespace Sys2Proof.Machine

variable (s : State)

/-! What the block sends gains one output. -/

@[simp] theorem emit_now (o : Output) : (emit o s).now = s.now := rfl
@[simp] theorem emit_power (o : Output) : (emit o s).power = s.power := rfl
@[simp] theorem emit_pins (o : Output) : (emit o s).pins = s.pins := rfl
@[simp] theorem emit_clocks (o : Output) : (emit o s).clocks = s.clocks := rfl
@[simp] theorem emit_live (o : Output) : (emit o s).live = s.live := rfl
@[simp] theorem emit_gals (o : Output) : (emit o s).gals = s.gals := rfl
@[simp] theorem emit_hall (o : Output) : (emit o s).hall = s.hall := rfl
@[simp] theorem emit_cutter (o : Output) : (emit o s).cutter = s.cutter := rfl
@[simp] theorem emit_corr (o : Output) : (emit o s).corr = s.corr := rfl
@[simp] theorem emit_safety (o : Output) : (emit o s).safety = s.safety := rfl
@[simp] theorem emit_bridge (o : Output) : (emit o s).bridge = s.bridge := rfl
@[simp] theorem emit_portL (o : Output) : (emit o s).portL = s.portL := rfl
@[simp] theorem emit_portM (o : Output) : (emit o s).portM = s.portM := rfl
@[simp] theorem emit_mbx (o : Output) : (emit o s).mbx = s.mbx := rfl
@[simp] theorem emit_log (o : Output) : (emit o s).log = s.log := rfl
@[simp] theorem emit_upd (o : Output) : (emit o s).upd = s.upd := rfl
@[simp] theorem emit_otp (o : Output) : (emit o s).otp = s.otp := rfl
@[simp] theorem emit_mram (o : Output) : (emit o s).mram = s.mram := rfl
@[simp] theorem emit_mez (o : Output) : (emit o s).mez = s.mez := rfl
@[simp] theorem emit_dbg (o : Output) : (emit o s).dbg = s.dbg := rfl
@[simp] theorem emit_diag (o : Output) : (emit o s).diag = s.diag := rfl
@[simp] theorem emit_frz (o : Output) : (emit o s).frz = s.frz := rfl
@[simp] theorem emit_ctr (o : Output) : (emit o s).ctr = s.ctr := rfl
@[simp] theorem emit_free (o : Output) : (emit o s).free = s.free := rfl
@[simp] theorem emit_out (o : Output) : (emit o s).out = s.out ++ [o] := rfl
@[simp] theorem emit_pending (o : Output) : (emit o s).pending = s.pending := rfl

/-! A change of a gallery. -/

@[simp] theorem modGal_now (g : GalIx) (f : Gal → Gal) : (modGal g f s).now = s.now := rfl
@[simp] theorem modGal_power (g : GalIx) (f : Gal → Gal) : (modGal g f s).power = s.power := rfl
@[simp] theorem modGal_pins (g : GalIx) (f : Gal → Gal) : (modGal g f s).pins = s.pins := rfl
@[simp] theorem modGal_clocks (g : GalIx) (f : Gal → Gal) : (modGal g f s).clocks = s.clocks := rfl
@[simp] theorem modGal_live (g : GalIx) (f : Gal → Gal) : (modGal g f s).live = s.live := rfl
@[simp] theorem modGal_gals (g : GalIx) (f : Gal → Gal) : (modGal g f s).gals = s.gals.set g.val (f s.gals[g]) g.isLt := rfl
@[simp] theorem modGal_hall (g : GalIx) (f : Gal → Gal) : (modGal g f s).hall = s.hall := rfl
@[simp] theorem modGal_cutter (g : GalIx) (f : Gal → Gal) : (modGal g f s).cutter = s.cutter := rfl
@[simp] theorem modGal_corr (g : GalIx) (f : Gal → Gal) : (modGal g f s).corr = s.corr := rfl
@[simp] theorem modGal_safety (g : GalIx) (f : Gal → Gal) : (modGal g f s).safety = s.safety := rfl
@[simp] theorem modGal_bridge (g : GalIx) (f : Gal → Gal) : (modGal g f s).bridge = s.bridge := rfl
@[simp] theorem modGal_portL (g : GalIx) (f : Gal → Gal) : (modGal g f s).portL = s.portL := rfl
@[simp] theorem modGal_portM (g : GalIx) (f : Gal → Gal) : (modGal g f s).portM = s.portM := rfl
@[simp] theorem modGal_mbx (g : GalIx) (f : Gal → Gal) : (modGal g f s).mbx = s.mbx := rfl
@[simp] theorem modGal_log (g : GalIx) (f : Gal → Gal) : (modGal g f s).log = s.log := rfl
@[simp] theorem modGal_upd (g : GalIx) (f : Gal → Gal) : (modGal g f s).upd = s.upd := rfl
@[simp] theorem modGal_otp (g : GalIx) (f : Gal → Gal) : (modGal g f s).otp = s.otp := rfl
@[simp] theorem modGal_mram (g : GalIx) (f : Gal → Gal) : (modGal g f s).mram = s.mram := rfl
@[simp] theorem modGal_mez (g : GalIx) (f : Gal → Gal) : (modGal g f s).mez = s.mez := rfl
@[simp] theorem modGal_dbg (g : GalIx) (f : Gal → Gal) : (modGal g f s).dbg = s.dbg := rfl
@[simp] theorem modGal_diag (g : GalIx) (f : Gal → Gal) : (modGal g f s).diag = s.diag := rfl
@[simp] theorem modGal_frz (g : GalIx) (f : Gal → Gal) : (modGal g f s).frz = s.frz := rfl
@[simp] theorem modGal_ctr (g : GalIx) (f : Gal → Gal) : (modGal g f s).ctr = s.ctr := rfl
@[simp] theorem modGal_free (g : GalIx) (f : Gal → Gal) : (modGal g f s).free = s.free := rfl
@[simp] theorem modGal_out (g : GalIx) (f : Gal → Gal) : (modGal g f s).out = s.out := rfl
@[simp] theorem modGal_pending (g : GalIx) (f : Gal → Gal) : (modGal g f s).pending = s.pending := rfl

/-! A count. -/

@[simp] theorem countN_now (id g lane inst n : Nat) : (countN id g lane inst n s).now = s.now := rfl
@[simp] theorem countN_power (id g lane inst n : Nat) : (countN id g lane inst n s).power = s.power := rfl
@[simp] theorem countN_pins (id g lane inst n : Nat) : (countN id g lane inst n s).pins = s.pins := rfl
@[simp] theorem countN_clocks (id g lane inst n : Nat) : (countN id g lane inst n s).clocks = s.clocks := rfl
@[simp] theorem countN_live (id g lane inst n : Nat) : (countN id g lane inst n s).live = s.live := rfl
@[simp] theorem countN_gals (id g lane inst n : Nat) : (countN id g lane inst n s).gals = s.gals := rfl
@[simp] theorem countN_hall (id g lane inst n : Nat) : (countN id g lane inst n s).hall = s.hall := rfl
@[simp] theorem countN_cutter (id g lane inst n : Nat) : (countN id g lane inst n s).cutter = s.cutter := rfl
@[simp] theorem countN_corr (id g lane inst n : Nat) : (countN id g lane inst n s).corr = s.corr := rfl
@[simp] theorem countN_safety (id g lane inst n : Nat) : (countN id g lane inst n s).safety = s.safety := rfl
@[simp] theorem countN_bridge (id g lane inst n : Nat) : (countN id g lane inst n s).bridge = s.bridge := rfl
@[simp] theorem countN_portL (id g lane inst n : Nat) : (countN id g lane inst n s).portL = s.portL := rfl
@[simp] theorem countN_portM (id g lane inst n : Nat) : (countN id g lane inst n s).portM = s.portM := rfl
@[simp] theorem countN_mbx (id g lane inst n : Nat) : (countN id g lane inst n s).mbx = s.mbx := rfl
@[simp] theorem countN_log (id g lane inst n : Nat) : (countN id g lane inst n s).log = s.log := rfl
@[simp] theorem countN_upd (id g lane inst n : Nat) : (countN id g lane inst n s).upd = s.upd := rfl
@[simp] theorem countN_otp (id g lane inst n : Nat) : (countN id g lane inst n s).otp = s.otp := rfl
@[simp] theorem countN_mram (id g lane inst n : Nat) : (countN id g lane inst n s).mram = s.mram := rfl
@[simp] theorem countN_mez (id g lane inst n : Nat) : (countN id g lane inst n s).mez = s.mez := rfl
@[simp] theorem countN_dbg (id g lane inst n : Nat) : (countN id g lane inst n s).dbg = s.dbg := rfl
@[simp] theorem countN_diag (id g lane inst n : Nat) : (countN id g lane inst n s).diag = s.diag := rfl
@[simp] theorem countN_frz (id g lane inst n : Nat) : (countN id g lane inst n s).frz = s.frz := rfl
@[simp] theorem countN_ctr (id g lane inst n : Nat) : (countN id g lane inst n s).ctr = mmod 0 s.ctr (ctrKey id g lane inst) fun v => satAdd (ctrWidth id) v n := rfl
@[simp] theorem countN_free (id g lane inst n : Nat) : (countN id g lane inst n s).free = s.free := rfl
@[simp] theorem countN_out (id g lane inst n : Nat) : (countN id g lane inst n s).out = s.out := rfl
@[simp] theorem countN_pending (id g lane inst n : Nat) : (countN id g lane inst n s).pending = s.pending := rfl

/-! A change of `corr`. -/

@[simp] theorem modCorr_now (f : Correction → Correction) : (modCorr f s).now = s.now := rfl
@[simp] theorem modCorr_power (f : Correction → Correction) : (modCorr f s).power = s.power := rfl
@[simp] theorem modCorr_pins (f : Correction → Correction) : (modCorr f s).pins = s.pins := rfl
@[simp] theorem modCorr_clocks (f : Correction → Correction) : (modCorr f s).clocks = s.clocks := rfl
@[simp] theorem modCorr_live (f : Correction → Correction) : (modCorr f s).live = s.live := rfl
@[simp] theorem modCorr_gals (f : Correction → Correction) : (modCorr f s).gals = s.gals := rfl
@[simp] theorem modCorr_hall (f : Correction → Correction) : (modCorr f s).hall = s.hall := rfl
@[simp] theorem modCorr_cutter (f : Correction → Correction) : (modCorr f s).cutter = s.cutter := rfl
@[simp] theorem modCorr_corr (f : Correction → Correction) : (modCorr f s).corr = f s.corr := rfl
@[simp] theorem modCorr_safety (f : Correction → Correction) : (modCorr f s).safety = s.safety := rfl
@[simp] theorem modCorr_bridge (f : Correction → Correction) : (modCorr f s).bridge = s.bridge := rfl
@[simp] theorem modCorr_portL (f : Correction → Correction) : (modCorr f s).portL = s.portL := rfl
@[simp] theorem modCorr_portM (f : Correction → Correction) : (modCorr f s).portM = s.portM := rfl
@[simp] theorem modCorr_mbx (f : Correction → Correction) : (modCorr f s).mbx = s.mbx := rfl
@[simp] theorem modCorr_log (f : Correction → Correction) : (modCorr f s).log = s.log := rfl
@[simp] theorem modCorr_upd (f : Correction → Correction) : (modCorr f s).upd = s.upd := rfl
@[simp] theorem modCorr_otp (f : Correction → Correction) : (modCorr f s).otp = s.otp := rfl
@[simp] theorem modCorr_mram (f : Correction → Correction) : (modCorr f s).mram = s.mram := rfl
@[simp] theorem modCorr_mez (f : Correction → Correction) : (modCorr f s).mez = s.mez := rfl
@[simp] theorem modCorr_dbg (f : Correction → Correction) : (modCorr f s).dbg = s.dbg := rfl
@[simp] theorem modCorr_diag (f : Correction → Correction) : (modCorr f s).diag = s.diag := rfl
@[simp] theorem modCorr_frz (f : Correction → Correction) : (modCorr f s).frz = s.frz := rfl
@[simp] theorem modCorr_ctr (f : Correction → Correction) : (modCorr f s).ctr = s.ctr := rfl
@[simp] theorem modCorr_free (f : Correction → Correction) : (modCorr f s).free = s.free := rfl
@[simp] theorem modCorr_out (f : Correction → Correction) : (modCorr f s).out = s.out := rfl
@[simp] theorem modCorr_pending (f : Correction → Correction) : (modCorr f s).pending = s.pending := rfl

/-! A change of `bridge`. -/

@[simp] theorem modBridge_now (f : Bridge → Bridge) : (modBridge f s).now = s.now := rfl
@[simp] theorem modBridge_power (f : Bridge → Bridge) : (modBridge f s).power = s.power := rfl
@[simp] theorem modBridge_pins (f : Bridge → Bridge) : (modBridge f s).pins = s.pins := rfl
@[simp] theorem modBridge_clocks (f : Bridge → Bridge) : (modBridge f s).clocks = s.clocks := rfl
@[simp] theorem modBridge_live (f : Bridge → Bridge) : (modBridge f s).live = s.live := rfl
@[simp] theorem modBridge_gals (f : Bridge → Bridge) : (modBridge f s).gals = s.gals := rfl
@[simp] theorem modBridge_hall (f : Bridge → Bridge) : (modBridge f s).hall = s.hall := rfl
@[simp] theorem modBridge_cutter (f : Bridge → Bridge) : (modBridge f s).cutter = s.cutter := rfl
@[simp] theorem modBridge_corr (f : Bridge → Bridge) : (modBridge f s).corr = s.corr := rfl
@[simp] theorem modBridge_safety (f : Bridge → Bridge) : (modBridge f s).safety = s.safety := rfl
@[simp] theorem modBridge_bridge (f : Bridge → Bridge) : (modBridge f s).bridge = f s.bridge := rfl
@[simp] theorem modBridge_portL (f : Bridge → Bridge) : (modBridge f s).portL = s.portL := rfl
@[simp] theorem modBridge_portM (f : Bridge → Bridge) : (modBridge f s).portM = s.portM := rfl
@[simp] theorem modBridge_mbx (f : Bridge → Bridge) : (modBridge f s).mbx = s.mbx := rfl
@[simp] theorem modBridge_log (f : Bridge → Bridge) : (modBridge f s).log = s.log := rfl
@[simp] theorem modBridge_upd (f : Bridge → Bridge) : (modBridge f s).upd = s.upd := rfl
@[simp] theorem modBridge_otp (f : Bridge → Bridge) : (modBridge f s).otp = s.otp := rfl
@[simp] theorem modBridge_mram (f : Bridge → Bridge) : (modBridge f s).mram = s.mram := rfl
@[simp] theorem modBridge_mez (f : Bridge → Bridge) : (modBridge f s).mez = s.mez := rfl
@[simp] theorem modBridge_dbg (f : Bridge → Bridge) : (modBridge f s).dbg = s.dbg := rfl
@[simp] theorem modBridge_diag (f : Bridge → Bridge) : (modBridge f s).diag = s.diag := rfl
@[simp] theorem modBridge_frz (f : Bridge → Bridge) : (modBridge f s).frz = s.frz := rfl
@[simp] theorem modBridge_ctr (f : Bridge → Bridge) : (modBridge f s).ctr = s.ctr := rfl
@[simp] theorem modBridge_free (f : Bridge → Bridge) : (modBridge f s).free = s.free := rfl
@[simp] theorem modBridge_out (f : Bridge → Bridge) : (modBridge f s).out = s.out := rfl
@[simp] theorem modBridge_pending (f : Bridge → Bridge) : (modBridge f s).pending = s.pending := rfl

/-! A change of `safety`. -/

@[simp] theorem modSafety_now (f : Safety → Safety) : (modSafety f s).now = s.now := rfl
@[simp] theorem modSafety_power (f : Safety → Safety) : (modSafety f s).power = s.power := rfl
@[simp] theorem modSafety_pins (f : Safety → Safety) : (modSafety f s).pins = s.pins := rfl
@[simp] theorem modSafety_clocks (f : Safety → Safety) : (modSafety f s).clocks = s.clocks := rfl
@[simp] theorem modSafety_live (f : Safety → Safety) : (modSafety f s).live = s.live := rfl
@[simp] theorem modSafety_gals (f : Safety → Safety) : (modSafety f s).gals = s.gals := rfl
@[simp] theorem modSafety_hall (f : Safety → Safety) : (modSafety f s).hall = s.hall := rfl
@[simp] theorem modSafety_cutter (f : Safety → Safety) : (modSafety f s).cutter = s.cutter := rfl
@[simp] theorem modSafety_corr (f : Safety → Safety) : (modSafety f s).corr = s.corr := rfl
@[simp] theorem modSafety_safety (f : Safety → Safety) : (modSafety f s).safety = f s.safety := rfl
@[simp] theorem modSafety_bridge (f : Safety → Safety) : (modSafety f s).bridge = s.bridge := rfl
@[simp] theorem modSafety_portL (f : Safety → Safety) : (modSafety f s).portL = s.portL := rfl
@[simp] theorem modSafety_portM (f : Safety → Safety) : (modSafety f s).portM = s.portM := rfl
@[simp] theorem modSafety_mbx (f : Safety → Safety) : (modSafety f s).mbx = s.mbx := rfl
@[simp] theorem modSafety_log (f : Safety → Safety) : (modSafety f s).log = s.log := rfl
@[simp] theorem modSafety_upd (f : Safety → Safety) : (modSafety f s).upd = s.upd := rfl
@[simp] theorem modSafety_otp (f : Safety → Safety) : (modSafety f s).otp = s.otp := rfl
@[simp] theorem modSafety_mram (f : Safety → Safety) : (modSafety f s).mram = s.mram := rfl
@[simp] theorem modSafety_mez (f : Safety → Safety) : (modSafety f s).mez = s.mez := rfl
@[simp] theorem modSafety_dbg (f : Safety → Safety) : (modSafety f s).dbg = s.dbg := rfl
@[simp] theorem modSafety_diag (f : Safety → Safety) : (modSafety f s).diag = s.diag := rfl
@[simp] theorem modSafety_frz (f : Safety → Safety) : (modSafety f s).frz = s.frz := rfl
@[simp] theorem modSafety_ctr (f : Safety → Safety) : (modSafety f s).ctr = s.ctr := rfl
@[simp] theorem modSafety_free (f : Safety → Safety) : (modSafety f s).free = s.free := rfl
@[simp] theorem modSafety_out (f : Safety → Safety) : (modSafety f s).out = s.out := rfl
@[simp] theorem modSafety_pending (f : Safety → Safety) : (modSafety f s).pending = s.pending := rfl

/-! A change of `clocks`. -/

@[simp] theorem modClocks_now (f : ClockUnit → ClockUnit) : (modClocks f s).now = s.now := rfl
@[simp] theorem modClocks_power (f : ClockUnit → ClockUnit) : (modClocks f s).power = s.power := rfl
@[simp] theorem modClocks_pins (f : ClockUnit → ClockUnit) : (modClocks f s).pins = s.pins := rfl
@[simp] theorem modClocks_clocks (f : ClockUnit → ClockUnit) : (modClocks f s).clocks = f s.clocks := rfl
@[simp] theorem modClocks_live (f : ClockUnit → ClockUnit) : (modClocks f s).live = s.live := rfl
@[simp] theorem modClocks_gals (f : ClockUnit → ClockUnit) : (modClocks f s).gals = s.gals := rfl
@[simp] theorem modClocks_hall (f : ClockUnit → ClockUnit) : (modClocks f s).hall = s.hall := rfl
@[simp] theorem modClocks_cutter (f : ClockUnit → ClockUnit) : (modClocks f s).cutter = s.cutter := rfl
@[simp] theorem modClocks_corr (f : ClockUnit → ClockUnit) : (modClocks f s).corr = s.corr := rfl
@[simp] theorem modClocks_safety (f : ClockUnit → ClockUnit) : (modClocks f s).safety = s.safety := rfl
@[simp] theorem modClocks_bridge (f : ClockUnit → ClockUnit) : (modClocks f s).bridge = s.bridge := rfl
@[simp] theorem modClocks_portL (f : ClockUnit → ClockUnit) : (modClocks f s).portL = s.portL := rfl
@[simp] theorem modClocks_portM (f : ClockUnit → ClockUnit) : (modClocks f s).portM = s.portM := rfl
@[simp] theorem modClocks_mbx (f : ClockUnit → ClockUnit) : (modClocks f s).mbx = s.mbx := rfl
@[simp] theorem modClocks_log (f : ClockUnit → ClockUnit) : (modClocks f s).log = s.log := rfl
@[simp] theorem modClocks_upd (f : ClockUnit → ClockUnit) : (modClocks f s).upd = s.upd := rfl
@[simp] theorem modClocks_otp (f : ClockUnit → ClockUnit) : (modClocks f s).otp = s.otp := rfl
@[simp] theorem modClocks_mram (f : ClockUnit → ClockUnit) : (modClocks f s).mram = s.mram := rfl
@[simp] theorem modClocks_mez (f : ClockUnit → ClockUnit) : (modClocks f s).mez = s.mez := rfl
@[simp] theorem modClocks_dbg (f : ClockUnit → ClockUnit) : (modClocks f s).dbg = s.dbg := rfl
@[simp] theorem modClocks_diag (f : ClockUnit → ClockUnit) : (modClocks f s).diag = s.diag := rfl
@[simp] theorem modClocks_frz (f : ClockUnit → ClockUnit) : (modClocks f s).frz = s.frz := rfl
@[simp] theorem modClocks_ctr (f : ClockUnit → ClockUnit) : (modClocks f s).ctr = s.ctr := rfl
@[simp] theorem modClocks_free (f : ClockUnit → ClockUnit) : (modClocks f s).free = s.free := rfl
@[simp] theorem modClocks_out (f : ClockUnit → ClockUnit) : (modClocks f s).out = s.out := rfl
@[simp] theorem modClocks_pending (f : ClockUnit → ClockUnit) : (modClocks f s).pending = s.pending := rfl

/-! A change of `power`. -/

@[simp] theorem modPower_now (f : PowerUnit → PowerUnit) : (modPower f s).now = s.now := rfl
@[simp] theorem modPower_power (f : PowerUnit → PowerUnit) : (modPower f s).power = f s.power := rfl
@[simp] theorem modPower_pins (f : PowerUnit → PowerUnit) : (modPower f s).pins = s.pins := rfl
@[simp] theorem modPower_clocks (f : PowerUnit → PowerUnit) : (modPower f s).clocks = s.clocks := rfl
@[simp] theorem modPower_live (f : PowerUnit → PowerUnit) : (modPower f s).live = s.live := rfl
@[simp] theorem modPower_gals (f : PowerUnit → PowerUnit) : (modPower f s).gals = s.gals := rfl
@[simp] theorem modPower_hall (f : PowerUnit → PowerUnit) : (modPower f s).hall = s.hall := rfl
@[simp] theorem modPower_cutter (f : PowerUnit → PowerUnit) : (modPower f s).cutter = s.cutter := rfl
@[simp] theorem modPower_corr (f : PowerUnit → PowerUnit) : (modPower f s).corr = s.corr := rfl
@[simp] theorem modPower_safety (f : PowerUnit → PowerUnit) : (modPower f s).safety = s.safety := rfl
@[simp] theorem modPower_bridge (f : PowerUnit → PowerUnit) : (modPower f s).bridge = s.bridge := rfl
@[simp] theorem modPower_portL (f : PowerUnit → PowerUnit) : (modPower f s).portL = s.portL := rfl
@[simp] theorem modPower_portM (f : PowerUnit → PowerUnit) : (modPower f s).portM = s.portM := rfl
@[simp] theorem modPower_mbx (f : PowerUnit → PowerUnit) : (modPower f s).mbx = s.mbx := rfl
@[simp] theorem modPower_log (f : PowerUnit → PowerUnit) : (modPower f s).log = s.log := rfl
@[simp] theorem modPower_upd (f : PowerUnit → PowerUnit) : (modPower f s).upd = s.upd := rfl
@[simp] theorem modPower_otp (f : PowerUnit → PowerUnit) : (modPower f s).otp = s.otp := rfl
@[simp] theorem modPower_mram (f : PowerUnit → PowerUnit) : (modPower f s).mram = s.mram := rfl
@[simp] theorem modPower_mez (f : PowerUnit → PowerUnit) : (modPower f s).mez = s.mez := rfl
@[simp] theorem modPower_dbg (f : PowerUnit → PowerUnit) : (modPower f s).dbg = s.dbg := rfl
@[simp] theorem modPower_diag (f : PowerUnit → PowerUnit) : (modPower f s).diag = s.diag := rfl
@[simp] theorem modPower_frz (f : PowerUnit → PowerUnit) : (modPower f s).frz = s.frz := rfl
@[simp] theorem modPower_ctr (f : PowerUnit → PowerUnit) : (modPower f s).ctr = s.ctr := rfl
@[simp] theorem modPower_free (f : PowerUnit → PowerUnit) : (modPower f s).free = s.free := rfl
@[simp] theorem modPower_out (f : PowerUnit → PowerUnit) : (modPower f s).out = s.out := rfl
@[simp] theorem modPower_pending (f : PowerUnit → PowerUnit) : (modPower f s).pending = s.pending := rfl

/-! A change of `mram`. -/

@[simp] theorem modMram_now (f : Mram → Mram) : (modMram f s).now = s.now := rfl
@[simp] theorem modMram_power (f : Mram → Mram) : (modMram f s).power = s.power := rfl
@[simp] theorem modMram_pins (f : Mram → Mram) : (modMram f s).pins = s.pins := rfl
@[simp] theorem modMram_clocks (f : Mram → Mram) : (modMram f s).clocks = s.clocks := rfl
@[simp] theorem modMram_live (f : Mram → Mram) : (modMram f s).live = s.live := rfl
@[simp] theorem modMram_gals (f : Mram → Mram) : (modMram f s).gals = s.gals := rfl
@[simp] theorem modMram_hall (f : Mram → Mram) : (modMram f s).hall = s.hall := rfl
@[simp] theorem modMram_cutter (f : Mram → Mram) : (modMram f s).cutter = s.cutter := rfl
@[simp] theorem modMram_corr (f : Mram → Mram) : (modMram f s).corr = s.corr := rfl
@[simp] theorem modMram_safety (f : Mram → Mram) : (modMram f s).safety = s.safety := rfl
@[simp] theorem modMram_bridge (f : Mram → Mram) : (modMram f s).bridge = s.bridge := rfl
@[simp] theorem modMram_portL (f : Mram → Mram) : (modMram f s).portL = s.portL := rfl
@[simp] theorem modMram_portM (f : Mram → Mram) : (modMram f s).portM = s.portM := rfl
@[simp] theorem modMram_mbx (f : Mram → Mram) : (modMram f s).mbx = s.mbx := rfl
@[simp] theorem modMram_log (f : Mram → Mram) : (modMram f s).log = s.log := rfl
@[simp] theorem modMram_upd (f : Mram → Mram) : (modMram f s).upd = s.upd := rfl
@[simp] theorem modMram_otp (f : Mram → Mram) : (modMram f s).otp = s.otp := rfl
@[simp] theorem modMram_mram (f : Mram → Mram) : (modMram f s).mram = f s.mram := rfl
@[simp] theorem modMram_mez (f : Mram → Mram) : (modMram f s).mez = s.mez := rfl
@[simp] theorem modMram_dbg (f : Mram → Mram) : (modMram f s).dbg = s.dbg := rfl
@[simp] theorem modMram_diag (f : Mram → Mram) : (modMram f s).diag = s.diag := rfl
@[simp] theorem modMram_frz (f : Mram → Mram) : (modMram f s).frz = s.frz := rfl
@[simp] theorem modMram_ctr (f : Mram → Mram) : (modMram f s).ctr = s.ctr := rfl
@[simp] theorem modMram_free (f : Mram → Mram) : (modMram f s).free = s.free := rfl
@[simp] theorem modMram_out (f : Mram → Mram) : (modMram f s).out = s.out := rfl
@[simp] theorem modMram_pending (f : Mram → Mram) : (modMram f s).pending = s.pending := rfl

/-! A change of `mez`. -/

@[simp] theorem modMez_now (f : Mez → Mez) : (modMez f s).now = s.now := rfl
@[simp] theorem modMez_power (f : Mez → Mez) : (modMez f s).power = s.power := rfl
@[simp] theorem modMez_pins (f : Mez → Mez) : (modMez f s).pins = s.pins := rfl
@[simp] theorem modMez_clocks (f : Mez → Mez) : (modMez f s).clocks = s.clocks := rfl
@[simp] theorem modMez_live (f : Mez → Mez) : (modMez f s).live = s.live := rfl
@[simp] theorem modMez_gals (f : Mez → Mez) : (modMez f s).gals = s.gals := rfl
@[simp] theorem modMez_hall (f : Mez → Mez) : (modMez f s).hall = s.hall := rfl
@[simp] theorem modMez_cutter (f : Mez → Mez) : (modMez f s).cutter = s.cutter := rfl
@[simp] theorem modMez_corr (f : Mez → Mez) : (modMez f s).corr = s.corr := rfl
@[simp] theorem modMez_safety (f : Mez → Mez) : (modMez f s).safety = s.safety := rfl
@[simp] theorem modMez_bridge (f : Mez → Mez) : (modMez f s).bridge = s.bridge := rfl
@[simp] theorem modMez_portL (f : Mez → Mez) : (modMez f s).portL = s.portL := rfl
@[simp] theorem modMez_portM (f : Mez → Mez) : (modMez f s).portM = s.portM := rfl
@[simp] theorem modMez_mbx (f : Mez → Mez) : (modMez f s).mbx = s.mbx := rfl
@[simp] theorem modMez_log (f : Mez → Mez) : (modMez f s).log = s.log := rfl
@[simp] theorem modMez_upd (f : Mez → Mez) : (modMez f s).upd = s.upd := rfl
@[simp] theorem modMez_otp (f : Mez → Mez) : (modMez f s).otp = s.otp := rfl
@[simp] theorem modMez_mram (f : Mez → Mez) : (modMez f s).mram = s.mram := rfl
@[simp] theorem modMez_mez (f : Mez → Mez) : (modMez f s).mez = f s.mez := rfl
@[simp] theorem modMez_dbg (f : Mez → Mez) : (modMez f s).dbg = s.dbg := rfl
@[simp] theorem modMez_diag (f : Mez → Mez) : (modMez f s).diag = s.diag := rfl
@[simp] theorem modMez_frz (f : Mez → Mez) : (modMez f s).frz = s.frz := rfl
@[simp] theorem modMez_ctr (f : Mez → Mez) : (modMez f s).ctr = s.ctr := rfl
@[simp] theorem modMez_free (f : Mez → Mez) : (modMez f s).free = s.free := rfl
@[simp] theorem modMez_out (f : Mez → Mez) : (modMez f s).out = s.out := rfl
@[simp] theorem modMez_pending (f : Mez → Mez) : (modMez f s).pending = s.pending := rfl

/-! A change of `live`. -/

@[simp] theorem modLive_now (f : Live → Live) : (modLive f s).now = s.now := rfl
@[simp] theorem modLive_power (f : Live → Live) : (modLive f s).power = s.power := rfl
@[simp] theorem modLive_pins (f : Live → Live) : (modLive f s).pins = s.pins := rfl
@[simp] theorem modLive_clocks (f : Live → Live) : (modLive f s).clocks = s.clocks := rfl
@[simp] theorem modLive_live (f : Live → Live) : (modLive f s).live = f s.live := rfl
@[simp] theorem modLive_gals (f : Live → Live) : (modLive f s).gals = s.gals := rfl
@[simp] theorem modLive_hall (f : Live → Live) : (modLive f s).hall = s.hall := rfl
@[simp] theorem modLive_cutter (f : Live → Live) : (modLive f s).cutter = s.cutter := rfl
@[simp] theorem modLive_corr (f : Live → Live) : (modLive f s).corr = s.corr := rfl
@[simp] theorem modLive_safety (f : Live → Live) : (modLive f s).safety = s.safety := rfl
@[simp] theorem modLive_bridge (f : Live → Live) : (modLive f s).bridge = s.bridge := rfl
@[simp] theorem modLive_portL (f : Live → Live) : (modLive f s).portL = s.portL := rfl
@[simp] theorem modLive_portM (f : Live → Live) : (modLive f s).portM = s.portM := rfl
@[simp] theorem modLive_mbx (f : Live → Live) : (modLive f s).mbx = s.mbx := rfl
@[simp] theorem modLive_log (f : Live → Live) : (modLive f s).log = s.log := rfl
@[simp] theorem modLive_upd (f : Live → Live) : (modLive f s).upd = s.upd := rfl
@[simp] theorem modLive_otp (f : Live → Live) : (modLive f s).otp = s.otp := rfl
@[simp] theorem modLive_mram (f : Live → Live) : (modLive f s).mram = s.mram := rfl
@[simp] theorem modLive_mez (f : Live → Live) : (modLive f s).mez = s.mez := rfl
@[simp] theorem modLive_dbg (f : Live → Live) : (modLive f s).dbg = s.dbg := rfl
@[simp] theorem modLive_diag (f : Live → Live) : (modLive f s).diag = s.diag := rfl
@[simp] theorem modLive_frz (f : Live → Live) : (modLive f s).frz = s.frz := rfl
@[simp] theorem modLive_ctr (f : Live → Live) : (modLive f s).ctr = s.ctr := rfl
@[simp] theorem modLive_free (f : Live → Live) : (modLive f s).free = s.free := rfl
@[simp] theorem modLive_out (f : Live → Live) : (modLive f s).out = s.out := rfl
@[simp] theorem modLive_pending (f : Live → Live) : (modLive f s).pending = s.pending := rfl

/-! A change of `upd`. -/

@[simp] theorem modUpd_now (f : Update → Update) : (modUpd f s).now = s.now := rfl
@[simp] theorem modUpd_power (f : Update → Update) : (modUpd f s).power = s.power := rfl
@[simp] theorem modUpd_pins (f : Update → Update) : (modUpd f s).pins = s.pins := rfl
@[simp] theorem modUpd_clocks (f : Update → Update) : (modUpd f s).clocks = s.clocks := rfl
@[simp] theorem modUpd_live (f : Update → Update) : (modUpd f s).live = s.live := rfl
@[simp] theorem modUpd_gals (f : Update → Update) : (modUpd f s).gals = s.gals := rfl
@[simp] theorem modUpd_hall (f : Update → Update) : (modUpd f s).hall = s.hall := rfl
@[simp] theorem modUpd_cutter (f : Update → Update) : (modUpd f s).cutter = s.cutter := rfl
@[simp] theorem modUpd_corr (f : Update → Update) : (modUpd f s).corr = s.corr := rfl
@[simp] theorem modUpd_safety (f : Update → Update) : (modUpd f s).safety = s.safety := rfl
@[simp] theorem modUpd_bridge (f : Update → Update) : (modUpd f s).bridge = s.bridge := rfl
@[simp] theorem modUpd_portL (f : Update → Update) : (modUpd f s).portL = s.portL := rfl
@[simp] theorem modUpd_portM (f : Update → Update) : (modUpd f s).portM = s.portM := rfl
@[simp] theorem modUpd_mbx (f : Update → Update) : (modUpd f s).mbx = s.mbx := rfl
@[simp] theorem modUpd_log (f : Update → Update) : (modUpd f s).log = s.log := rfl
@[simp] theorem modUpd_upd (f : Update → Update) : (modUpd f s).upd = f s.upd := rfl
@[simp] theorem modUpd_otp (f : Update → Update) : (modUpd f s).otp = s.otp := rfl
@[simp] theorem modUpd_mram (f : Update → Update) : (modUpd f s).mram = s.mram := rfl
@[simp] theorem modUpd_mez (f : Update → Update) : (modUpd f s).mez = s.mez := rfl
@[simp] theorem modUpd_dbg (f : Update → Update) : (modUpd f s).dbg = s.dbg := rfl
@[simp] theorem modUpd_diag (f : Update → Update) : (modUpd f s).diag = s.diag := rfl
@[simp] theorem modUpd_frz (f : Update → Update) : (modUpd f s).frz = s.frz := rfl
@[simp] theorem modUpd_ctr (f : Update → Update) : (modUpd f s).ctr = s.ctr := rfl
@[simp] theorem modUpd_free (f : Update → Update) : (modUpd f s).free = s.free := rfl
@[simp] theorem modUpd_out (f : Update → Update) : (modUpd f s).out = s.out := rfl
@[simp] theorem modUpd_pending (f : Update → Update) : (modUpd f s).pending = s.pending := rfl

/-! A change of `log`. -/

@[simp] theorem modLog_now (f : EventLog → EventLog) : (modLog f s).now = s.now := rfl
@[simp] theorem modLog_power (f : EventLog → EventLog) : (modLog f s).power = s.power := rfl
@[simp] theorem modLog_pins (f : EventLog → EventLog) : (modLog f s).pins = s.pins := rfl
@[simp] theorem modLog_clocks (f : EventLog → EventLog) : (modLog f s).clocks = s.clocks := rfl
@[simp] theorem modLog_live (f : EventLog → EventLog) : (modLog f s).live = s.live := rfl
@[simp] theorem modLog_gals (f : EventLog → EventLog) : (modLog f s).gals = s.gals := rfl
@[simp] theorem modLog_hall (f : EventLog → EventLog) : (modLog f s).hall = s.hall := rfl
@[simp] theorem modLog_cutter (f : EventLog → EventLog) : (modLog f s).cutter = s.cutter := rfl
@[simp] theorem modLog_corr (f : EventLog → EventLog) : (modLog f s).corr = s.corr := rfl
@[simp] theorem modLog_safety (f : EventLog → EventLog) : (modLog f s).safety = s.safety := rfl
@[simp] theorem modLog_bridge (f : EventLog → EventLog) : (modLog f s).bridge = s.bridge := rfl
@[simp] theorem modLog_portL (f : EventLog → EventLog) : (modLog f s).portL = s.portL := rfl
@[simp] theorem modLog_portM (f : EventLog → EventLog) : (modLog f s).portM = s.portM := rfl
@[simp] theorem modLog_mbx (f : EventLog → EventLog) : (modLog f s).mbx = s.mbx := rfl
@[simp] theorem modLog_log (f : EventLog → EventLog) : (modLog f s).log = f s.log := rfl
@[simp] theorem modLog_upd (f : EventLog → EventLog) : (modLog f s).upd = s.upd := rfl
@[simp] theorem modLog_otp (f : EventLog → EventLog) : (modLog f s).otp = s.otp := rfl
@[simp] theorem modLog_mram (f : EventLog → EventLog) : (modLog f s).mram = s.mram := rfl
@[simp] theorem modLog_mez (f : EventLog → EventLog) : (modLog f s).mez = s.mez := rfl
@[simp] theorem modLog_dbg (f : EventLog → EventLog) : (modLog f s).dbg = s.dbg := rfl
@[simp] theorem modLog_diag (f : EventLog → EventLog) : (modLog f s).diag = s.diag := rfl
@[simp] theorem modLog_frz (f : EventLog → EventLog) : (modLog f s).frz = s.frz := rfl
@[simp] theorem modLog_ctr (f : EventLog → EventLog) : (modLog f s).ctr = s.ctr := rfl
@[simp] theorem modLog_free (f : EventLog → EventLog) : (modLog f s).free = s.free := rfl
@[simp] theorem modLog_out (f : EventLog → EventLog) : (modLog f s).out = s.out := rfl
@[simp] theorem modLog_pending (f : EventLog → EventLog) : (modLog f s).pending = s.pending := rfl

/-! A change of `portL`. -/

@[simp] theorem modPortL_now (f : PortL → PortL) : (modPortL f s).now = s.now := rfl
@[simp] theorem modPortL_power (f : PortL → PortL) : (modPortL f s).power = s.power := rfl
@[simp] theorem modPortL_pins (f : PortL → PortL) : (modPortL f s).pins = s.pins := rfl
@[simp] theorem modPortL_clocks (f : PortL → PortL) : (modPortL f s).clocks = s.clocks := rfl
@[simp] theorem modPortL_live (f : PortL → PortL) : (modPortL f s).live = s.live := rfl
@[simp] theorem modPortL_gals (f : PortL → PortL) : (modPortL f s).gals = s.gals := rfl
@[simp] theorem modPortL_hall (f : PortL → PortL) : (modPortL f s).hall = s.hall := rfl
@[simp] theorem modPortL_cutter (f : PortL → PortL) : (modPortL f s).cutter = s.cutter := rfl
@[simp] theorem modPortL_corr (f : PortL → PortL) : (modPortL f s).corr = s.corr := rfl
@[simp] theorem modPortL_safety (f : PortL → PortL) : (modPortL f s).safety = s.safety := rfl
@[simp] theorem modPortL_bridge (f : PortL → PortL) : (modPortL f s).bridge = s.bridge := rfl
@[simp] theorem modPortL_portL (f : PortL → PortL) : (modPortL f s).portL = f s.portL := rfl
@[simp] theorem modPortL_portM (f : PortL → PortL) : (modPortL f s).portM = s.portM := rfl
@[simp] theorem modPortL_mbx (f : PortL → PortL) : (modPortL f s).mbx = s.mbx := rfl
@[simp] theorem modPortL_log (f : PortL → PortL) : (modPortL f s).log = s.log := rfl
@[simp] theorem modPortL_upd (f : PortL → PortL) : (modPortL f s).upd = s.upd := rfl
@[simp] theorem modPortL_otp (f : PortL → PortL) : (modPortL f s).otp = s.otp := rfl
@[simp] theorem modPortL_mram (f : PortL → PortL) : (modPortL f s).mram = s.mram := rfl
@[simp] theorem modPortL_mez (f : PortL → PortL) : (modPortL f s).mez = s.mez := rfl
@[simp] theorem modPortL_dbg (f : PortL → PortL) : (modPortL f s).dbg = s.dbg := rfl
@[simp] theorem modPortL_diag (f : PortL → PortL) : (modPortL f s).diag = s.diag := rfl
@[simp] theorem modPortL_frz (f : PortL → PortL) : (modPortL f s).frz = s.frz := rfl
@[simp] theorem modPortL_ctr (f : PortL → PortL) : (modPortL f s).ctr = s.ctr := rfl
@[simp] theorem modPortL_free (f : PortL → PortL) : (modPortL f s).free = s.free := rfl
@[simp] theorem modPortL_out (f : PortL → PortL) : (modPortL f s).out = s.out := rfl
@[simp] theorem modPortL_pending (f : PortL → PortL) : (modPortL f s).pending = s.pending := rfl

/-! A change of `portM`. -/

@[simp] theorem modPortM_now (f : PortM → PortM) : (modPortM f s).now = s.now := rfl
@[simp] theorem modPortM_power (f : PortM → PortM) : (modPortM f s).power = s.power := rfl
@[simp] theorem modPortM_pins (f : PortM → PortM) : (modPortM f s).pins = s.pins := rfl
@[simp] theorem modPortM_clocks (f : PortM → PortM) : (modPortM f s).clocks = s.clocks := rfl
@[simp] theorem modPortM_live (f : PortM → PortM) : (modPortM f s).live = s.live := rfl
@[simp] theorem modPortM_gals (f : PortM → PortM) : (modPortM f s).gals = s.gals := rfl
@[simp] theorem modPortM_hall (f : PortM → PortM) : (modPortM f s).hall = s.hall := rfl
@[simp] theorem modPortM_cutter (f : PortM → PortM) : (modPortM f s).cutter = s.cutter := rfl
@[simp] theorem modPortM_corr (f : PortM → PortM) : (modPortM f s).corr = s.corr := rfl
@[simp] theorem modPortM_safety (f : PortM → PortM) : (modPortM f s).safety = s.safety := rfl
@[simp] theorem modPortM_bridge (f : PortM → PortM) : (modPortM f s).bridge = s.bridge := rfl
@[simp] theorem modPortM_portL (f : PortM → PortM) : (modPortM f s).portL = s.portL := rfl
@[simp] theorem modPortM_portM (f : PortM → PortM) : (modPortM f s).portM = f s.portM := rfl
@[simp] theorem modPortM_mbx (f : PortM → PortM) : (modPortM f s).mbx = s.mbx := rfl
@[simp] theorem modPortM_log (f : PortM → PortM) : (modPortM f s).log = s.log := rfl
@[simp] theorem modPortM_upd (f : PortM → PortM) : (modPortM f s).upd = s.upd := rfl
@[simp] theorem modPortM_otp (f : PortM → PortM) : (modPortM f s).otp = s.otp := rfl
@[simp] theorem modPortM_mram (f : PortM → PortM) : (modPortM f s).mram = s.mram := rfl
@[simp] theorem modPortM_mez (f : PortM → PortM) : (modPortM f s).mez = s.mez := rfl
@[simp] theorem modPortM_dbg (f : PortM → PortM) : (modPortM f s).dbg = s.dbg := rfl
@[simp] theorem modPortM_diag (f : PortM → PortM) : (modPortM f s).diag = s.diag := rfl
@[simp] theorem modPortM_frz (f : PortM → PortM) : (modPortM f s).frz = s.frz := rfl
@[simp] theorem modPortM_ctr (f : PortM → PortM) : (modPortM f s).ctr = s.ctr := rfl
@[simp] theorem modPortM_free (f : PortM → PortM) : (modPortM f s).free = s.free := rfl
@[simp] theorem modPortM_out (f : PortM → PortM) : (modPortM f s).out = s.out := rfl
@[simp] theorem modPortM_pending (f : PortM → PortM) : (modPortM f s).pending = s.pending := rfl

/-! A change of `dbg`. -/

@[simp] theorem modDbg_now (f : Debug → Debug) : (modDbg f s).now = s.now := rfl
@[simp] theorem modDbg_power (f : Debug → Debug) : (modDbg f s).power = s.power := rfl
@[simp] theorem modDbg_pins (f : Debug → Debug) : (modDbg f s).pins = s.pins := rfl
@[simp] theorem modDbg_clocks (f : Debug → Debug) : (modDbg f s).clocks = s.clocks := rfl
@[simp] theorem modDbg_live (f : Debug → Debug) : (modDbg f s).live = s.live := rfl
@[simp] theorem modDbg_gals (f : Debug → Debug) : (modDbg f s).gals = s.gals := rfl
@[simp] theorem modDbg_hall (f : Debug → Debug) : (modDbg f s).hall = s.hall := rfl
@[simp] theorem modDbg_cutter (f : Debug → Debug) : (modDbg f s).cutter = s.cutter := rfl
@[simp] theorem modDbg_corr (f : Debug → Debug) : (modDbg f s).corr = s.corr := rfl
@[simp] theorem modDbg_safety (f : Debug → Debug) : (modDbg f s).safety = s.safety := rfl
@[simp] theorem modDbg_bridge (f : Debug → Debug) : (modDbg f s).bridge = s.bridge := rfl
@[simp] theorem modDbg_portL (f : Debug → Debug) : (modDbg f s).portL = s.portL := rfl
@[simp] theorem modDbg_portM (f : Debug → Debug) : (modDbg f s).portM = s.portM := rfl
@[simp] theorem modDbg_mbx (f : Debug → Debug) : (modDbg f s).mbx = s.mbx := rfl
@[simp] theorem modDbg_log (f : Debug → Debug) : (modDbg f s).log = s.log := rfl
@[simp] theorem modDbg_upd (f : Debug → Debug) : (modDbg f s).upd = s.upd := rfl
@[simp] theorem modDbg_otp (f : Debug → Debug) : (modDbg f s).otp = s.otp := rfl
@[simp] theorem modDbg_mram (f : Debug → Debug) : (modDbg f s).mram = s.mram := rfl
@[simp] theorem modDbg_mez (f : Debug → Debug) : (modDbg f s).mez = s.mez := rfl
@[simp] theorem modDbg_dbg (f : Debug → Debug) : (modDbg f s).dbg = f s.dbg := rfl
@[simp] theorem modDbg_diag (f : Debug → Debug) : (modDbg f s).diag = s.diag := rfl
@[simp] theorem modDbg_frz (f : Debug → Debug) : (modDbg f s).frz = s.frz := rfl
@[simp] theorem modDbg_ctr (f : Debug → Debug) : (modDbg f s).ctr = s.ctr := rfl
@[simp] theorem modDbg_free (f : Debug → Debug) : (modDbg f s).free = s.free := rfl
@[simp] theorem modDbg_out (f : Debug → Debug) : (modDbg f s).out = s.out := rfl
@[simp] theorem modDbg_pending (f : Debug → Debug) : (modDbg f s).pending = s.pending := rfl

/-! A change of a directory record. -/

@[simp] theorem modDir_now (r : Nat) (f : DirRec → DirRec) : (modDir r f s).now = s.now := rfl
@[simp] theorem modDir_power (r : Nat) (f : DirRec → DirRec) : (modDir r f s).power = s.power := rfl
@[simp] theorem modDir_pins (r : Nat) (f : DirRec → DirRec) : (modDir r f s).pins = s.pins := rfl
@[simp] theorem modDir_clocks (r : Nat) (f : DirRec → DirRec) : (modDir r f s).clocks = s.clocks := rfl
@[simp] theorem modDir_live (r : Nat) (f : DirRec → DirRec) : (modDir r f s).live = s.live := rfl
@[simp] theorem modDir_gals (r : Nat) (f : DirRec → DirRec) : (modDir r f s).gals = s.gals := rfl
@[simp] theorem modDir_hall (r : Nat) (f : DirRec → DirRec) : (modDir r f s).hall = s.hall := rfl
@[simp] theorem modDir_cutter (r : Nat) (f : DirRec → DirRec) : (modDir r f s).cutter = s.cutter := rfl
@[simp] theorem modDir_corr (r : Nat) (f : DirRec → DirRec) : (modDir r f s).corr = { s.corr with dir := mmod {} s.corr.dir r f } := rfl
@[simp] theorem modDir_safety (r : Nat) (f : DirRec → DirRec) : (modDir r f s).safety = s.safety := rfl
@[simp] theorem modDir_bridge (r : Nat) (f : DirRec → DirRec) : (modDir r f s).bridge = s.bridge := rfl
@[simp] theorem modDir_portL (r : Nat) (f : DirRec → DirRec) : (modDir r f s).portL = s.portL := rfl
@[simp] theorem modDir_portM (r : Nat) (f : DirRec → DirRec) : (modDir r f s).portM = s.portM := rfl
@[simp] theorem modDir_mbx (r : Nat) (f : DirRec → DirRec) : (modDir r f s).mbx = s.mbx := rfl
@[simp] theorem modDir_log (r : Nat) (f : DirRec → DirRec) : (modDir r f s).log = s.log := rfl
@[simp] theorem modDir_upd (r : Nat) (f : DirRec → DirRec) : (modDir r f s).upd = s.upd := rfl
@[simp] theorem modDir_otp (r : Nat) (f : DirRec → DirRec) : (modDir r f s).otp = s.otp := rfl
@[simp] theorem modDir_mram (r : Nat) (f : DirRec → DirRec) : (modDir r f s).mram = s.mram := rfl
@[simp] theorem modDir_mez (r : Nat) (f : DirRec → DirRec) : (modDir r f s).mez = s.mez := rfl
@[simp] theorem modDir_dbg (r : Nat) (f : DirRec → DirRec) : (modDir r f s).dbg = s.dbg := rfl
@[simp] theorem modDir_diag (r : Nat) (f : DirRec → DirRec) : (modDir r f s).diag = s.diag := rfl
@[simp] theorem modDir_frz (r : Nat) (f : DirRec → DirRec) : (modDir r f s).frz = s.frz := rfl
@[simp] theorem modDir_ctr (r : Nat) (f : DirRec → DirRec) : (modDir r f s).ctr = s.ctr := rfl
@[simp] theorem modDir_free (r : Nat) (f : DirRec → DirRec) : (modDir r f s).free = s.free := rfl
@[simp] theorem modDir_out (r : Nat) (f : DirRec → DirRec) : (modDir r f s).out = s.out := rfl
@[simp] theorem modDir_pending (r : Nat) (f : DirRec → DirRec) : (modDir r f s).pending = s.pending := rfl

/-! A change of the safety record of a region. -/

@[simp] theorem modReg_now (r : Nat) (f : RegSafe → RegSafe) : (modReg r f s).now = s.now := rfl
@[simp] theorem modReg_power (r : Nat) (f : RegSafe → RegSafe) : (modReg r f s).power = s.power := rfl
@[simp] theorem modReg_pins (r : Nat) (f : RegSafe → RegSafe) : (modReg r f s).pins = s.pins := rfl
@[simp] theorem modReg_clocks (r : Nat) (f : RegSafe → RegSafe) : (modReg r f s).clocks = s.clocks := rfl
@[simp] theorem modReg_live (r : Nat) (f : RegSafe → RegSafe) : (modReg r f s).live = s.live := rfl
@[simp] theorem modReg_gals (r : Nat) (f : RegSafe → RegSafe) : (modReg r f s).gals = s.gals := rfl
@[simp] theorem modReg_hall (r : Nat) (f : RegSafe → RegSafe) : (modReg r f s).hall = s.hall := rfl
@[simp] theorem modReg_cutter (r : Nat) (f : RegSafe → RegSafe) : (modReg r f s).cutter = s.cutter := rfl
@[simp] theorem modReg_corr (r : Nat) (f : RegSafe → RegSafe) : (modReg r f s).corr = s.corr := rfl
@[simp] theorem modReg_safety (r : Nat) (f : RegSafe → RegSafe) : (modReg r f s).safety = { s.safety with reg := mmod {} s.safety.reg r f } := rfl
@[simp] theorem modReg_bridge (r : Nat) (f : RegSafe → RegSafe) : (modReg r f s).bridge = s.bridge := rfl
@[simp] theorem modReg_portL (r : Nat) (f : RegSafe → RegSafe) : (modReg r f s).portL = s.portL := rfl
@[simp] theorem modReg_portM (r : Nat) (f : RegSafe → RegSafe) : (modReg r f s).portM = s.portM := rfl
@[simp] theorem modReg_mbx (r : Nat) (f : RegSafe → RegSafe) : (modReg r f s).mbx = s.mbx := rfl
@[simp] theorem modReg_log (r : Nat) (f : RegSafe → RegSafe) : (modReg r f s).log = s.log := rfl
@[simp] theorem modReg_upd (r : Nat) (f : RegSafe → RegSafe) : (modReg r f s).upd = s.upd := rfl
@[simp] theorem modReg_otp (r : Nat) (f : RegSafe → RegSafe) : (modReg r f s).otp = s.otp := rfl
@[simp] theorem modReg_mram (r : Nat) (f : RegSafe → RegSafe) : (modReg r f s).mram = s.mram := rfl
@[simp] theorem modReg_mez (r : Nat) (f : RegSafe → RegSafe) : (modReg r f s).mez = s.mez := rfl
@[simp] theorem modReg_dbg (r : Nat) (f : RegSafe → RegSafe) : (modReg r f s).dbg = s.dbg := rfl
@[simp] theorem modReg_diag (r : Nat) (f : RegSafe → RegSafe) : (modReg r f s).diag = s.diag := rfl
@[simp] theorem modReg_frz (r : Nat) (f : RegSafe → RegSafe) : (modReg r f s).frz = s.frz := rfl
@[simp] theorem modReg_ctr (r : Nat) (f : RegSafe → RegSafe) : (modReg r f s).ctr = s.ctr := rfl
@[simp] theorem modReg_free (r : Nat) (f : RegSafe → RegSafe) : (modReg r f s).free = s.free := rfl
@[simp] theorem modReg_out (r : Nat) (f : RegSafe → RegSafe) : (modReg r f s).out = s.out := rfl
@[simp] theorem modReg_pending (r : Nat) (f : RegSafe → RegSafe) : (modReg r f s).pending = s.pending := rfl

/-! A change of a ring. -/

@[simp] theorem modRing_now (h : HostId) (f : Ring → Ring) : (modRing h f s).now = s.now := rfl
@[simp] theorem modRing_power (h : HostId) (f : Ring → Ring) : (modRing h f s).power = s.power := rfl
@[simp] theorem modRing_pins (h : HostId) (f : Ring → Ring) : (modRing h f s).pins = s.pins := rfl
@[simp] theorem modRing_clocks (h : HostId) (f : Ring → Ring) : (modRing h f s).clocks = s.clocks := rfl
@[simp] theorem modRing_live (h : HostId) (f : Ring → Ring) : (modRing h f s).live = s.live := rfl
@[simp] theorem modRing_gals (h : HostId) (f : Ring → Ring) : (modRing h f s).gals = s.gals := rfl
@[simp] theorem modRing_hall (h : HostId) (f : Ring → Ring) : (modRing h f s).hall = s.hall := rfl
@[simp] theorem modRing_cutter (h : HostId) (f : Ring → Ring) : (modRing h f s).cutter = s.cutter := rfl
@[simp] theorem modRing_corr (h : HostId) (f : Ring → Ring) : (modRing h f s).corr = s.corr := rfl
@[simp] theorem modRing_safety (h : HostId) (f : Ring → Ring) : (modRing h f s).safety = s.safety := rfl
@[simp] theorem modRing_bridge (h : HostId) (f : Ring → Ring) : (modRing h f s).bridge = s.bridge := rfl
@[simp] theorem modRing_portL (h : HostId) (f : Ring → Ring) : (modRing h f s).portL = s.portL := rfl
@[simp] theorem modRing_portM (h : HostId) (f : Ring → Ring) : (modRing h f s).portM = s.portM := rfl
@[simp] theorem modRing_log (h : HostId) (f : Ring → Ring) : (modRing h f s).log = s.log := rfl
@[simp] theorem modRing_upd (h : HostId) (f : Ring → Ring) : (modRing h f s).upd = s.upd := rfl
@[simp] theorem modRing_otp (h : HostId) (f : Ring → Ring) : (modRing h f s).otp = s.otp := rfl
@[simp] theorem modRing_mram (h : HostId) (f : Ring → Ring) : (modRing h f s).mram = s.mram := rfl
@[simp] theorem modRing_mez (h : HostId) (f : Ring → Ring) : (modRing h f s).mez = s.mez := rfl
@[simp] theorem modRing_dbg (h : HostId) (f : Ring → Ring) : (modRing h f s).dbg = s.dbg := rfl
@[simp] theorem modRing_diag (h : HostId) (f : Ring → Ring) : (modRing h f s).diag = s.diag := rfl
@[simp] theorem modRing_frz (h : HostId) (f : Ring → Ring) : (modRing h f s).frz = s.frz := rfl
@[simp] theorem modRing_ctr (h : HostId) (f : Ring → Ring) : (modRing h f s).ctr = s.ctr := rfl
@[simp] theorem modRing_free (h : HostId) (f : Ring → Ring) : (modRing h f s).free = s.free := rfl
@[simp] theorem modRing_out (h : HostId) (f : Ring → Ring) : (modRing h f s).out = s.out := rfl
@[simp] theorem modRing_pending (h : HostId) (f : Ring → Ring) : (modRing h f s).pending = s.pending := rfl

/-! Galleries and rings, read after a change. -/

@[simp] theorem galAt_modGal (g : GalIx) (f : Gal → Gal) : galAt (modGal g f s) g = f (galAt s g) := by simp [galAt]

theorem galAt_modGal_ne {g h : GalIx} (f : Gal → Gal) (hn : h ≠ g) : galAt (modGal g f s) h = galAt s h := by
  have hv : g.val ≠ h.val := fun e => hn (Fin.ext e.symm)
  simp [galAt, Vector.getElem_set_ne, hv]

/-- A change of a gallery changes nothing else. -/
theorem modGal_only (g : GalIx) (f : Gal → Gal) : OnlyGallery g s (modGal g f s) := ⟨fun _ h => galAt_modGal_ne s f h, rfl⟩

/-- A change of what the block sends and of one gallery changes nothing else. -/
theorem modGal_emit (g : GalIx) (f : Gal → Gal) (o : Output) : GalleryAndSent g s (emit o (modGal g f s)) :=
  ⟨fun _ h => galAt_modGal_ne s f h, rfl⟩

@[simp] theorem ringAt_modRing (h : HostId) (f : Ring → Ring) : ringAt (modRing h f s) h = f (ringAt s h) := by
  simp [ringAt, modRing]

theorem ringAt_modRing_ne {h k : HostId} (f : Ring → Ring) (hn : hostIx k ≠ hostIx h) : ringAt (modRing h f s) k = ringAt s k := by
  have hv : (hostIx h).val ≠ (hostIx k).val := fun e => hn (Fin.ext e.symm)
  simp [ringAt, modRing, Vector.getElem_set_ne, hv]

/-! What runs looks only at power, freeze and clocks. -/

@[simp] theorem active_modGal (g : GalIx) (f : Gal → Gal) : active (modGal g f s) = active s := rfl

@[simp] theorem alwaysOn_modGal (g : GalIx) (f : Gal → Gal) : alwaysOn (modGal g f s) = alwaysOn s := rfl

@[simp] theorem active_emit (o : Output) : active (emit o s) = active s := rfl

@[simp] theorem alwaysOn_emit (o : Output) : alwaysOn (emit o s) = alwaysOn s := rfl

end Sys2Proof.Machine
end

