-- ==== Sys2Proof/Laws/Store.lean ====
section
/-! SUPPORT. Laws of the correction store: a byte read after a write, and the canonical form that every operation keeps. -/

namespace Sys2Proof.Machine

theorem Correction.wf_iff (c : Correction) :
    c.wf = true ↔ Rising c.cells ∧ ∀ e ∈ c.cells, e.1 < 67108864 ∧ e.2 ≠ background (fillAt c e.1) e.1 := by
  simp [Correction.wf, Rising]

/-- A byte written reads back, and every other byte is as it was. -/
theorem storeByte_putByte (a x : Nat) (b : Byte) (c : Correction) (h : c.wf = true) (ha : a < 67108864) :
    storeByte (putByte a b c) x = if x = a then b else storeByte c x := by
  rw [Correction.wf_iff] at h
  unfold putByte storeByte
  rw [if_pos ha]
  by_cases hb : b = background (fillAt c a) a
  · simp only [if_pos hb, mget?_merase]
    by_cases hx : x = a
    · subst hx; simp only [if_true]; exact hb.symm
    · simp only [if_neg hx]; rfl
  · simp only [if_neg hb, mget?_mput _ _ _ _ h.1]
    by_cases hx : x = a
    · subst hx; simp
    · simp only [if_neg hx]; rfl

theorem fillAt_putByte (a x : Nat) (b : Byte) (c : Correction) : fillAt (putByte a b c) x = fillAt c x := by
  unfold putByte; split <;> rfl

theorem putByte_wf (a : Nat) (b : Byte) (c : Correction) (h : c.wf = true) : (putByte a b c).wf = true := by
  rw [Correction.wf_iff] at h ⊢
  simp only [fillAt_putByte]
  unfold putByte
  split
  · rename_i ha
    by_cases hb : b = background (fillAt c a) a
    · simp only [if_pos hb]
      exact ⟨rising_merase _ _ h.1, fun e he => h.2 e (List.mem_filter.1 he).1⟩
    · simp only [if_neg hb]
      refine ⟨rising_mput _ _ _ h.1, fun e he => ?_⟩
      rcases mem_mput _ _ _ _ he with rfl | he
      · exact ⟨ha, hb⟩
      · exact h.2 e he
  · exact h

theorem putBytes_wf (a : Nat) (bs : List Byte) (c : Correction) (h : c.wf = true) : (putBytes a bs c).wf = true := by
  unfold putBytes
  generalize (List.range bs.length).zip bs = l
  induction l generalizing c with
  | nil => exact h
  | cons e r ih => exact ih _ (putByte_wf _ _ _ h)

theorem mget_mset_fill (m : SMap Fill) (k j : Nat) (f : Fill) (hk : j ≠ k) : mget .zero (mset .zero m k f) j = mget .zero m j := by
  unfold mset
  split
  · simp [mget_eq, mget?_merase, hk]
  · induction m with
    | nil => simp [mput, mget, Ne.symm hk]
    | cons e r ih =>
      obtain ⟨i, w⟩ := e
      unfold mput
      split
      · subst_vars; simp [mget, Ne.symm hk]
      · split
        · simp [mget, Ne.symm hk]
        · simp [mget, ih]

theorem fillAt_fillExtent (base units : Nat) (f : Fill) (c : Correction) (x : Nat) (hx : ¬(base * 65536 ≤ x ∧ x < (base + units) * 65536)) :
    fillAt (fillExtent base units f c) x = fillAt c x := by
  unfold fillExtent fillAt
  dsimp only
  have : ∀ l : List Nat, (∀ u ∈ l, u < units) → ∀ m : SMap Fill,
      mget .zero (l.foldl (fun m u => mset .zero m (base + u) f) m) (x / 65536) = mget .zero m (x / 65536) := by
    intro l
    induction l with
    | nil => intros; rfl
    | cons u r ih =>
      intro hl m
      rw [List.foldl_cons, ih (fun v hv => hl v (List.mem_cons_of_mem _ hv)), mget_mset_fill]
      have := hl u List.mem_cons_self
      omega
  exact this _ (fun u hu => List.mem_range.1 hu) _

theorem fillExtent_wf (base units : Nat) (f : Fill) (c : Correction) (h : c.wf = true) : (fillExtent base units f c).wf = true := by
  rw [Correction.wf_iff] at h ⊢
  refine ⟨rising_filter _ _ h.1, fun e he => ?_⟩
  obtain ⟨h1, h2⟩ := List.mem_filter.1 he
  rw [fillAt_fillExtent _ _ _ _ _ (by simp at h2; omega)]
  exact h.2 e h1

theorem foldl_wf (l : List α) (f : Correction → α → Correction) (hf : ∀ c a, c.wf = true → (f c a).wf = true) (c : Correction)
    (h : c.wf = true) : (l.foldl f c).wf = true := by
  induction l generalizing c with
  | nil => exact h
  | cons a r ih => exact ih _ (hf _ _ h)

theorem copyBytes_wf (src dst n : Nat) (c : Correction) (h : c.wf = true) : (copyBytes src dst n c).wf = true := by
  unfold copyBytes
  exact foldl_wf _ _ (fun c e hc => putByte_wf _ _ _ hc) _ (foldl_wf _ _ (fun c u hc => fillExtent_wf _ _ _ _ hc) _ h)

theorem keptStore_wf (k : ResetKind) (c : Correction) (h : c.wf = true) : (keptStore k c).wf = true := by
  cases k <;> first | rfl | exact h

end Sys2Proof.Machine
end

