-- ==== Sys2Proof/Tests/Slice0.lean ====
section
/-! SUPPORT. Tests: terms that `Instr.wf` refuses, words and steps from the spec's own figures, and for every statement with hypotheses a state and operands that meet them. -/

namespace Sys2Proof.Tests

set_option Elab.async false

open Sys2Proof Sys2Proof.Machine

/-! ## Helper states -/

/-- A gallery in service: both directions ACTIVE at T5 with FEC, on all eight lanes. -/
def actGal : Gal :=
  { held := false
    rx := { ts := .active, tread := some 5, fec := true, lanes := 0xFF#8, active := 0xFF#8, target := some 5, clkLock := true }
    tx := { ts := .active, tread := some 5, fec := true, lanes := 0xFF#8, active := 0xFF#8, target := some 5, started := true } }

/-- The service host. -/
def svcHost : Holder := { host := .service, src := 0#16 }

/-- A device in service: P0, every unit clocked, every gallery ACTIVE, the firmware running, every lease held by the service host with token 7. -/
def up : State :=
  { power := { seqDone := true, oscWaiting := false, cold := false }
    clocks := { gateOn := 0xFFFFFF#24, onRun := 0x3FFFFF#22, pll := 0xF#4, refHealthy := 7#3 }
    mez := { run := .running, slot := some 0, level := 4#32 }
    gals := Vector.replicate 8 actGal
    mbx := { leases := Vector.replicate 15 { holder := some svcHost }, tokens := [(svcHost, 7#32)] } }

/-- The same with its session of the safety commands unlocked. -/
def upSess : State := modSafety (fun f => { f with session := some (2, 7#32, 0) }) up

/-- A request of the service host with the token, its payload padded with zeros to the length of the command. -/
def rq (c : Cmd) (p : List Nat) : Req :=
  { host := .service, src := 0#16, gallery := none, tag := 1#8, dryRun := false, stage := false, token := 7#32, seq := 1#32
    payload := p.map (BitVec.ofNat 8) ++ List.replicate (c.len - p.length) 0#8 }

/-- A gallery 0 changed. -/
def withGal (f : Gal → Gal) : State := modGal 0 f up

/-- Gallery 0 with its receive direction changed. -/
def withRx (f : RxDir → RxDir) : State := modRx 0 f up

/-- Gallery 0 with its transmit direction changed. -/
def withTx (f : TxDir → TxDir) : State := modTx 0 f up

/-- Lane 0 of gallery 0 changed. -/
def withLane (f : Lane → Lane) : State := modLane 0 0 f up

/-- Bytes of numbers. -/
def bys (l : List Nat) : List Byte := l.map (BitVec.ofNat 8)

/-- A request passes every check at a state in service. -/
def PassesUp (c : Cmd) (p : List Nat) : Prop := Passes c 0 (rq c p) up

/-! ## Ill-formed terms are refused -/

/-- The parcel whose header tells a length of 4. -/
def shortParcel : Parcel := mkParcel (msgHdr .pm false 5 4 0xFFFF#16 0#16 0#8 0#8 0#12 false false 0#32) (bys [1, 1, 0])

/-- One ill-formed term for each check of `Instr.wf`: a payload of 1,009 bytes, a link request without a gallery, a parcel shorter than its header tells, a store word past 64 MiB,
a train of 513 blocks, too many seam positions, nine lane results, a scan of 63 phases, a write past the window, a register past it, a scan wider than its cells, a signature of 95 bytes. -/
theorem test_wf_refuses :
    ([.systemStatus 0 { rq cmdStatus [] with payload := List.replicate 1009 0#8 },
      .systemStatus 0 { rq cmdStatus [] with host := .link },
      .announceReceive 0 0 shortParcel,
      .storeScrub 0 0#26 [8388608] [],
      .bastingTrainReceive 0 0 (List.replicate 513 0#48) true,
      .receiveCodeword 0 0 0 0#5440 (List.replicate 81 0),
      .qualifyEnd 0 0 (List.replicate 9 ⟨true, 0, 0, 0⟩),
      .eyeScanComplete 0 0 0 0 (List.replicate 63 0#128),
      .mailboxApertureWrite 0 0 0#16 4095 [0#8, 0#8],
      .registerWrite 0 0 0#16 4096 0#8,
      .tapExtest 0 2 4 0,
      .tapDbgToken 0 1#8 0#8 (List.replicate 95 0#8)] : List Instr).all (fun i => !i.wf) = true := by decide +kernel

/-- Terms at the edge of those checks are accepted. -/
theorem test_wf_accepts :
    ([.systemStatus 0 { rq cmdStatus [] with payload := List.replicate 1008 0#8 },
      .systemStatus 0 { rq cmdStatus [] with host := .link, gallery := some 3 },
      .announceReceive 0 0 { shortParcel with payload := bys [1, 1, 0, 0] },
      .storeScrub 0 0#26 [8388607] [],
      .registerWrite 0 0 0#16 4095 0#8,
      .tapExtest 0 2 3 3,
      .detectProbe 0 0 true 3#8] : List Instr).all Instr.wf = true := by decide +kernel

/-! ## Figures of the spec -/

/-- CRC-8 of port M: the read byte 0xA0 and the command 0x23 give 0xF1 (polynomial 0x07, seed 0). -/
theorem test_crc8 : crc8 [0xA0#8, 0x23#8] = 0xF1#8 := by decide +kernel

/-- SHA-384 of "abc" begins with cb 00 75 3f 45 a3 5e 8b (FIPS 180-4). -/
theorem test_sha384 : (sha384 (bys [0x61, 0x62, 0x63])).take 8 = bys [0xcb, 0x00, 0x75, 0x3f, 0x45, 0xa3, 0x5e, 0x8b] := by decide +kernel

/-- The base point of P-384 lies on the curve and has an odd y, so that lifting its x gives it back. -/
theorem test_ec_lift : ecLift ecG.1 true = some ecG := by decide +kernel

/-- The encoding of a block of RS(544,514) leaves its 5,140 data bits in place and a codeword without error decodes to itself. -/
theorem test_hop_word : decodeHop (mkChecked (bys [0x2D, 0x34, 0x07, 0, 0, 0, 0])) = some (.echo 7#8) := by decide +kernel

/-! ## Statements about the machine as a whole -/

theorem test_hyp_queue : up.pending = [] := by decide +kernel

/-- A reset falls due at 5: at 4 nothing has, and no trigger has fired. -/
theorem test_hyp_frame : (∀ x ∈ dues { up with power := { up.power with resetDue := some 5 } }, 4 < x.1) ∧ up.diag.fired = false := by decide +kernel

/-- A store that lists one byte is canonical, and a step from it answers. -/
theorem test_hyp_store : StoreCanonical (modCorr (putByte 67108863 1#8) up) ∧ ({} : Correction).wf = true ∧ mget? ({} : Correction).cells 5 = none ∧
    (step (modCorr (putByte 67108863 1#8) { up with pending := [.postedWriteComplete 0] }) matches .next _) = true := by
  unfold StoreCanonical; decide +kernel

/-- A parcel with a payload of 4 bytes whose header says so. -/
theorem test_hyp_parcel : ((bys [1, 2, 3, 4]).length % 4 = 0) ∧ (bys [1, 2, 3, 4]).length = pLength (mkParcel (pxHdr 4 0#16 0#12 0 0 0 0 0 false) (bys [1, 2, 3, 4])) := by
  decide +kernel

/-! ## Mailbox commands -/

/-- An answer of another ring; a fresh request without its lease, one with a payload that is too long, and one whose staging is not allowed. -/
theorem test_hyp_checks :
    (Fresh 0 (rq cmdProfileSave [1]) up ∧ leaseStep cmdProfileSave { rq cmdProfileSave [1] with token := 0#32 } up = 2) ∧
    (leaseStep cmdStatus (rq cmdStatus [1]) up = 0 ∧ shapeStep cmdStatus (rq cmdStatus [1]) = 3) ∧
    shapeStep cmdStatus { rq cmdStatus [] with stage := true } = 3 ∧
    (cmdProfileSave.need = .dom 0 ∧ needsDomain cmdProfileSave (rq cmdProfileSave [1]) up = true ∧
      holds (modGal 0 id { up with mbx := { up.mbx with leases := Vector.replicate 15 {} } }) svcHost 0 = false) := by
  repeat' apply And.intro
  all_goals decide +kernel

/-- A request that repeats the last number of its ring; a dry run that passes the checks. -/
theorem test_hyp_repeat :
    (let s := modRing .service (fun r => { r with dup := some (1#32, { bytes := List.replicate 28 0#8, src := 0#16, at_ := 0 }) }) up
     canTake .service (begin 0 s) = true ∧ fwRuns (begin 0 s) = true ∧ (ringAt (begin 0 s) .service).dup.isSome = true) ∧
    (let q := { rq cmdProfileSave [1] with dryRun := true }
     Fresh 0 q up ∧ leaseStep cmdProfileSave q (ready cmdProfileSave 0 q up) = 0 ∧ shapeStep cmdProfileSave q = 0 ∧ q.stage = false) := by
  repeat' apply And.intro
  all_goals decide +kernel

theorem test_hyp_system :
    (PassesUp cmdInfo [] ∧ PassesUp cmdStatus [] ∧ PassesUp cmdProfileList [] ∧ PassesUp cmdLeaseStatus [] ∧ PassesUp cmdPowerStatus [] ∧ PassesUp cmdClockStatus []) ∧
    (PassesUp cmdReset [1] ∧ arg (rq cmdReset [1]) 0 1 = 1) ∧
    (PassesUp cmdProfileSave [3] ∧ arg (rq cmdProfileSave [3]) 0 1 < 4 ∧ mramBusy (ready cmdProfileSave 0 (rq cmdProfileSave [3]) up) = false) ∧
    (let s := modMram (fun m => { m with profiles := m.profiles.set 3 { valid := true } }) up
     Passes cmdProfileSelect 0 (rq cmdProfileSelect [3]) s ∧
       ((ready cmdProfileSelect 0 (rq cmdProfileSelect [3]) s).mram.profiles.toList.getD 3 {}).valid = true) ∧
    (PassesUp cmdProfileSelect [0xFF] ∧ arg (rq cmdProfileSelect [0xFF]) 0 1 = 0xFF) ∧
    (PassesUp cmdProfileErase [0] ∧ mramBusy (ready cmdProfileErase 0 (rq cmdProfileErase [0]) up) = false) := by
  repeat' apply And.intro
  all_goals decide +kernel

/-- The state from which a command does its own work. -/
def own (c : Cmd) (p : List Nat) (s : State) : State := ready c 0 (rq c p) s

/-- A request passes every check at a state. -/
def PassesAt (c : Cmd) (p : List Nat) (s : State) : Prop := Passes c 0 (rq c p) s

/-- The same where another host holds the lease of gallery N0. -/
def rival : State := setLease 1 { holder := some { host := .debug, src := 0#16 } } up

theorem test_hyp_lease :
    (PassesUp cmdAcquire [2, 0] ∧ arg (rq cmdAcquire [2, 0]) 0 2 % 0x8000 ≠ 0 ∧
      ∀ d ∈ domains (arg (rq cmdAcquire [2, 0]) 0 2 % 0x8000), (leaseAt (own cmdAcquire [2, 0] up) d).holder = none ∨ holds (own cmdAcquire [2, 0] up) svcHost d = true) ∧
    (PassesAt cmdAcquire [2, 0] rival ∧ ∃ d ∈ domains (arg (rq cmdAcquire [2, 0]) 0 2 % 0x8000),
      (leaseAt (own cmdAcquire [2, 0] rival) d).holder ≠ none ∧ holds (own cmdAcquire [2, 0] rival) svcHost d = false) ∧
    PassesUp cmdRelease [2, 0] ∧
    (PassesUp cmdRenew [3, 0] ∧ ∀ d ∈ domains (arg (rq cmdRenew [3, 0]) 0 2), holds (own cmdRenew [3, 0] up) svcHost d = true) ∧
    PassesUp cmdDiscard [] := by
  repeat' apply And.intro
  all_goals decide +kernel

theorem test_hyp_counters :
    (bitOf (arg (rq cmdMbxCounters []) 2 1) 0 = false ∧ PassesUp cmdMbxCounters [] ∧ PassesUp cmdCutCounters [] ∧ PassesUp cmdCorrCounters [] ∧
      PassesUp cmdSafetyCounters [] ∧ PassesUp cmdBridgeCounters [] ∧ PassesUp cmdTwCounters [] ∧ PassesUp cmdPowerCounters []) ∧
    (PassesUp cmdLaneCounters [7, 8] ∧ arg (rq cmdLaneCounters [7, 8]) 0 1 < 8 ∧ arg (rq cmdLaneCounters [7, 8]) 1 1 ≤ 8) ∧
    (PassesUp cmdGalCounters [7] ∧ arg (rq cmdGalCounters [7]) 0 1 < 8) ∧ PassesUp cmdViolations [] ∧ PassesUp cmdCountersClear [] := by
  repeat' apply And.intro
  all_goals decide +kernel

theorem test_hyp_gallery_settings :
    (PassesUp cmdProvision [7, 1] ∧ arg (rq cmdProvision [7, 1]) 0 1 = (7 : GalIx).val ∧ arg (rq cmdProvision [7, 1]) 1 1 ≤ 1) ∧
    (PassesUp cmdIdle [0, 0x3F] ∧ maskOk (galAt (own cmdIdle [0, 0x3F] up) 0) 0x3F#8 false = true ∧
      (galAt (own cmdIdle [0, 0x3F] up) 0).off = false ∧ (galAt (own cmdIdle [0, 0x3F] up) 0).lost = none) ∧
    (let p := [0, 1, 0, 0, 20, 0, 20, 0, 20, 0, 0xC4, 5]
     PassesUp cmdCreditSet p ∧ (∀ k ∈ classes, 20 ≤ cget (quotasAt (rq cmdCreditSet p) 4) k ∧ cget (quotasAt (rq cmdCreditSet p) 4) k ≤ 1476) ∧
      arg (rq cmdCreditSet p) 4 2 + arg (rq cmdCreditSet p) 6 2 + arg (rq cmdCreditSet p) 8 2 + arg (rq cmdCreditSet p) 10 2 = 1536) ∧
    (PassesUp cmdEqSet [0, 7, 2] ∧ eqArgs (rq cmdEqSet [0, 7, 2]) = true) ∧
    (PassesUp cmdTxSet [0, 7, 0, 4] ∧ txArgs (rq cmdTxSet [0, 7, 0, 4]) = true ∧ arg (rq cmdTxSet [0, 7, 0, 4]) 1 1 ≠ 0xFF) ∧
    (PassesUp cmdTrainSet [0, 5, 5, 7, 8] ∧ arg (rq cmdTrainSet [0, 5, 5, 7, 8]) 1 1 ≤ 5 ∧ arg (rq cmdTrainSet [0, 5, 5, 7, 8]) 2 1 ≤ 5 ∧
      2 ≤ arg (rq cmdTrainSet [0, 5, 5, 7, 8]) 4 1 ∧ arg (rq cmdTrainSet [0, 5, 5, 7, 8]) 4 1 ≤ 8) := by
  repeat' apply And.intro
  all_goals decide +kernel

/-- A request that came in over gallery N0. -/
def linkReq (c : Cmd) (p : List Nat) : Req := { rq c p with host := .link, gallery := some 0 }

/-- A device in service whose leases the link host holds with token 7. -/
def linked : State :=
  { up with mbx := { up.mbx with leases := Vector.replicate 15 { holder := some ⟨.link, 0#16⟩ }, tokens := [(⟨.link, 0#16⟩, 7#32)] } }

theorem test_hyp_gallery_actions :
    (PassesUp cmdGalStatus [0] ∧ PassesUp cmdCreditGet [0] ∧ PassesUp cmdTrainStatus [0] ∧ PassesUp cmdEqGet [0, 7] ∧ arg (rq cmdEqGet [0, 7]) 1 1 < 8) ∧
    (PassesUp cmdGalReset [0, 0] ∧ pathGal (rq cmdGalReset [0, 0]) ≠ some (0 : GalIx).val) ∧
    (galSet (modSet 0 (fun x => { x with prov := false }) up) 0).prov = false ∧
    (Passes cmdGalReset 0 (linkReq cmdGalReset [0, 0]) linked ∧ pathGal (linkReq cmdGalReset [0, 0]) = some (0 : GalIx).val ∧ bitOf (arg (linkReq cmdGalReset [0, 0]) 1 1) 0 = false) ∧
    (PassesUp cmdRetrain [0, 0, 0, 0] ∧ arg (rq cmdRetrain [0, 0, 0, 0]) 1 1 = 0) ∧
    (let r := own cmdRetrain [0, 1, 1, 5] up
     PassesUp cmdRetrain [0, 1, 1, 5] ∧ arg (rq cmdRetrain [0, 1, 1, 5]) 3 1 ≤ 5 ∧ (galAt r 0).off = false ∧ (galAt r 0).lost = none ∧ (galAt r 0).held = false ∧
      (galAt r 0).tx.ts = .active ∧ arg (rq cmdRetrain [0, 1, 1, 5]) 3 1 ≤ ((galAt r 0).tx.target.getD 5).val) ∧
    (let r := own cmdRetrain [0, 1, 0, 5] up
     PassesUp cmdRetrain [0, 1, 0, 5] ∧ (galAt r 0).rx.ts = .active ∧ arg (rq cmdRetrain [0, 1, 0, 5]) 3 1 ≤ ((galAt r 0).rx.target.getD 5).val) := by
  repeat' apply And.intro
  all_goals decide +kernel

/-- A device whose Cutter has its runs enabled, in a placement mode. -/
def cutting (m : CutMode) : State := modLive (fun v => { v with cutMode := m }) { up with cutter := { up.cutter with enabled := true } }

theorem test_hyp_cutter :
    (PassesUp cmdModeSet [2] ∧ straightOnly (own cmdModeSet [2] up) = false ∧ gateOn (own cmdModeSet [2] up) 17 = true ∧ arg (rq cmdModeSet [2]) 0 1 = 2) ∧
    (PassesUp cmdModeSet [1] ∧ (own cmdModeSet [1] up).live.cutMode ≠ .automatic) ∧
    (PassesAt cmdModeSet [0] (cutting .manual) ∧ (own cmdModeSet [0] (cutting .manual)).live.cutMode ≠ .off) ∧
    (PassesAt cmdRun [] (cutting .manual) ∧ mayRun (own cmdRun [] (cutting .manual)) = true ∧ straightOnly (own cmdRun [] (cutting .manual)) = false) ∧
    (PassesUp cmdCutRegionSet [0xFF, 0x0F, 1, 2, 0x8F, 3, 15, 1] ∧ regionSetOk (rq cmdCutRegionSet [0xFF, 0x0F, 1, 2, 0x8F, 3, 15, 1]) = true ∧
      (own cmdCutRegionSet [0xFF, 0x0F, 1, 2, 0x8F, 3, 15, 1] up).live.cutMode ≠ .automatic) ∧
    (PassesUp cmdEntryGet [0xFF, 0x0F, 1, 0] ∧ arg (rq cmdEntryGet [0xFF, 0x0F, 1, 0]) 2 2 = 1) ∧ PassesUp cmdInputsGet [] ∧ PassesUp cmdCutStatus [] := by
  repeat' apply And.intro
  all_goals decide +kernel

/-- A device with a directory record for region 5. -/
def withDir (d : DirRec) : State := modDir 5 (fun _ => d) up

theorem test_hyp_correction :
    (PassesUp cmdCorrRegionSet [5, 0, 1] ∧ arg (rq cmdCorrRegionSet [5, 0, 1]) 2 1 ≤ 1 ∧ straightOnly (own cmdCorrRegionSet [5, 0, 1] up) = false) ∧
    PassesUp cmdCorrRegionGet [5] ∧
    (let s := withDir { units := 1, cstate := .empty }
     PassesAt cmdCommit [5] s ∧ (own cmdCommit [5] s).corr.storeLost = false ∧ engineOn (own cmdCommit [5] s) = true ∧ mayCommit (dirOf (own cmdCommit [5] s) 5) = true ∧
      (dirOf (own cmdCommit [5] s) 5).commitPending = false ∧ (dirOf (own cmdCommit [5] s) 5).catching = false) ∧
    (let p := [5, 0, 0, 1, 0, 1]
     PassesUp cmdSafeAlloc p ∧ arg (rq cmdSafeAlloc p) 2 2 ≠ 0 ∧ arg (rq cmdSafeAlloc p) 4 2 ≠ 0 ∧ (own cmdSafeAlloc p up).cutter.running = none ∧
      (dirOf (own cmdSafeAlloc p up) 5).sState = .none ∧ bestFit (heldMask (own cmdSafeAlloc p up) ||| newMask (own cmdSafeAlloc p up)) 6 = some 0 ∧
      ceilDiv (arg (rq cmdSafeAlloc p) 2 2 * arg (rq cmdSafeAlloc p) 4 2 * 6) 65536 = 6) ∧
    (let s := withDir { sUnits := 6, sState := .allocated }
     PassesAt cmdSafeCommit [5] s ∧ (dirOf (own cmdSafeCommit [5] s) 5).sState ≠ .none ∧ PassesAt cmdSafeFree [5] s ∧ (dirOf (own cmdSafeFree [5] s) 5).sState ≠ .none) ∧
    PassesUp cmdCorrStatus [] := by
  repeat' apply And.intro
  all_goals decide +kernel

/-- Two staged changes of the caller: the first passes its checks again, the second does not. -/
def stagedState : State :=
  { up with mbx := { up.mbx with staged := [⟨7#32, 0x201, rq cmdProvision [0, 1]⟩, ⟨7#32, 0x201, rq cmdProvision [0, 2]⟩] } }

theorem test_hyp_commit :
    (PassesUp cmdLeaseCommit [] ∧ PassesAt cmdLeaseCommit [] stagedState) ∧ (own cmdLeaseCommit [] up).mbx.staged = [] ∧
    (stagedState.mbx.staged.map (recheck (own cmdLeaseCommit [] stagedState))) = [0, 3] := by
  repeat' apply And.intro
  all_goals decide +kernel

theorem test_hyp_safety_settings :
    (let s := upSess; let p := [15, 0, 0, 0, 0xFE, 0x0F, 0xFF, 0x0F]
     PassesAt cmdGroupSet p s ∧ (regionsNamed (rq cmdGroupSet p)).isSome = true ∧ arg (rq cmdGroupSet p) 0 1 < 16 ∧
      inSession (rq cmdGroupSet p) (own cmdGroupSet p s) = true ∧ (own cmdGroupSet p s).power.brownout = none ∧ logFull (own cmdGroupSet p s) = false ∧
      (∀ n ∈ (regionsNamed (rq cmdGroupSet p)).getD [], mget? (own cmdGroupSet p s).safety.grpLock (groupOf (own cmdGroupSet p s) n).val = none)) ∧
    (let s := upSess; let p := [15, 1, 1, 0, 0xD0, 7]
     PassesAt cmdMonitorSet p s ∧ monitorArgs (rq cmdMonitorSet p) = true ∧ arg (rq cmdMonitorSet p) 0 1 < 16 ∧ inSession (rq cmdMonitorSet p) (own cmdMonitorSet p s) = true) ∧
    (let s := upSess; let p := [0xFF, 6, 2, 0xFF]
     PassesAt cmdMonitorSet p s ∧ monitorArgs (rq cmdMonitorSet p) = true ∧ arg (rq cmdMonitorSet p) 0 1 = 0xFF ∧ inSession (rq cmdMonitorSet p) (own cmdMonitorSet p s) = true) ∧
    PassesAt cmdLock [] upSess ∧
    (let s := modSafety (fun f => { f with logNext := 1#32 }) up
     PassesAt cmdLogAck [0] s ∧ arg (rq cmdLogAck [0]) 0 4 < (own cmdLogAck [0] s).safety.logNext.toNat) ∧
    (PassesUp cmdOrder [0, 0, 0xFF, 0x0F] ∧ orderArgs (rq cmdOrder [0, 0, 0xFF, 0x0F]) = true ∧ arg (rq cmdOrder [0, 0, 0xFF, 0x0F]) 0 1 = 0) := by
  repeat' apply And.intro
  all_goals decide +kernel

/-- A device with a password set, its hash of no matter. -/
def withPw : State := modSafety (fun f => { f with record := { f.record with pwHash := some (0#384, 0#128) } }) up

theorem test_hyp_passwords :
    (let s := withPw; let r := own cmdUnlock [32] s
     PassesAt cmdUnlock [32] s ∧ r.safety.record.pwHash.isSome = true ∧ r.safety.checking = none ∧ 8 ≤ arg (rq cmdUnlock [32]) 0 1 ∧ arg (rq cmdUnlock [32]) 0 1 ≤ 32) ∧
    (PassesUp cmdUnlock [8] ∧ (own cmdUnlock [8] up).safety.record.pwHash = none ∧ 8 ≤ arg (rq cmdUnlock [8]) 0 1) ∧
    (let p := 8 :: List.replicate 35 0 ++ [32]; let r := own cmdPasswordSet p withPw
     PassesAt cmdPasswordSet p withPw ∧ r.power.brownout = none ∧ logFull r = false ∧ 8 ≤ arg (rq cmdPasswordSet p) 36 1 ∧ arg (rq cmdPasswordSet p) 36 1 ≤ 32 ∧
      r.safety.record.pwHash.isSome = true ∧ r.safety.checking = none ∧ 8 ≤ arg (rq cmdPasswordSet p) 0 1) ∧
    (let p := List.replicate 36 0 ++ [8]
     PassesUp cmdPasswordSet p ∧ 8 ≤ arg (rq cmdPasswordSet p) 36 1 ∧ (own cmdPasswordSet p up).safety.record.pwHash = none) ∧
    (let s := modSafety (fun f => { f with grpLock := [(15, ⟨1, 0, 4, 0, 0, 0#16⟩)] }) withPw
     let p := 8 :: List.replicate 35 0 ++ [0, 15]; let r := own cmdSafetyRelease p s
     PassesAt cmdSafetyRelease p s ∧ r.safety.record.pwHash.isSome = true ∧ r.safety.checking = none ∧ arg (rq cmdSafetyRelease p) 36 1 ≤ 2 ∧
      arg (rq cmdSafetyRelease p) 37 1 < 16 ∧ lockIn r (arg (rq cmdSafetyRelease p) 36 1) (arg (rq cmdSafetyRelease p) 37 1) = true ∧ logFull r = false) ∧
    PassesUp cmdSafetyStatus [] ∧ (PassesUp cmdSafetyLogRead [0, 0, 0, 0, 7] ∧ 1 ≤ arg (rq cmdSafetyLogRead [0, 0, 0, 0, 7]) 4 1 ∧ arg (rq cmdSafetyLogRead [0, 0, 0, 0, 7]) 4 1 ≤ 7) := by
  repeat' apply And.intro
  all_goals decide +kernel

/-- A port L sequence held by node 1. -/
def heldLock : LockSeq := ⟨1#16, 0x80500000, some 0⟩

theorem test_hyp_bridge_settings :
    (PassesUp cmdNodeSet [0xFE, 0xFF] ∧ arg (rq cmdNodeSet [0xFE, 0xFF]) 0 2 ≠ 0xFFFF) ∧
    (let p := [0xFF, 7, 0, 0, 1, 0, 0, 0, 0]
     PassesUp cmdRouteSet p ∧ arg (rq cmdRouteSet p) 0 2 < 2048 ∧ routeOk (BitVec.ofNat 64 (arg (rq cmdRouteSet p) 4 8)) = true) ∧
    (let p := [15, 0, 0, 0, 0, 0, 0, 0x40, 0, 0, 0x2C, 8]
     PassesUp cmdWindowSet p ∧ arg (rq cmdWindowSet p) 0 1 < 16 ∧ 2 ≤ arg (rq cmdWindowSet p) 0 1 ∧ windowOk (windowOf (rq cmdWindowSet p)) = true) ∧
    (let p := [3, 1, 4, 0, 1, 0]
     PassesUp cmdSinkSet p ∧ arg (rq cmdSinkSet p) 0 1 < 4 ∧ arg (rq cmdSinkSet p) 1 1 ≤ 1 ∧ arg (rq cmdSinkSet p) 2 1 ≤ 4 ∧ arg (rq cmdSinkSet p) 4 2 ≠ 0 ∧
      arg (rq cmdSinkSet p) 4 2 ≠ 0xFFFF) ∧
    (PassesUp cmdRingSet [4] ∧ arg (rq cmdRingSet [4]) 0 1 ≤ 4) ∧
    (let s := modPortL (fun p => { p with lock := some heldLock }) up; let p := [1, 2, 0x77, 15]
     PassesAt cmdTwConfig p s ∧ arg (rq cmdTwConfig p) 1 1 ≤ 2 ∧ 8 ≤ arg (rq cmdTwConfig p) 2 1 ∧ arg (rq cmdTwConfig p) 2 1 ≤ 0x77 ∧ arg (rq cmdTwConfig p) 3 1 ≤ 15 ∧
      (own cmdTwConfig p s).portL.lock ≠ none) ∧
    (let p := [2, 0xE8, 3]
     PassesUp cmdTwlConfig p ∧ arg (rq cmdTwlConfig p) 0 1 ≤ 2 ∧ 1 ≤ arg (rq cmdTwlConfig p) 1 2 ∧ arg (rq cmdTwlConfig p) 1 2 ≤ 1000) ∧
    (PassesUp cmdTwlRecover [] ∧ gateOn (own cmdTwlRecover [] up) 23 = true ∧ (own cmdTwlRecover [] up).portL.lock = none) := by
  repeat' apply And.intro
  all_goals decide +kernel

/-- A device with a posted write of the service host's source on its way. -/
def posting : State :=
  let s := modBridge (fun b => { b with posted := [⟨0, ⟨0#16, 0#8, 0#32, 9⟩, 0x40000000, 4, true, 0⟩], postedNext := 1 }) up
  { s with hall := { s.hall with arrivalSeq := 1 } }

/-- A read, or a posted write, of this node's own map. -/
def remoteBytes (kind flags : Nat) : List Nat := [0, 0, kind, flags, 0, 0, 0, 0, 0, 0, 1, 0, 0, 0, 4, 0] ++ (if kind = 2 then [1, 2, 3, 4] else [])

theorem test_hyp_bridge_reports :
    (let p := [0xFF, 7, 1, 0]
     PassesUp cmdRouteGet p ∧ 1 ≤ arg (rq cmdRouteGet p) 2 2 ∧ arg (rq cmdRouteGet p) 2 2 ≤ 84 ∧ arg (rq cmdRouteGet p) 0 2 + arg (rq cmdRouteGet p) 2 2 ≤ 2048) ∧
    PassesUp cmdWindowGet [] ∧ PassesUp cmdEventRead [] ∧ PassesUp cmdLateErrors [] ∧
    (let p := remoteBytes 2 1; let r := own cmdRemote p up
     PassesUp cmdRemote p ∧ remoteArgs (rq cmdRemote p) = true ∧ arg (rq cmdRemote p) 4 4 = 0 ∧ gateOn r 22 = true ∧ r.bridge.remote = none ∧
      (sendOwn (remoteParcel (rq cmdRemote p) r) r).2 = true ∧ bitOf (arg (rq cmdRemote p) 3 1) 0 = true) ∧
    (let p := remoteBytes 1 0; let r := own cmdRemote p up
     PassesUp cmdRemote p ∧ remoteArgs (rq cmdRemote p) = true ∧ (sendOwn (remoteParcel (rq cmdRemote p) r) r).2 = true ∧ bitOf (arg (rq cmdRemote p) 3 1) 0 = false) ∧
    (PassesUp cmdSync [] ∧ writesOut (own cmdSync [] up) (syncSource (rq cmdSync [])) (own cmdSync [] up).mbx.frame = false) ∧
    (PassesAt cmdSync [] posting ∧ writesOut (own cmdSync [] posting) (syncSource (rq cmdSync [])) (own cmdSync [] posting).mbx.frame = true) := by
  repeat' apply And.intro
  all_goals decide +kernel

/-- A device whose gallery N0 is LOST. -/
def lostUp : State := withGal fun G => { G with lost := some 1 }

/-- Gallery N0 with lane 0 in codeword lock and a scan of its first eye. -/
def scanned : State := withLane fun L => { L with cw := .locked, eyes := [(0, { at_ := 0, points := List.replicate 64 0xFF#128 })] }

theorem test_hyp_power_diag :
    (PassesUp cmdStateSet [2] ∧ mayEnter (own cmdStateSet [2] up) = true) ∧ (PassesUp cmdStateSet [3] ∧ mayEnter (own cmdStateSet [3] up) = true) ∧
    (PassesUp cmdRefSelect [1, 1, 0] ∧ arg (rq cmdRefSelect [1, 1, 0]) 0 1 < 2 ∧ arg (rq cmdRefSelect [1, 1, 0]) 1 1 < 2 ∧ arg (rq cmdRefSelect [1, 1, 0]) 2 1 < 2 ∧
      arg (rq cmdRefSelect [1, 1, 0]) 1 1 ≠ arg (rq cmdRefSelect [1, 1, 0]) 2 1) ∧
    (PassesUp cmdRefSelect [0, 0, 0xFF] ∧ arg (rq cmdRefSelect [0, 0, 0xFF]) 2 1 = 0xFF) ∧
    (let p := [1, 1, 8, 65]
     PassesUp cmdRefoutSet p ∧ arg (rq cmdRefoutSet p) 0 1 < 2 ∧ arg (rq cmdRefoutSet p) 1 1 ≤ 1 ∧ arg (rq cmdRefoutSet p) 2 1 ≤ 8 ∧ 25 ≤ arg (rq cmdRefoutSet p) 3 1 ∧
      arg (rq cmdRefoutSet p) 3 1 ≤ 65) ∧
    (let p := [0, 7, 3]
     PassesAt cmdLoopSet p lostUp ∧ arg (rq cmdLoopSet p) 1 1 = (7 : LaneIx).val ∧ arg (rq cmdLoopSet p) 2 1 ≤ 3 ∧ (galAt (own cmdLoopSet p lostUp) 0).lost.isSome = true) ∧
    (let p := [0, 7, 3, 7, 5]
     PassesAt cmdPrbsSet p lostUp ∧ arg (rq cmdPrbsSet p) 4 1 < 6 ∧ arg (rq cmdPrbsSet p) 1 1 = (7 : LaneIx).val ∧ arg (rq cmdPrbsSet p) 3 1 ≤ 7 ∧
      suits (arg (rq cmdPrbsSet p) 3 1) (arg (rq cmdPrbsSet p) 4 1) = true ∧ (galAt (own cmdPrbsSet p lostUp) 0).lost.isSome = true) ∧
    PassesUp cmdPrbsGet [0] ∧
    (let p := [0, 0, 0, 1]
     PassesAt cmdEyeScan p scanned ∧ arg (rq cmdEyeScan p) 1 1 = (0 : LaneIx).val ∧ arg (rq cmdEyeScan p) 2 1 = 0 ∧ arg (rq cmdEyeScan p) 3 1 ≤ 1 ∧
      laneLocked (laneAt (own cmdEyeScan p scanned) 0 0) = true ∧ (mget? (laneAt (own cmdEyeScan p scanned) 0 0).eyes 0).isSome = true) := by
  repeat' apply And.intro
  all_goals decide +kernel

/-- A device with an update in a state. -/
def updating (u : Update) : State := modUpd (fun _ => u) up

theorem test_hyp_sensor_log_update :
    PassesUp cmdSensorRead [] ∧ (PassesUp cmdLogRead [0, 0, 0, 0, 31] ∧ 1 ≤ arg (rq cmdLogRead [0, 0, 0, 0, 31]) 4 1 ∧ arg (rq cmdLogRead [0, 0, 0, 0, 31]) 4 1 ≤ 31) ∧
    (PassesUp cmdLogStream [1, 4] ∧ (own cmdLogStream [1, 4] up).log.stream = none ∧ arg (rq cmdLogStream [1, 4]) 0 1 = 1 ∧ arg (rq cmdLogStream [1, 4]) 1 1 ≤ 4) ∧
    (let s := modLog (fun f => { f with stream := some ⟨.service, 0#16, 0, 0⟩ }) up
     PassesAt cmdLogStream [2] s ∧ PassesAt cmdLogStream [0] s ∧ (own cmdLogStream [2] s).log.stream.map (fun h => holderOf h.host h.src) = some svcHost) ∧
    (PassesUp cmdUpdBegin [0, 0, 0x18, 0] ∧ arg (rq cmdUpdBegin [0, 0, 0x18, 0]) 0 4 % 4 = 0 ∧ arg (rq cmdUpdBegin [0, 0, 0x18, 0]) 0 4 ≤ 1572864 ∧
      (own cmdUpdBegin [0, 0, 0x18, 0] up).power.brownout = none) ∧
    (let s := updating { state := .receiving, target := 1, length := 4 }; let p := [0, 0, 0, 0, 1, 2, 3, 4]; let r := own cmdUpdChunk p s
     PassesAt cmdUpdChunk p s ∧ arg (rq cmdUpdChunk p) 0 4 % 4 = 0 ∧ r.upd.state = .receiving ∧ arg (rq cmdUpdChunk p) 0 4 + ((rq cmdUpdChunk p).payload.drop 4).length ≤ r.upd.length ∧
      r.power.brownout = none) ∧
    (let s := updating { state := .receiving, target := 1, length := 1, bytes := [(0, 1#8)] }; let r := own cmdUpdVerify [] s
     PassesAt cmdUpdVerify [] s ∧ r.upd.state = .receiving ∧ r.upd.bytes.length = r.upd.length ∧ r.upd.chunks = []) ∧
    (let s := updating { state := .verified, target := 1 }; let r := own cmdUpdCommit [] s
     PassesAt cmdUpdCommit [] s ∧ r.upd.state = .verified ∧ committing r = false ∧ r.power.brownout = none) ∧
    (let s := updating { state := .committed, target := 1 }; PassesAt cmdUpdActivate [] s ∧ (own cmdUpdActivate [] s).upd.state = .committed) ∧
    PassesUp cmdUpdStatus [] := by
  repeat' apply And.intro
  all_goals decide +kernel

theorem test_hyp_security :
    PassesUp cmdNonce [] ∧ (PassesUp cmdDebugOpen [2, 1] ∧ arg (rq cmdDebugOpen [2, 1]) 0 1 = 2 ∧ arg (rq cmdDebugOpen [2, 1]) 1 1 ≤ 1 ∧ lifecycle (own cmdDebugOpen [2, 1] up).otp = 0) ∧
    (let s := { up with otp := { up.otp with secured := 0xFF#8 } }
     PassesAt cmdDebugOpen [1, 0] s ∧ lifecycle (own cmdDebugOpen [1, 0] s).otp ≠ 0 ∧ (own cmdDebugOpen [1, 0] s).dbg.nonce = none) ∧
    PassesUp cmdDebugClose [] ∧
    (PassesUp cmdLifecycle [1] ∧ arg (rq cmdLifecycle [1]) 0 1 = 1 ∧ arg (rq cmdLifecycle [1]) 52 4 = (own cmdLifecycle [1] up).otp.serial.toNat % 2 ^ 32 ∧
      lifecycle (own cmdLifecycle [1] up).otp = 0 ∧ (own cmdLifecycle [1] up).power.brownout = none) ∧
    (PassesUp cmdFreezeArm [1, 0, 2, 6] ∧ arg (rq cmdFreezeArm [1, 0, 2, 6]) 0 1 = 1 ∧ arg (rq cmdFreezeArm [1, 0, 2, 6]) 2 2 ∈ eventCodes) ∧
    PassesUp cmdFreezeNow [] ∧
    (PassesUp cmdSnapRead [] ∧ arg (rq cmdSnapRead []) 0 2 < publicBlocks ∧ (own cmdSnapRead [] up).diag.snapHost = none ∧ (own cmdSnapRead [] up).diag.ring14.length < 16) := by
  repeat' apply And.intro
  all_goals decide +kernel

/-! ## The receive side, training and darning -/

/-- A state as a command at time 0 finds it. -/
def at0 (s : State) : State := begin 0 s

/-- A state as a command at a time of 10^12 ns finds it. -/
def late (s : State) : State := begin 1000000000000 s

/-- Gallery N0 without FEC, its lane 0 changed. -/
def bare (f : Lane → Lane) : State := modRx 0 (fun r => { r with fec := false }) (withLane f)

/-- A codeword whose marker holds. -/
def goodCw : BitVec 5440 := BitVec.ofNat 5440 (cwMarker * 2 ^ 5082)

theorem test_hyp_lock :
    (hopRuns (at0 (bare id)) 0 = true ∧ underTest (at0 (bare id)) 0 = false ∧ (galAt (at0 (bare id)) 0).rx.fec = false ∧ (laneAt (at0 (bare id)) 0 0).inverted = false ∧
      (laneAt (at0 (bare id)) 0 0).block = .hunt ∧ (blkHdr 0#66 ≠ dataHdr ∧ blkHdr 0#66 ≠ ctlHdr) ∧ blkHdr idleBlk = ctlHdr ∧ (laneAt (at0 (bare id)) 0 0).hdrRun + 1 < 64) ∧
    (laneAt (at0 (bare fun L => { L with hdrRun := 63 })) 0 0).hdrRun + 1 = 64 ∧
    (let s := bare fun L => { L with block := .locked, hdrHist := 0x7FFF#64 }
     (laneAt (at0 s) 0 0).block = .locked ∧ 15 ≤ ((List.range 63).filter fun k => (laneAt (at0 s) 0 0).hdrHist.getLsbD k).length) ∧
    (let s := withGal fun G => { G with lost := some 1, rx := { G.rx with ts := .lost }, lanes := G.lanes.map fun L => { L with loop := 1 } }
     underTest (at0 s) 0 = true ∧ (laneAt (at0 s) 0 0).loop ≠ 0 ∧ (galAt (at0 s) 0).rx.ts = .lost) ∧
    (hopRuns (at0 up) 0 = true ∧ underTest (at0 up) 0 = false ∧ (galAt (at0 up) 0).rx.fec = true ∧ (laneAt (at0 up) 0 0).inverted = false ∧ (laneAt (at0 up) 0 0).cw = .hunt ∧
      markerOk goodCw = true ∧ markerOk 0#5440 = false) ∧
    (laneAt (at0 (withLane fun L => { L with cw := .candidate 1 })) 0 0).cw = .candidate 1 ∧
    (laneAt (at0 (withLane fun L => { L with cw := .candidate 2 })) 0 0).cw = .candidate 2 ∧
    (let s := withLane fun L => { L with cw := .locked }
     (laneAt (at0 s) 0 0).cw = .locked ∧ (laneAt (at0 s) 0 0).mkMiss = 0 ∧ (laneAt (at0 s) 0 0).withheld = none) := by
  repeat' apply And.intro
  all_goals decide +kernel

/-- Gallery N0 in CLOCK without FEC, lane 0 in block lock with one marker seen. -/
def marking : State :=
  modRx 0 (fun r => { r with ts := .clock, fec := false }) (withLane fun L => { L with block := .locked, mkCount := 1, expectSeq := some 1023 })

/-- Lane 1 of gallery N0 has outrun lane 0 by 129 slots. -/
def outrun : State := modLane 0 1 (fun L => { L with deskew := (List.range 129).map fun k => (k / 77, k % 77, .loc) }) up

theorem test_hyp_deskew :
    (hopRuns (at0 up) 0 = true ∧ (galAt (at0 up) 0).rx.fec = true) ∧
    (hopRuns (at0 marking) 0 = true ∧ (galAt (at0 marking) 0).rx.fec = false ∧ (laneAt (at0 marking) 0 0).mkLock = false ∧ (laneAt (at0 marking) 0 0).block = .locked ∧
      (laneAt (at0 marking) 0 0).expectSeq = some (1023#10).toNat ∧ (laneAt (at0 marking) 0 0).mkCount = 1 ∧ (galAt (at0 marking) 0).rx.ts ≠ .align ∧
      (galAt (at0 marking) 0).rx.ts ≠ .active ∧ (galAt (at0 marking) 0).tx.readyWait = none) ∧
    (hopRuns (at0 outrun) 0 = true ∧ (setAt (galAt (at0 outrun) 0).rx 0).getLsbD (posOf (galAt (at0 outrun) 0) 0) = true ∧ slotAt (laneAt (at0 outrun) 0 0) (0, 0) = none ∧
      ((laneAt (at0 outrun) 0 1).deskew.filter fun e => keyGe (e.1, e.2.1) (0, 0)).length > 128) ∧
    (∀ o : LaneIx, (laneAt (at0 up) 0 o).deskew = []) := by
  repeat' apply And.intro
  all_goals decide +kernel

/-- Gallery N0 with a parcel to send. -/
def queued : QItem := { item := .gap ⟨0#12, 0#4, 0#16, 0#16⟩, port := 4, arrival := 0, targets := [] }

theorem test_hyp_clock_lane :
    (let s := withRx fun r => { r with ts := .clock }; hopRuns (at0 s) 0 = true ∧ (galAt (at0 s) 0).rx.ts = .clock ∧ (-6000 : Int) ≤ -6000 ∧ (300 : Int) < 301) ∧
    ((galAt (at0 up) 0).rx.ts = .active ∧ (galAt (at0 up) 0).rx.clkStopped = false) ∧
    (let s := withRx fun r => { r with clkStopped := true }; hopRuns (at0 s) 0 = true ∧ (galAt (at0 s) 0).rx.ts = .active ∧ (galAt (at0 s) 0).rx.clkStopped = true) ∧
    (laneAt (at0 up) 0 7).rxIdle = false ∧
    (let s := modTx 0 (fun x => { x with active := 0#8 }) (withGal fun G => { G with egress := ⟨[queued], [], [], []⟩ })
     hopRuns (at0 s) 0 = true ∧ (galAt (at0 s) 0).tx.ts = .active ∧ txSet (galAt (at0 s) 0).tx = 0#8 ∧ txWaiting (galAt (at0 s) 0) = true) ∧
    (let s := withTx fun x => { x with emptyAt := some 0, selfWoken := true }
     hopRuns (late s) 0 = true ∧ (galAt (late s) 0).tx.emptyAt = some 0 ∧ (galAt (late s) 0).tx.selfWoken = true ∧ txWaiting (galAt (late s) 0) = false ∧ 0 + 10000 ≤ (late s).now) ∧
    (let s := withTx fun x => { x with selfWoken := true }
     (galAt (at0 s) 0).tx.emptyAt = none ∧ (galAt (at0 s) 0).tx.selfWoken = true ∧ txWaiting (galAt (at0 s) 0) = false) ∧
    (let s := withLane fun L => { L with tack := { running := true, confirmed := true } }
     (laneAt (at0 s) 0 0).tack.running = true ∧ (laneAt (at0 s) 0 0).tack.confirmed = true ∧ (galAt (at0 s) 0).rx.tread = some 5) ∧ (laneAt (at0 up) 0 0).tack = {} := by
  repeat' apply And.intro
  all_goals decide +kernel

/-- Both directions of gallery N0 in a training state since time 0. -/
def training (ts : TrainState) : State := modTx 0 (fun x => { x with ts }) (withRx fun r => { r with ts })

theorem test_hyp_training :
    (let s := modTx 0 (fun x => { x with started := false }) (training .detect)
     hopRuns (at0 s) 0 = true ∧ (galAt (at0 s) 0).tx.ts = .detect ∧ (galAt (at0 s) 0).tx.started = false ∧ 2 ≤ popcount 0x81#8) ∧
    (hopRuns (at0 (training .detect)) 0 = true ∧ (galAt (at0 (training .detect)) 0).rx.ts = .detect ∧ (galAt (at0 (training .detect)) 0).tx.started = true) ∧
    (hopRuns (late (training .qualify)) 0 = true ∧ (galAt (late (training .qualify)) 0).rx.ts = .qualify ∧ stateMax .qualify 5 = some 1100000 ∧
      (galAt (late (training .qualify)) 0).rx.at_ + 1100000 ≤ (late (training .qualify)).now) ∧
    (at0 (training .qualify)).now < (galAt (at0 (training .qualify)) 0).rx.at_ + 1100000 ∧
    (let s := modGal 0 (fun G => { G with backoffUntil := some 1000000000000 }) (training .backoff)
     hopRuns (late s) 0 = true ∧ (galAt (late s) 0).backoffUntil = some 1000000000000 ∧ (galAt (late s) 0).rx.ts = .backoff ∧ 1000000000000 ≤ (late s).now ∧ (at0 s).now < 1000000000000) ∧
    (hopRuns (at0 (training .exchange)) 0 = true ∧ (galAt (at0 (training .exchange)) 0).rx.ts = .exchange) ∧
    (hopRuns (at0 (training .equalise)) 0 = true ∧ (galAt (at0 (training .equalise)) 0).tx.ts = .equalise ∧
      (0#5).toNat = (laneAt (at0 (training .equalise)) 0 (laneOf 7)).reqCount) ∧
    ((galAt (at0 up) 0).rx.ts = .active ∧ (galAt (at0 up) 0).rx.attempt.step = 0) ∧
    (laneAt (at0 (withLane fun L => { L with modeNow := .fixed })) 0 0).modeNow = .fixed ∧
    ((laneAt (at0 up) 0 0).modeNow = .adapt ∧ (laneAt (at0 up) 0 0).failed = false ∧ (laneAt (at0 up) 0 0).rxIdle = false ∧ (laneAt (at0 up) 0 0).vgaHoldNow = false ∧
      ∀ x ∈ ([63, -63] : List Int), -64 < x ∧ x < 64) := by
  repeat' apply And.intro
  all_goals decide +kernel

/-- A RESULT in which lanes passed. -/
def resultOf (m : BitVec 8) : ResultBlk := ⟨5#3, 1#1, m, 0#8, 0#8⟩

theorem test_hyp_qualify :
    ((galAt (at0 (training .equalise)) 0).rx.ts = .equalise ∧ (galAt (at0 (training .qualify)) 0).tx.ts = .qualify ∧ hopRuns (at0 (training .qualify)) 0 = true) ∧
    (∀ r ∈ List.replicate 8 (⟨false, 0, 0, 0⟩ : LaneQual), qualPasses ((galAt (at0 (training .qualify)) 0).rx.tread.getD 0) (galAt (at0 (training .qualify)) 0).rx.fec r = false) ∧
    (let x := (galAt (at0 (training .report)) 0).tx
     hopRuns (at0 (training .report)) 0 = true ∧ x.ts = .report ∧ decide138 5 x.first x.mode x.goal x.target x.floor x.prev false (popcount (resultOf 0xFF#8).passed) = .settle) ∧
    (let s := modTx 0 (fun x => { x with tread := some 0 }) (training .report); let x := (galAt (at0 s) 0).tx
     x.ts = .report ∧ decide138 0 x.first x.mode x.goal x.target x.floor x.prev (galAt (at0 s) 0).fecT3 (popcount (resultOf 1#8).passed) = .fails ∧ popcount (resultOf 1#8).passed < max 2 x.floor) := by
  repeat' apply And.intro
  all_goals decide +kernel

/-- A STEP that settles, and one that switches. -/
def stepOf (action : BitVec 2) : StepBlk := ⟨4#3, 1#1, action, 5#10, 0xFF#8⟩

theorem test_hyp_steps :
    ((galAt (at0 (training .report)) 0).rx.ts = .report ∧ (stepOf 2#2).action = 2#2 ∧ (stepOf 0#2).action ≠ 2#2) ∧
    (let s := withRx fun r => { r with stepTo := some (stepOf 0#2) }
     hopRuns (at0 s) 0 = true ∧ (galAt (at0 s) 0).rx.stepTo = some (stepOf 0#2) ∧ (galAt (at0 s) 0).rx.ts = .active) ∧
    (let s := modTx 0 (fun x => { x with stepTo := some (stepOf 0#2) }) (training .switching)
     hopRuns (at0 s) 0 = true ∧ (galAt (at0 s) 0).tx.stepTo = some (stepOf 0#2) ∧ (galAt (at0 s) 0).tx.ts = .switching) ∧
    ((galAt (late (training .guarding)) 0).rx.ts = .guarding ∧ (galAt (late (training .guarding)) 0).rx.at_ + 8000 ≤ (late (training .guarding)).now ∧
      (galAt (late (training .guarding)) 0).tx.at_ + 8000 ≤ (late (training .guarding)).now ∧ (at0 (training .guarding)).now < (galAt (at0 (training .guarding)) 0).tx.at_ + 8000) ∧
    ((galAt (at0 (training .settled)) 0).tx.ts = .settled ∧ (galAt (at0 (training .settled)) 0).tx.goal = none ∧ (galAt (at0 (training .settled)) 0).rx.ts = .settled ∧
      (galAt (at0 (training .settled)) 0).rx.goal = none ∧ (galAt (at0 (training .settled)) 0).tx.ts ≠ .active) ∧
    (galAt (at0 up) 0).rx.ts ≠ .settled ∧
    (galAt (at0 (withTx fun x => { x with lastReq := some 65535 })) 0).tx.lastReq = some (65535#16).toNat ∧
    ((galAt (at0 up) 0).tx.lastReq = none ∧ (galAt (at0 up) 0).tx.stepTo = none ∧ (galAt (at0 up) 0).rx.stepTo = none) ∧
    (let s := withRx fun r => { r with fec := false, winErr := 5 }; (galAt (at0 s) 0).rx.ts = .active ∧ (galAt (at0 s) 0).rx.fec = false) ∧
    (let s := withRx fun r => { r with quietSince := some 0, steppedDown := true, tread := some 4 }
     hopRuns (late s) 0 = true ∧ (galAt (late s) 0).rx.ts = .active ∧ (galAt (late s) 0).rx.quietSince = some 0 ∧ (galSet (late s) 0).reclimb = true ∧
      (galAt (late s) 0).rx.steppedDown = true ∧ 0 + 600000000000 ≤ (late s).now ∧ ((galAt (late s) 0).rx.tread.getD 0).val < ((galAt (late s) 0).rx.target.getD 5).val) := by
  repeat' apply And.intro
  all_goals decide +kernel

/-- Gallery N0 with its walk held for a REPLAY to report 3. -/
def heldWalk : State := withRx fun r => { r with held := true, reportId := 3 }

theorem test_hyp_loss :
    (let l : LossBlk := ⟨1#8, 1#10, 2#4, 76#10⟩
     let fits := (modTx 0 (fun x => { x with lastReport := some 2 }) (withTx fun x => { x with seq := 2, sentPeriods := 2 }))
     (galAt (at0 up) 0).tx.ts = .active ∧ (galAt (at0 up) 0).tx.lastReport ≠ some l.reportId.toNat ∧ reportFits (galAt (at0 fits) 0).tx l = true ∧
      reportFits (galAt (at0 up) 0).tx l = false ∧ (galAt (at0 fits) 0).tx.lastReport = some l.reportId.toNat) ∧
    (hopRuns (at0 heldWalk) 0 = true ∧ (galAt (at0 heldWalk) 0).rx.held = true ∧ (at0 heldWalk).now < (galAt (at0 heldWalk) 0).rx.reportAt + 4000 ∧
      (galAt (late heldWalk) 0).rx.reportAt + 4000 ≤ (late heldWalk).now) ∧
    (galAt (at0 up) 0).rx.held = false ∧
    ((⟨0xFF#8, 9#10, 3#4, 1#1⟩ : ReplayBlk).reportId.toNat = (galAt (at0 heldWalk) 0).rx.reportId ∧ (⟨0xFF#8, 9#10, 3#4, 0#1⟩ : ReplayBlk).lossless = 0#1) := by
  repeat' apply And.intro
  all_goals decide +kernel

/-- Gallery N0 with lane 0 darned and an attempt due, or at a step of it. -/
def darned (step : Nat) : State :=
  modRx 0 (fun r => { r with attempt := { pos := 0, step, at_ := 0 } }) (withLane fun L => { L with failed := true, nextTry := some 5 })

theorem test_hyp_rejoin :
    (let a := late (darned 0)
     hopRuns a 0 = true ∧ (galAt a 0).rx.ts = .active ∧ (galAt a 0).rx.attempt.step = 0 ∧ (galAt a 0).rx.held = false ∧ (galAt a 0).rx.rejoin = none ∧ (galAt a 0).rx.stepTo = none ∧
      attemptDue a.now (laneAt a 0 (physOf (galAt a 0) 0)) = true) ∧
    (∀ p : Fin 8, attemptDue (at0 (darned 0)).now (laneAt (at0 (darned 0)) 0 (physOf (galAt (at0 (darned 0)) 0) p.val)) = false) ∧
    (∀ k ∈ [1, 2, 3, 4], (galAt (late (darned k)) 0).rx.attempt.step = k ∧ (galAt (late (darned k)) 0).rx.ts = .active ∧ 0 + 23000000 ≤ (late (darned k)).now) ∧
    ((galAt (at0 up) 0).tx.ts = .active ∧ (galAt (at0 up) 0).tx.checkSeen ≠ some (7#16).toNat ∧ (laneAt (at0 up) 0 (laneOf 3)).retiredTx = false) ∧
    (laneAt (at0 (withLane fun L => { L with txFailed := true })) 0 (laneOf 0)).txFailed = true ∧
    (let s := withTx fun x => { x with readyWait := some (7, 0) }
     (galAt (at0 s) 0).tx.readyWait = some (7, 0) ∧ (at0 s).now < 0 + 100000 ∧ 0 + 100000 ≤ (late s).now) ∧
    ((galAt (at0 (darned 0)) 0).rx.ts = .active ∧ (laneAt (at0 (darned 0)) 0 (physOf (galAt (at0 (darned 0)) 0) 0)).failed = true) := by
  repeat' apply And.intro
  all_goals decide +kernel

theorem test_hyp_credits :
    (creditsRun (at0 up) 0 = true ∧ (galAt (at0 up) 0).ctx.echoedId ≠ some (255#8).toNat) ∧
    (galAt (at0 (withGal fun G => { G with ctx := { G.ctx with echoedId := some 255 } })) 0).ctx.echoedId = some (255#8).toNat ∧
    (let s := withGal fun G => { G with ctx := { G.ctx with probeAt := some 0, probeId := 255 } }
     creditsRun (at0 s) 0 = true ∧ (galAt (at0 s) 0).ctx.probeAt = some 0 ∧ (255#8).toNat = (galAt (at0 s) 0).ctx.probeId ∧ (254#8).toNat ≠ (galAt (at0 s) 0).ctx.probeId) ∧
    (let s := withGal fun G => { G with crx := { G.crx with advancedA := some 0 } }
     creditsRun (late s) 0 = true ∧ (galAt (late s) 0).crx.advancedA = some 0 ∧ 0 + 1000 ≤ (late s).now ∧ (at0 s).now < 0 + 1000 ∧ (galAt (late s) 0).crx.advancedB = none) ∧
    ((galAt (at0 up) 0).crx.advancedA = none ∧ (galAt (at0 up) 0).tx.ts = .active ∧ elapsed (at0 up).now 10000 (galAt (at0 up) 0).crx.refreshAt = true) ∧
    (let s := withGal fun G => { G with crx := { G.crx with refreshAt := some 0 }, ctx := { G.ctx with sentAt := some 0, probedAt := some 0 } }
     elapsed (at0 s).now 10000 (galAt (at0 s) 0).crx.refreshAt = false ∧ elapsed (at0 s).now 100000 (galAt (at0 s) 0).ctx.sentAt = false ∧
      elapsed (at0 s).now 100000000 (galAt (at0 s) 0).ctx.probedAt = false ∧ elapsed (late s).now 100000 (galAt (late s) 0).ctx.sentAt = true ∧
      elapsed (late s).now 100000000 (galAt (late s) 0).ctx.probedAt = true) ∧
    (cget (galAt (late up) 0).crx.demand .cp = false ∧ cget (galAt (late up) 0).crx.stored .cp = 0 ∧ cget (galAt (late up) 0).crx.quietAt .cp + 20000 ≤ (late up).now ∧
      (at0 up).now < cget (galAt (at0 up) 0).crx.quietAt .cp + 20000) := by
  repeat' apply And.intro
  all_goals decide +kernel

/-! ## Placement, parcels and the Hall -/

/-- An announcement of region 5 at 60 frames a second, 1,920 by 1,080. -/
def annBlock : List Nat := [5, 0, 0, 0, 0x60, 0xEA, 0, 0, 0x80, 7, 0x38, 4, 0, 0, 0, 0]

/-- A claim of region 5 by claimant 9. -/
def claimBlock : List Nat := [5, 0, 0, 0, 9, 0, 0, 0, 0, 0, 0, 0, 0, 0, 0, 0]

/-- A record parcel of a kind with one record of 16 bytes after its head. -/
def recParcel (kind : Nat) (body : List Nat) : Parcel := mkParcel (msgHdr .pm false kind (4 + body.length) 0xFFFF#16 1#16 0#8 0#8 0#12 false false 0#32) (bys ([1, 1, 0, 0] ++ body))

/-- A driver's report of kind 1 for region 5: raised, or ended. -/
def faultParcel (ended : Bool) : Parcel :=
  mkParcel (msgHdr .pm false 7 16 0xFFFF#16 1#16 0#8 0#8 0#12 false false 0#32) (bys ([5, if ended then 0x50 else 0x10] ++ List.replicate 6 0 ++ [9, 0, 0, 0, 0, 0, 0, 0]))

/-- Region 5 in use, from N0 or N1 to S0. -/
def placedEntry : Entry := { state := .placed, dual := true, ingressB := 1#2, egress := 1#4, dropEgress := 1#4 }

/-- A device in PLACED with that entry, its reports of two drivers or of one held. -/
def placedUp (faults : List (BitVec 64 × Nat × Nat)) : State := modMon 5 4 (fun m => { m with faults }) (putForce 5 placedEntry up)

theorem test_hyp_records :
    (active (at0 up) = true ∧ gateOn (at0 up) 17 = true ∧ isNorth 3 = true ∧ isNorth 4 = false) ∧
    (pKind (recParcel 5 annBlock) = 0x05 ∧ recordsOf (recParcel 5 annBlock).payload = some [bys annBlock] ∧ annOf 1#16 0 (bys annBlock) ≠ none) ∧
    (recordsOf (recParcel 5 [1]).payload = none ∧ recordsOf (recParcel 6 [1]).payload = none) ∧ annOf 1#16 0 (bys (List.replicate 16 0)) = none ∧
    (pKind (recParcel 6 claimBlock) = 0x06 ∧ recordsOf (recParcel 6 claimBlock).payload = some [bys claimBlock] ∧ claimOf 4 0 (bys claimBlock) ≠ none) ∧
    claimOf 4 0 (bys (List.replicate 16 0xFF)) = none ∧
    (let p := faultParcel false
     pKind p = 0x07 ∧ p.payload.length = 16 ∧ bits (field p.payload 0 2) 13 12 ≠ 0 ∧ bitOf (field p.payload 0 2) 14 = false ∧ leavesHere (at0 (placedUp [])) 5 = true ∧
      (par1 (at0 (placedUp [])) 5 5).testBit 0 = true) ∧
    (let s := modSafety (fun f => { f with record := { f.record with groups := Vector.replicate 16 { p1 := [100, 16, 16384, 52428, 6] } } }) up
     (par1 (at0 s) 5 5).testBit 0 = false) ∧
    (bitOf (field (faultParcel true).payload 0 2) 14 = true ∧
      ((monAt (at0 (placedUp [(9#64, 1, 0), (8#64, 1, 0)])) 5 4).faults.filter fun f => f.1 != 9#64 || f.2.1 != 1) = [(8#64, 1, 0)] ∧
      ((monAt (at0 (placedUp [(9#64, 1, 0)])) 5 4).faults.filter fun f => f.1 != 9#64 || f.2.1 != 1) = []) := by
  repeat' apply And.intro
  all_goals decide +kernel

/-- A device whose Cutter runs. -/
def running (discard : Bool) : State := { cutting .automatic with cutter := { (cutting .automatic).cutter with running := some {}, discard } }

/-- Region 5 with the pair's other copy whole and later, and its selected copy late. -/
def overdue : State :=
  let s := modGal 1 (fun G => { G with whole := [(5, { ok := true, key := 32, lastOk := true })] }) (placedUp [])
  { s with cutter := { s.cutter with selCutAt := [(5, 0)], lastKey := [(5, 16)] } }

/-- Region 5 with a record and a claim held since time 0. -/
def recorded : State :=
  modRegionIn 5 (fun _ => { ann := [(0, ⟨0#2, 0#2, false, 0#4, 60000, 1920, 1080, 0#16, 0⟩)], claims := [⟨9#64, 4, 0#2, 0#2, 0#4, 0⟩] }) up

theorem test_hyp_cutter_runs :
    ((at0 (cutting .automatic)).live.cutMode = .automatic ∧ mayRun (at0 (cutting .automatic)) = true ∧ (at0 (cutting .automatic)).cutter.running = none) ∧
    (mayRun (at0 (running false)) = true ∧ (at0 (running false)).cutter.running.isSome = true ∧ (at0 (running false)).cutter.discard = false ∧
      (at0 (running false)).cutter.tableLost = false ∧ (at0 (running true)).cutter.discard = true ∧ active (at0 (running true)) = true ∧ gateOn (at0 (running true)) 17 = true) ∧
    (let s := modGal 4 (fun G => { G with rx := {}, tx := {} }) (putForce 5 placedEntry (cutting .manual))
     (at0 s).live.cutMode = .manual ∧ forcedHolds (at0 s) = true) ∧
    (at0 up).live.cutMode = .off ∧
    (let s := putPend 5 (some { e := placedEntry, at_ := 0 }) up
     (mget? (pendPlane (at0 s)) 5).isSome = true ∧ 0 + 250000000 ≤ (late s).now ∧ (at0 s).now < 0 + 250000000) ∧
    (let a := late overdue; let e := entryOf a 5
     active a = true ∧ inUse e = true ∧ e.dual = true ∧ e.selMode = 0#2 ∧ (1 : GalIx) = galOf (if e.selNow then e.ingressA.toNat else e.ingressB.toNat) ∧
      audit 5 a = a ∧ mget? a.cutter.selCutAt 5 = some 0 ∧ 5 * periodOf a 5 ≤ 2 * (a.now - 0) ∧ (mget? (galAt a 1).whole 5).isSome = true ∧ mget? a.cutter.lastKey 5 = some 16 ∧
      keyLater 32 16 = true ∧ galActive a 1 = true) ∧
    2 * ((at0 overdue).now - 0) < 5 * periodOf (at0 overdue) 5 ∧
    ((mget? (regionIn (late recorded) 5).ann 0).isSome = true ∧ 0 + 3000000000 ≤ (late recorded).now ∧ (at0 recorded).now < 0 + 3000000000 ∧
      ((regionIn (late recorded) 5).claims.find? fun k => k.gallery == 4 && k.claimant == 9#64).isSome = true) ∧
    (isPlaced (at0 (placedUp [])) = true ∧ isNorth 4 = false ∧ galActive (at0 (placedUp [])) 4 = true ∧ active (at0 (placedUp [])) = true) := by
  repeat' apply And.intro
  all_goals decide +kernel

/-- Gallery N0 with its limits advertised in full. -/
def roomy : State := withGal fun G => { G with crx := { G.crx with limit := ⟨1024, 256, 128, 128⟩ } }

/-- A whole PX parcel of region 5 with six bytes, and a message for this node. -/
def pxParcel : Parcel := mkParcel (pxHdr 12 0#16 5#12 0 0 0 0 0 true) (bys (List.replicate 12 0))

/-- A posted write for this node. -/
def pmParcel : Parcel := mkParcel (msgHdr .pm false 2 12 0#16 1#16 0#8 0#8 0#12 false false 1#32) (bys [0, 0, 0, 0x40, 0, 0, 4, 0, 1, 2, 3, 4])

/-- A basting train of one entry, without data. -/
def shortTrain : Train := [0x000000000001#48, 0x000000000004#48]

theorem test_hyp_stream :
    rxRuns (at0 up) 0 = true ∧
    (5 < 2048 ∧ 5 ∉ (at0 up).hall.routeBad) ∧
    (roomFor (galAt (at0 up) 0).crx .pm < parcelLen pmParcel ∧ pCls pmParcel ≠ .px ∧ roomFor (galAt (at0 up) 0).crx .px < parcelLen pxParcel ∧ pCls pxParcel = .px) ∧
    (rxRuns (at0 roomy) 0 = true ∧ parcelLen pmParcel ≤ roomFor (galAt (at0 roomy) 0).crx (pCls pmParcel) ∧ parcelLen pxParcel ≤ roomFor (galAt (at0 roomy) 0).crx (pCls pxParcel)) ∧
    ({ pmParcel with poisoned := true }.poisoned = true ∧ pmParcel.poisoned = false ∧ crcOk pmParcel = true ∧ crcOk { pmParcel with crc := 0#32 } = false ∧ crcOk pxParcel = true ∧
      (({ pxParcel with poisoned := true }).poisoned || !crcOk pxParcel) = true) ∧
    (mget? (pendPlane (at0 up)) 5 = none ∧
      (let s := putPend 5 (some { e := placedEntry, at_ := 0 }) up; (mget? (pendPlane (at0 s)) 5).map (fun e => ingressOf e.e) = some (0 : GalIx).val ∧ isNorth 0 = true) ∧
      (let s := putPend 5 (some { e := { placedEntry with ingressA := 1#2, selNow := false }, at_ := 0 }) up
       (mget? (pendPlane (at0 s)) 5).map (fun e => isNorth 0 && ingressOf e.e == (0 : GalIx).val) = some false)) ∧
    ((wayOf 0 5 (at0 up)).1 = .go [4] [] true ∧ (wayOf 0 5 (at0 (modGal 4 (fun G => { G with lost := some 1 }) up))).1 = .discard) ∧
    (trainOk [] = false ∧ trainOk shortTrain = true ∧ inBoot (at0 up) = false ∧ trainGals (at0 up) 0 = [4] ∧ (galAt (at0 up) 4).tx.trains.length < 4) ∧
    4 ≤ (galAt (at0 (modTx 4 (fun x => { x with trains := List.replicate 4 (0, []) }) up)) 4).tx.trains.length := by
  repeat' apply And.intro
  all_goals decide +kernel

/-- A Hall port with a parcel of so many cells for output 4, granted. -/
def crossing (cells : Nat) (item : Item) : State :=
  { up with hall := { up.hall with
      ports := up.hall.ports.set 0 { cur := some { item := { queued with item }, cls := .px, cells, outs := [4], todo := [4] } }
      grants := up.hall.grants.set 4 (some 0) } }

/-- Gallery S0 with PX and a message waiting, its credits in hand, and so much of the window used. -/
def sending (px pm : List QItem) (used : Nat) (alternate : Bool) : State :=
  modGal 4 (fun G => { G with egress := ⟨px, pm, [], []⟩, ctx := { G.ctx with limit := ⟨1000, 1000, 1000, 1000⟩, budgetUsed := used, alternate } }) up

/-- What a transmit island looks at at a parcel's turn. -/
def atTurn (s : State) : State := let c := at0 s |> passSlots 4 0 |> sendReplay 4; skimPx 4 ((galAt (at0 s) 4).egress.px.length) c

/-- A message in a queue, and a PX parcel. -/
def pmItem : QItem := { queued with item := .parcel pmParcel }

def pxItem : QItem := { queued with item := .parcel pxParcel }

theorem test_hyp_hall :
    (let a := at0 (crossing 1 queued.item)
     active a = true ∧ gateOn a 16 = true ∧ a.hall.lost = false ∧ ((a.hall.ports[(0 : Fin 10)].cur).map fun x => (x.cells, x.todo)) = some (1, [4]) ∧
      a.hall.grants[(4 : Fin 10)] = some 0) ∧
    (((at0 (crossing 2 queued.item)).hall.ports[(0 : Fin 10)].cur).map fun x => (x.cells, x.todo)) = some (2, [4]) ∧
    (((at0 (crossing 2 (.parcel pmParcel))).hall.ports[(0 : Fin 10)].cur).map fun x => x.item.item) = some (.parcel pmParcel) ∧
    (creditsRun (at0 up) 4 = true ∧ (galAt (atTurn (modTx 4 (fun x => { x with trains := [(0, [])] }) up)) 4).tx.trains ≠ []) ∧
    ((galAt (atTurn (sending [] [pmItem] 0 false)) 4).tx.trains = [] ∧ (nextMsg (atTurn (sending [] [pmItem] 0 false)) 4).isSome = true ∧
      pxReady (atTurn (sending [] [pmItem] 0 false)) 4 = false) ∧
    (let b := atTurn (sending [pxItem] [pmItem] 65536 true)
     (nextMsg b 4).isSome = true ∧ pxReady b 4 = true ∧ 65536 < (galAt b 4).ctx.budgetUsed + itemLen pmItem.item ∧ (galAt b 4).ctx.alternate = true) ∧
    (let b := atTurn (sending [pxItem] [] 0 false); nextMsg b 4 = none ∧ pxReady b 4 = true) ∧ (nextMsg (atTurn up) 4 = none ∧ pxReady (atTurn up) 4 = false) := by
  repeat' apply And.intro
  all_goals decide +kernel

/-! ## The engine and the store -/

/-- An item at the engine's input. -/
def engineAt (i : Item) (s : State) : State := modCorr (fun c => { c with inQ := [{ queued with item := i }] }) s

/-- Region 5 corrected here by pipe 0, announced, with its values loaded. -/
def servedUp : State :=
  modDir 5 (fun d => { d with units := 1, cstate := .loaded }) (putForce 5 { placedEntry with site := .here, pipes := 1#8, storeUnits := 1#11 } recorded)

theorem test_hyp_pipes :
    (active (at0 up) = true ∧ engineOn (at0 up) = true ∧ (noteErrors [] [] (at0 up)).corr.inQ = [] ∧ (at0 up).corr.pipes[(7 : Fin 8)].fenced = false) ∧
    ((noteErrors [] [] (at0 (engineAt (.cut ⟨5#12, false, false, 0#24, 0#4⟩) up))).corr.inQ.map (·.item) = [.cut ⟨5#12, false, false, 0#24, 0#4⟩]) ∧
    ((noteErrors [] [] (at0 (engineAt queued.item up))).corr.inQ.map (·.item) = [queued.item]) ∧
    (let d := modCorr (fun c => { c with inQ := [] }) (noteErrors [] [] (at0 (engineAt (.parcel pxParcel) servedUp)))
     (recordOf d (pRegion pxParcel).toNat).isSome = true ∧ served d (pRegion pxParcel).toNat (entryOf d (pRegion pxParcel).toNat) = true) ∧
    recordOf (at0 (engineAt (.parcel pxParcel) up)) 5 = none ∧
    (let a := at0 (engineAt (.parcel pxParcel) servedUp)
     a.corr.inQ.map (·.item) = [.parcel pxParcel] ∧ pipeOf a (pRegion pxParcel).toNat (pLine pxParcel) (entryOf a (pRegion pxParcel).toNat) = some 0) ∧
    (at0 (modPipe 7 (fun p => { p with fenced := true }) up)).corr.pipes[(7 : Fin 8)].fenced = true := by
  repeat' apply And.intro
  all_goals decide +kernel

theorem test_hyp_store_works :
    (active (at0 up) = true ∧ gateOn (at0 up) 19 = true ∧ (at0 up).corr.storeLost = false ∧ (at0 up).corr.queue = [] ∧ engineOn (at0 up) = true) ∧
    (dirOf (at0 (withDir { units := 1, cstate := .clearing })) 5).cstate = .clearing ∧
    ((dirOf (at0 (withDir { newExt := some ⟨0, 1, false, false⟩ })) 5).newExt = some ⟨0, 1, false, false⟩ ∧ (dirOf (at0 up) 5).cstate ≠ .clearing ∧
      (dirOf (at0 up) 5).newExt = none ∧ (dirOf (at0 up) 5).catching = false) ∧
    (dirOf (at0 (withDir { units := 2, dbuf := true, cstate := .loaded, catching := true })) 5).catching = true ∧
    (at0 (modCorr (fun c => { c with queue := [.commit 4095 9] }) up)).corr.queue = .commit (4095#12).toNat 9 :: [] ∧
    (at0 (modCorr (fun c => { c with queue := [.safeCommit 0 9] }) up)).corr.queue = .safeCommit (0#12).toNat 9 :: [] ∧
    StoreWrite.safeCommit (0#12).toNat 9 ∉ (at0 up).corr.queue ∧ (at0 (modCorr (fun c => { c with storeLost := true }) up)).corr.storeLost = true := by
  repeat' apply And.intro
  all_goals decide +kernel

/-! ## Safety -/

theorem test_hyp_monitors :
    (let s := modReg 5 (fun x => { x with inSafe := true, since := 1000000000000 }) (placedUp []); let a := late s
     active a = true ∧ gateOn a 16 = true ∧ replaced a 5 = true ∧ 4 ∈ leavesOn a 5 ∧ (galAt a 4).lost = none ∧ substDue a 5 4 = true ∧ a.now ≤ substDueAt a 5 4 + periodOf a 5) ∧
    (let s := putReader 5 4 false { since := 0, started := some 0 } (modReg 5 (fun x => { x with inSafe := true }) (placedUp []))
     substDue (late s) 5 4 = true ∧ substDueAt (late s) 5 4 + periodOf (late s) 5 < (late s).now) ∧
    (let s := modMon 5 4 (fun m => { m with freshAt := some 0, overAt := some 0, faults := [(9#64, 1, 0)] }) up
     (monAt (late s) 5 4).freshAt = some 0 ∧ 0 + par1 (late s) 5 1 * 1000000 ≤ (late s).now ∧ (at0 s).now < 0 + par1 (at0 s) 5 1 * 1000000 ∧
      (monAt (late s) 5 4).overAt = some 0 ∧ 0 + 1000000000 ≤ (late s).now ∧ (at0 s).now < 0 + 1000000000 ∧
      ((monAt (late s) 5 4).faults.filter fun f => (late s).now < f.2.2 + 1000000000) = [] ∧ (monAt (late s) 5 4).faults ≠ [] ∧
      ((monAt (at0 s) 5 4).faults.filter fun f => (at0 s).now < f.2.2 + 1000000000) = (monAt (at0 s) 5 4).faults) ∧
    (let s := modMon 5 4 (fun m => { m with faults := [(9#64, 1, 0), (8#64, 1, 999999999999)] }) up
     ((monAt (late s) 5 4).faults.filter fun f => (late s).now < f.2.2 + 1000000000) = [(8#64, 1, 999999999999)]) ∧
    (guarding (at0 up) = true ∧ (1299 : Int) < 1300 ∧ (at0 up).safety.thermal = false) ∧
    (let s := modSafety (fun f => { f with thermal := true, thermalLowAt := some 0 }) up
     (late s).safety.thermalLowAt = some 0 ∧ (late s).safety.thermal = true ∧ 0 + 1000000000 ≤ (late s).now ∧ (at0 s).now < 0 + 1000000000) ∧
    (gateOn (at0 up) 16 = true ∧ (at0 up).hall.lost = false ∧ (at0 { up with hall := { up.hall with lost := true } }).hall.lost = true) ∧
    (let s := modReg 5 (fun _ => { inSafe := true, clearAt := some 0 }) up
     (regSafe (late s) 5).clearAt = some 0 ∧ (regSafe (late s) 5).inSafe = true ∧ (regSafe (late s) 5).reasons = [] ∧ 0 + 500000000 ≤ (late s).now ∧ (at0 s).now < 0 + 500000000) ∧
    (regSafe (at0 (modReg 5 (fun _ => { reasons := [.host 0] }) up)) 5).reasons ≠ [] ∧
    (let s := modSafety (fun f => { f with thermalSafe := true, thermalClearAt := some 0 }) up
     (late s).clocks.refFailure = false ∧ (late s).safety.thermalSafe = true ∧ (late s).safety.thermalClearAt = some 0 ∧ 0 + 500000000 ≤ (late s).now ∧ (at0 s).now < 0 + 500000000) ∧
    (let s := modClocks (fun c => { c with refFailure := true }) up
     (late s).clocks.refFailure = true ∧ (late s).safety.thermalSafe = false ∧ refBack (late s) = some 0 ∧ 0 + 500000000 ≤ (late s).now) ∧
    refBack (at0 (modSide 0 (fun x => { x with waiting := true }) (modClocks (fun c => { c with refFailure := true }) up))) = none := by
  repeat' apply And.intro
  all_goals decide +kernel

/-- A release of every group armed at time 0, its pin fallen or not. -/
def armedUp (fell : Option Nat) (clr : Bool) : State :=
  let s := modSafety (fun f => { f with armed := some ⟨1, 0, 0, fell, 2, 0#16⟩ }) up
  { s with pins := { s.pins with clrN := clr } }

/-- The service host waits for the check of a password of 8 zeros; the hash kept is that password's, or none fits. -/
def checkingPw (right : Bool) : State :=
  let q := rq cmdUnlock [8]
  modSafety (fun f => { f with checking := some 2, record := { f.record with pwHash := some (if right then passwordHash 0#128 (bys (List.replicate 8 0)) else 0#384, 0#128) } })
    (modRing .service (fun r => { r with wait := some { op := 0x602, req := q, at_ := 0, due := 1000000000 } }) up)

theorem test_hyp_lockout :
    (let s := modSafety (fun f => { f with recWait := [(16, ⟨7, 0, 0, 0, 2, 0#16⟩)] }) up
     guarding (at0 s) = true ∧ (at0 s).power.brownout = none ∧ (at0 s).safety.recWait = [(16, ⟨7, 0, 0, 0, 2, 0#16⟩)] ∧ (at0 up).safety.recWait = []) ∧
    (let s := modMon 5 4 (fun m => { m with trips := 1#6 }) (modSafety (fun f => { f with record := { f.record with groups := Vector.replicate 16 { cls := [.lockout] } } }) (armedUp (some 0) false))
     (late s).safety.armed.isSome = true ∧ 0 + 1000000000 ≤ (late s).now ∧ (late s).pins.clrN = false ∧ condPresent (late s) 1 0 = true) ∧
    ((at0 (armedUp (some 0) false)).safety.armed.map (·.fell) = some (some 0) ∧ (at0 (armedUp (some 0) false)).now < 0 + 1000000000) ∧
    ((late (armedUp none true)).safety.armed.map (fun x => (x.fell, x.at_)) = some (none, 0) ∧ 0 + 30000000000 ≤ (late (armedUp none true)).now ∧
      (at0 (armedUp none true)).now < 0 + 30000000000 ∧ (at0 (armedUp none true)).pins.clrN = true) ∧
    ((at0 up).safety.armed = none ∧ (at0 up).pins.clrN = true) ∧
    ((late upSess).safety.session = some (2, 7#32, 0) ∧ 0 + 60000000000 ≤ (late upSess).now ∧ (at0 upSess).now < 0 + 60000000000) := by
  repeat' apply And.intro
  all_goals decide +kernel

theorem test_hyp_password_check :
    fwRuns (late (checkingPw true)) = true ∧ (late (checkingPw true)).power.brownout = none ∧ (ringAt (late (checkingPw true)) .service).wait.isSome = true ∧
    (∀ k ∈ [HostId.link, .second, .debug], (ringAt (late (checkingPw true)) k).wait = none) ∧ (late (checkingPw true)).safety.checking = some (hostIx .service).val ∧
    0x602 / 256 = 6 ∧ 0 + 200000000 ≤ (late (checkingPw true)).now ∧ (at0 (checkingPw true)).now < 0 + 200000000 ∧
    rightPassword (late (checkingPw true)) (slice (rq cmdUnlock [8]).payload 1 8) = true ∧
    rightPassword (late (checkingPw false)) (slice (rq cmdUnlock [8]).payload 1 8) = false := by
  repeat' apply And.intro
  all_goals decide +kernel

/-! ## Clocks, power and boot -/

/-- A device in which the switch of an island waits, and a gate asked to close. -/
def switching (lost : BitVec 3) : State :=
  modClocks (fun c => { c with switching := [⟨17, false, .ring, 0⟩, ⟨8, false, .xin, 0⟩], closing := [⟨23, 0⟩], refLost := lost }) up

theorem test_hyp_switches :
    (supervising (at0 (switching 0#3)) = true ∧ ((at0 (switching 0#3)).clocks.switching.find? (·.island == 8)) = some ⟨8, false, .xin, 0⟩ ∧
      srcLost (at0 (switching 0#3)) .xin = false ∧ (at0 (switching 0#3)).now < 0 + detectTime .xin ∧ 0 + detectTime .xin ≤ (late (switching 0#3)).now ∧
      ((at0 (switching 0#3)).clocks.switching.find? (·.island == 0)) = none) ∧
    (srcLost (at0 (switching 4#3)) .xin = true ∧ (at0 (switching 4#3)).clocks.localReset.getLsbD 8 = false) ∧
    ((at0 (switching 0#3)).clocks.closing.any (·.unit == 23) = true ∧ (at0 (switching 0#3)).clocks.closing.any (·.unit == 22) = false ∧
      0 + quiesceLimit (late (switching 0#3)) 23 ≤ (late (switching 0#3)).now ∧ (at0 (switching 0#3)).now < 0 + quiesceLimit (at0 (switching 0#3)) 23) := by
  repeat' apply And.intro
  all_goals decide +kernel

/-- North runs on REFCLK_A. -/
def onA : State := modSide 0 (fun x => { x with running := .a }) up

/-- North waits since REFCLK_A was lost, its backup the crystal. -/
def lostA (b : Option RefSrc) : State :=
  modLive (fun v => { v with refPrimary := Vector.replicate 2 .a, refBackup := Vector.replicate 2 b })
    (modClocks (fun c => { c with refLost := 1#3, refHealthy := 6#3 }) (modSide 0 (fun x => { x with running := .a, waiting := true }) up))

theorem test_hyp_references :
    (supervising (at0 up) = true ∧ srcLost (at0 up) (refOf 0) = false ∧ srcLost (at0 up) .xin = false ∧ sidesOn (declareLost 0 (at0 up)) (refOf 0) = []) ∧
    (sidesOn (declareLost 0 (at0 onA)) (refOf 0) ≠ [] ∧ (at0 onA).power.pstate = .p0) ∧
    (let s := modPower (fun p => { p with pstate := .p2 }) up; supervising (at0 s) = true ∧ (at0 s).power.pstate ≠ .p0) ∧
    ((srcLost (at0 (lostA none)) (refOf 0) || srcLost (at0 (lostA none)) .xin) = true ∧ (at0 (lostA none)).clocks.refHealthy.getLsbD 0 = false ∧ srcLost (at0 (lostA none)) .xin = false) ∧
    (let s := modClocks (fun c => { c with refLost := 4#3, refHealthy := 3#3 }) up; (at0 s).clocks.refHealthy.getLsbD 2 = false ∧ srcLost (at0 s) .xin = true ∧ (at0 s).clocks.pll.getLsbD 0 = true) ∧
    (at0 up).clocks.refHealthy.getLsbD 2 = true ∧
    (fwRuns (at0 (lostA (some .xin))) = true ∧ ((sidesOn (at0 (lostA (some .xin))) (refOf 0)).filter fun k => (at0 (lostA (some .xin))).clocks.sides[k].waiting &&
        !(at0 (lostA (some .xin))).clocks.sides[k].reported) = [0] ∧ otherRef (at0 (lostA (some .xin))) 0 = some .xin ∧ otherRef (at0 (lostA none)) 0 = none ∧
      otherRef (at0 (lostA (some .b))) 0 = some .b) ∧
    (let s := modClocks (fun c => { c with pll := 0#4 }) up
     active (at0 s) = true ∧ (∀ p : Fin 4, canLock (at0 s) p.val = true ∧ (at0 s).clocks.pll.getLsbD p.val = false)) ∧
    (∀ p : Fin 4, (at0 up).clocks.pll.getLsbD p.val = true) ∧
    (let s := modClocks (fun c => { c with refout := Vector.replicate 2 { enabled := true } }) up
     (at0 s).power.inReset = none ∧ (at0 s).power.pstate ≠ .p3 ∧ (at0 s).clocks.refout[(1 : Fin 2)].enabled = true ∧ srcLost (at0 s) .xin = false) := by
  repeat' apply And.intro
  all_goals decide +kernel

/-- A device under a reset. -/
def resetting (h : ResetHold) (low : Option Nat) : State :=
  let s := modPower (fun p => { p with inReset := some h }) up
  { s with pins := { s.pins with resetNLow := low } }

theorem test_hyp_resets :
    ((at0 (resetting .por none)).power.inReset = some .por ∧ (at0 (resetting .por none)).pins.testMode = false ∧ (at0 (resetting .por none)).pins.resetNLow = none ∧
      (at0 (resetting .por (some 5))).pins.resetNLow.isSome = true) ∧
    ((at0 up).power.inReset ≠ some .por ∧ (at0 up).power.inReset ≠ some .extest ∧ guarding (at0 up) = true) ∧
    ((at0 (resetting .pin (some 5))).power.inReset ≠ some .por ∧ guarding (at0 (resetting .pin (some 5))) = false) ∧
    (let s := modPower (fun p => { p with oscWaiting := true }) up
     alwaysOn (late s) = true ∧ (late s).power.oscWaiting = true ∧ (late s).power.bootAt + oscWaitMin (late s).power.sampled.oscWait ≤ (late s).now ∧
      (at0 s).now < (at0 s).power.bootAt + oscWaitMin (at0 s).power.sampled.oscWait) := by
  repeat' apply And.intro
  all_goals decide +kernel

/-- A device whose boot has come to a phase of the Mezzanine. -/
def booting (run : MezRun) (mode : BitVec 2) : State := modPower (fun p => { p with sampled := { p.sampled with bootMode := mode } }) (modMez (fun m => { m with run }) up)

theorem test_hyp_boot :
    (let s := modPower (fun p => { p with seqDone := false }) up
     active (at0 s) = true ∧ (at0 s).power.seqDone = false ∧ (at0 s).power.oscWaiting = false ∧ (at0 s).clocks.pll.getLsbD 0 = true ∧ (at0 s).clocks.pll.getLsbD 1 = true ∧
      bootWaits (at0 s) = false ∧ (completeFuses (at0 s)).mram.erasing = false) ∧
    (let s := modMram (fun m => { m with erasing := true }) (modPower (fun p => { p with seqDone := false }) up)
     bootWaits (at0 s) = false ∧ (completeFuses (at0 s)).mram.erasing = true) ∧
    bootWaits (at0 (modMram (fun m => { m with erasing := true }) (modPower (fun p => { p with brownout := some 0 }) up))) = true ∧
    (let a := at0 (booting .rom 1#2); a.power.seqDone = true ∧ gateOn a 20 = true ∧ a.mez.run = .rom ∧ holdRom a = true) ∧
    (let a := at0 (booting .rom 0#2); let x := checkSlot a.otp (fwSlot a 0); let y := checkSlot a.otp (fwSlot a 1)
     holdRom a = false ∧ a.power.brownout = none ∧ newestSlot x.1 y.1 (slotLive x.1) (slotLive y.1) = some 0) ∧
    (let a := at0 (modMram (fun m => { m with slots := Vector.replicate 2 {} }) (booting .rom 0#2)); let x := checkSlot a.otp (fwSlot a 0); let y := checkSlot a.otp (fwSlot a 1)
     newestSlot x.1 y.1 (slotLive x.1) (slotLive y.1) = none) ∧
    (let a := at0 (booting .starting 0#2); a.mez.run = .starting ∧ a.mez.readopt = false ∧ a.mez.halted = false) ∧
    (at0 (modMez (fun m => { m with readopt := true }) (booting .starting 0#2))).mez.readopt = true ∧
    (let s := modFwSlot 0 (fun x => { x with state := .trial }) (modMez (fun m => { m with trialSince := some 0 }) up)
     (at0 s).mez.run = .running ∧ (at0 s).mez.halted = false ∧ (late s).mez.slot = some 0 ∧ (fwSlot (late s) 0).state = .trial ∧ fwRuns (late s) = true ∧
      (late s).mez.trialSince = some 0 ∧ 0 + 60000000000 ≤ (late s).now ∧ (at0 s).now < 0 + 60000000000) ∧
    (at0 (modMez (fun m => { m with slot := none }) up)).mez.slot = none := by
  repeat' apply And.intro
  all_goals decide +kernel

/-- An entry to P2 or P3 since time 0. -/
def entering (target : Nat) (arose : Bool) : State := modPower (fun p => { p with entry := some { target, startedAt := 0, safetyArose := arose } }) up

/-- The same with a message still on its way. -/
def busyEntry : State := modGal 4 (fun G => { G with egress := ⟨[], [pmItem], [], []⟩ }) (entering 2 false)

/-- A brown-out since time 0. -/
def brown (sustained : Bool) : State := modPower (fun p => { p with brownout := some 0, brownSustained := sustained }) up

theorem test_hyp_power :
    ((at0 busyEntry).power.entry.isSome = true ∧ messagesGone (at0 busyEntry) = false ∧ (at0 busyEntry).now < 0 + 2000000 ∧ 0 + 2000000 ≤ (late busyEntry).now ∧ active (at0 busyEntry) = true) ∧
    (messagesGone (at0 (entering 2 false)) = true ∧ (at0 (entering 2 false)).safety.armed = none ∧ (at0 (entering 3 false)).power.entry.map (·.target) = some 3 ∧
      (at0 (entering 2 true)).power.entry.map (·.safetyArose) = some true) ∧
    (let s := fun (m : CutMode) => modPower (fun p => { p with cutterHold := some 5 }) (cutting m)
     (late (s .manual)).power.cutterHold = some 5 ∧ 5 ≤ (late (s .manual)).now ∧ (late (s .manual)).live.cutMode ≠ .automatic ∧ (late (s .automatic)).live.cutMode = .automatic ∧
      (at0 (s .manual)).now < 5) ∧
    (alwaysOn (at0 up) = true ∧ alwaysOn (at0 (resetting .pin (some 5))) = false ∧ (at0 up).power.pstate = .p0) ∧
    ((at0 up).power.brownout = none ∧ (at0 (brown false)).power.brownout = some 0 ∧ guarding (at0 (brown false)) = true ∧ 0 + 10000000 ≤ (late (brown false)).now ∧
      (late (brown false)).power.brownSustained = false ∧ (at0 (brown false)).now < 0 + 10000000 ∧ 0 + 10000000 < (late (brown false)).now ∧ (at0 (brown true)).power.brownSustained = true) ∧
    (let s := modPower (fun p => { p with inReset := some .pin }) (brown false)
     guarding (at0 s) = false ∧ (at0 s).power.inReset ≠ some .por ∧ (at0 s).power.brownout.isSome = true) ∧
    (at0 (modMram (fun m => { m with erasing := true }) up)).mram.erasing = true ∧ (at0 up).mram.erasing = false ∧
    (canFreeze (late up) = true ∧ (late up).now - 5 > (late up).power.bootAt ∧ canFreeze (at0 (resetting .pin (some 5))) = false ∧ freezeTie (at0 (resetting .pin (some 5))) = false ∧
      (let s := { up with frz := { up.frz with on := true, at_ := (at0 up).now } }; canFreeze (at0 s) = false ∧ freezeTie (at0 s) = true) ∧ (at0 up).now - 5 ≤ (at0 up).power.bootAt) := by
  repeat' apply And.intro
  all_goals decide +kernel

/-! ## The bridge, port L and the mailboxes -/

/-- A request of node 1 with tag 5 for four bytes at an address; kinds 1 READ and 2 WRITE. -/
def accessParcel (cls : Cls) (kind tag attr : Nat) (addr : List Nat) (n : Nat) : Parcel :=
  let body := addr ++ [n, 0] ++ (if kind = 2 then [1, 2, 3, 4] else [])
  mkParcel (msgHdr cls false kind body.length 0#16 1#16 (BitVec.ofNat 8 tag) (BitVec.ofNat 8 attr) 0#12 false false 1#32) (bys body)

/-- Addresses in the store, on port L at target 0x50, in the mirror, and in no window. -/
def storeA : List Nat := [0, 0, 0, 0x40, 0, 0]

def portLA : List Nat := [0, 0, 0x50, 0x80, 0, 0]

def mirrorA : List Nat := [0, 0, 1, 0, 0, 0]

def nowhereA : List Nat := [0, 0, 0, 0x20, 0, 0]

/-- The window that an access of a parcel falls in. -/
def winOf (p : Parcel) : Option (BitVec 128) := let x := accessOf p 9 0; decodeWindow (at0 up) x.asker.src x.address x.count

/-- A completion of status 0 for tag 5 with four bytes. -/
def donePar (status : Nat) : Parcel := mkParcel (msgHdr .cp false 3 8 0#16 1#16 5#8 (BitVec.ofNat 8 status) 0#12 false false 1#32) (bys [0, 0, 4, 0, 1, 2, 3, 4])

/-- A device that waits for that completion. -/
def remoting (read : Bool) (count : Nat) : State := modBridge (fun b => { b with remote := some ⟨5, 2, read, count, []⟩ }) up

/-- A relayed event, to this node or to all. -/
def eventParcel (dest : BitVec 16) : Parcel := mkParcel (msgHdr .pm true 4 4 dest 1#16 0#8 0#8 0#12 false false 1#32) (bys [1, 2, 3, 4])

theorem test_hyp_bridge :
    port9Serves (at0 up) = true ∧
    (let p := accessParcel .np 1 5 0 storeA 4; let x := accessOf p 9 0
     pKind p = 1 ∧ pCls p = .np ∧ tagCheck (at0 up) x.asker = 0 ∧ tagCheck (at0 up) (accessOf (accessParcel .np 1 64 0 storeA 4) 9 0).asker = 3 ∧ readFormed p x = true ∧
      readFormed p (accessOf (accessParcel .np 1 5 2 [1, 0, 0, 0x40, 0, 0] 4) 9 0) = false ∧ (winOf p).map (fun w => !fitsWindow w x || (x.lock && !winFlag w 58)) = some false ∧
      (let y := accessOf (accessParcel .np 1 5 4 storeA 4) 9 0; (winOf p).map (fun w => !fitsWindow w y || (y.lock && !winFlag w 58)) = some true) ∧
      winOf (accessParcel .np 1 5 0 nowhereA 4) = none) ∧
    (pKind pmParcel = 2 ∧ pCls pmParcel = .pm ∧ (at0 up).bridge.posted.length < 256 ∧ writeFormed pmParcel (accessOf pmParcel 9 0) = true ∧
      (winOf pmParcel).map (fun w => postedFails w (accessOf pmParcel 9 0) (at0 up)) = some none ∧
      (let p := accessParcel .pm 2 0 0 mirrorA 4; (winOf p).map (fun w => postedFails w (accessOf p 9 0) (at0 up)) = some (some 2)) ∧
      winOf (accessParcel .pm 2 0 0 nowhereA 4) = none ∧ writeFormed pmParcel (accessOf (accessParcel .pm 2 0 0 storeA 0) 9 0) = false) ∧
    256 ≤ (at0 (modBridge (fun b => { b with posted := List.replicate 256 ⟨0, ⟨1#16, 0#8, 0#32, 9⟩, 0, 4, true, 0⟩ }) up)).bridge.posted.length ∧
    (let p := accessParcel .np 2 5 0 storeA 4; let m := accessParcel .np 2 5 0 mirrorA 4
     pKind p = 2 ∧ pCls p = .np ∧ tagCheck (at0 up) (accessOf p 9 0).asker = 0 ∧ writeFormed p (accessOf p 9 0) = true ∧ (winOf p).map (fun w => winFlag w 59) = some false ∧
      (winOf m).map (fun w => winFlag w 59) = some true ∧ (winOf p).map (fun w => fitsWindow w (accessOf p 9 0)) = some true) ∧
    (pKind (donePar 0) = 3 ∧ pCls (donePar 0) = .cp ∧ (at0 up).bridge.remote = none ∧ (at0 (remoting true 4)).bridge.remote = some ⟨5, 2, true, 4, []⟩ ∧
      (pTag (donePar 0)).toNat = 5 ∧ (pAttr (donePar 0)).toNat = 0 ∧ (pAttr (donePar 5)).toNat ≠ 0 ∧ gateOn (at0 (remoting true 8)) 22 = true ∧
      ([] ++ ((donePar 0).payload.drop 4).take (field (donePar 0).payload 2 2 % 4096)).length = 4) ∧
    (pKind (eventParcel 0#16) = 4 ∧ pCls (eventParcel 0#16) = .pm ∧ pDest (eventParcel 0#16) ≠ 0xFFFF#16 ∧ pDest (eventParcel 0xFFFF#16) = 0xFFFF#16) := by
  repeat' apply And.intro
  all_goals decide +kernel

/-- A port L request of node 1. -/
def plReq (read lock : Bool) (losses : Nat) : PlReq := ⟨⟨1#16, 5#8, 0#32, 9⟩, none, read, lock, 0x80500000, 1, 1, 0, 1, 1, if read then [] else [1#8], losses, 0⟩

/-- A device where it waits, a sequence of that node in force or not. -/
def waitingL (r : PlReq) (l : Option LockSeq) : State := modPortL (fun p => { p with waiting := [r], lock := l, recoverDue := false }) up

theorem test_hyp_port_l :
    (portLRuns (at0 up) = true ∧ nextReq (at0 up) = none ∧ nextReq (at0 (waitingL (plReq true false 0) none)) = some (plReq true false 0) ∧
      plReq true false 0 ∈ (recoverIfDue (at0 (waitingL (plReq true false 0) none))).portL.waiting) ∧
    ((runBus (plReq true false 0) busStart true 3 [7#8]).2.1 = true ∧ (runBus (plReq true false 0) busStart true 0 []).2.1 = false) ∧
    (nextReq (at0 (waitingL (plReq true true 0) none)) = some (plReq true true 0) ∧ (runBus (plReq true true 0) busStart false 3 [7#8]).2.1 = true ∧
      (runBus (plReq true true 0) busStart false 0 []).2.1 = false) ∧
    (nextReq (at0 (waitingL (plReq false true 0) (some heldLock))) = some (plReq false true 0) ∧ heldLock.src = (plReq false true 0).asker.src ∧
      (runBus (plReq false true 0) busAgain true 3 []).2.1 = true ∧ (runBus (plReq false true 0) busAgain true 0 []).2.1 = false) ∧
    (nextReq (at0 (waitingL (plReq false true 0) none)) = some (plReq false true 0) ∧ (recoverIfDue (at0 (waitingL (plReq false true 0) none))).portL.lock = none) ∧
    ((plReq true false 6).losses < 7 ∧ (late (waitingL (plReq true false 6) none)).now ≥ (plReq true false 6).at_ + 10000000 ∧ 7 ≤ (plReq true false 7).losses) ∧
    ((at0 up).portL.fenced = false ∧ (at0 up).portL.lock = none ∧ (at0 up).live.twlStretch * 100000 < 10000001) ∧
    (let s := modPortL (fun p => { p with lock := some heldLock }) up
     (late s).portL.lock = some heldLock ∧ heldLock.since = some 0 ∧ 0 + 1000000 ≤ (late s).now ∧ (at0 s).now < 0 + 1000000) ∧
    (let s := modPortL (fun p => { p with lostFor := some (1#16, 0) }) up
     (late s).portL.lostFor = some (1#16, 0) ∧ 0 + 100000000 ≤ (late s).now ∧ (at0 s).now < 0 + 100000000) := by
  repeat' apply And.intro
  all_goals decide +kernel

/-- A link ring changed. -/
def linkRing (f : Ring → Ring) : State := modRing .link f up

/-- A whole frame of `system.status` in the link ring. -/
def frameBytes : List Byte := rspFrame 0x003 1 0 0 0 0 1 []

/-- A frame submitted over N0. -/
def submitted (b : List Byte) : State := linkRing fun r => { r with cmds := [⟨b, 0, 1#16, some 0, 0⟩], tail := 1#8 }

theorem test_hyp_mailbox :
    (windowUp (at0 up) = true ∧ boundToOther (ringAt (at0 up) (hostOfGal 0)) 1#16 = false ∧ (ringAt (at0 up) (hostOfGal 0)).cmds.length < 8 ∧
      responsesFor (ringAt (at0 up) (hostOfGal 0)) 1#16 = []) ∧
    boundToOther (ringAt (at0 (linkRing fun r => { r with bound := some (2#16, 0) })) (hostOfGal 0)) 1#16 = true ∧
    8 ≤ (ringAt (at0 (linkRing fun r => { r with cmds := List.replicate 8 ⟨[], 0, 1#16, some 0, 0⟩ })) (hostOfGal 0)).cmds.length ∧
    responsesFor (ringAt (at0 (linkRing fun r => { r with rsps := [⟨[], 1#16, 0⟩] })) (hostOfGal 0)) 1#16 = ⟨[], 1#16, 0⟩ :: [] ∧
    ((1#8).getLsbD 0 = true ∧ (1#8).getLsbD 1 = false ∧ (2#8).getLsbD 1 = true ∧ (3#8).getLsbD 0 = true ∧ (3#8).getLsbD 1 = true ∧ (0#8).getLsbD 0 = false) ∧
    (let s := linkRing fun r => { r with bound := some (2#16, 0) }
     (ringAt (late s) .link).bound = some (2#16, 0) ∧ 0 + 1000000 ≤ (late s).now ∧ (at0 s).now < 0 + 1000000) ∧
    nextFrame (at0 up) = none ∧
    (let a := at0 (submitted frameBytes)
     (nextFrame a).isSome = true ∧ fwRuns a = true ∧ frameCrc frameBytes = true ∧ frameFields frameBytes = true ∧ (allCmds.find? fun c => c.op == frOp frameBytes).isSome = true) ∧
    ((nextFrame (at0 (submitted (bys (List.replicate 28 1))))).isSome = true ∧ frameCrc (bys (List.replicate 28 1)) = false) := by
  repeat' apply And.intro
  all_goals decide +kernel

/-- The service host waits for a command since time 0. -/
def waitFor (op : Nat) (s : State) : State := modRing .service (fun r => { r with wait := some { op, req := rq cmdSync [], at_ := 0, due := 5, mark := 1 } }) s

/-- A verified update whose slot is COMMITTING. -/
def committingUp : State := modFwSlot 1 (fun x => { x with state := .committing }) (updating { state := .verified, target := 1 })

theorem test_hyp_waits :
    (let s := waitFor 0x709 posting
     fwRuns (late s) = true ∧ (ringAt (late s) .service).wait.map (fun w => (w.op, w.due)) = some (0x709, 5) ∧ (∀ k ∈ [HostId.link, .second, .debug], (ringAt (late s) k).wait = none) ∧
      timesOut 0x709 = true ∧ 5 ≤ (late s).now ∧ (at0 s).now < 5 ∧ writesOut (late s) (syncSource (rq cmdSync [])) 1 = true ∧
      writesOut (late (waitFor 0x709 up)) (syncSource (rq cmdSync [])) 1 = false) ∧
    timesOut 0x602 = false ∧
    (wholeImage (late (waitFor 0xC02 (updating { length := 4 }))).upd = false ∧
      (let a := late (waitFor 0xC02 (updating { state := .receiving, length := 1, bytes := [(0, 1#8)] })); wholeImage a.upd = true ∧ imageSigned a.otp (image a.upd) = false)) ∧
    ((late (waitFor 0xC03 up)).power.brownout = none ∧ committing (late (waitFor 0xC03 up)) = false ∧ committing (late (waitFor 0xC03 committingUp)) = true) ∧
    (let s := setLease 14 { holder := some svcHost } { up with mbx := { up.mbx with leases := Vector.replicate 15 {} } }
     guarding (late s) = true ∧ (leaseAt (late s) 14).holder.isSome = true ∧ (leaseAt (late s) 14).renewed + 10000000000 ≤ (late s).now ∧
      (∀ e < 14, (leaseAt (late s) e).holder = none)) ∧
    (∀ d < 15, (leaseAt (at0 up) d).holder.isSome = true ∧ (at0 up).now < (leaseAt (at0 up) d).renewed + 10000000000) ∧
    (let s := modLog (fun f => { f with staging := [⟨0, 2, 2, false, false, 0, 0, []⟩], lastWrite := some 0 }) up
     (late s).log.staging.length = 1 ∧ 0 + 1000000 ≤ (late s).now ∧ (at0 s).now < 0 + 1000000 ∧ (late s).power.brownout = none ∧ (at0 up).log.staging = []) ∧
    (let s := modLog (fun f => { f with stream := some ⟨.service, 0#16, 0, 0⟩ }) up
     active (late s) = true ∧ (late s).log.stream = some ⟨.service, 0#16, 0, 0⟩ ∧ 0 + 10000000000 ≤ (late s).now ∧ (at0 s).now < 0 + 10000000000) ∧
    (hopRuns (at0 scanned) 0 = true ∧ laneLocked (laneAt (at0 scanned) 0 0) = true ∧ (laneAt (at0 scanned) 0 0).failed = false ∧ (laneAt (at0 scanned) 0 0).rxIdle = false ∧
      4 ≤ ((galAt (at0 scanned) 0).rx.tread.getD 0).val) ∧
    ((galAt (at0 (withRx fun r => { r with tread := some 3 })) 0).rx.tread.getD 0).val < 4 := by
  repeat' apply And.intro
  all_goals decide +kernel

/-! ## Port M, the test access port, and the rules stated whole -/

/-- A device asleep in a power state. -/
def asleep (p : PState) : State := modPower (fun x => { x with pstate := p }) up

/-- A cause of attention waits, and a way to ask for it. -/
def ringing (attn : Nat) (notify : Option Nat) : State := modLive (fun v => { v with twAttn := attn }) (modPortM (fun m => { m with causes := 1#5, notifyAt := notify }) up)

theorem test_hyp_port_m :
    (alwaysOn (at0 (resetting .pin (some 5))) = false ∧ alwaysOn (at0 up) = true ∧ (at0 up).power.pstate = .p0) ∧
    ((at0 (asleep .p2)).power.pstate = .p2 ∧ (at0 (asleep .p3)).power.pstate = .p3 ∧ alwaysOn (at0 (asleep .p3)) = true ∧ (at0 (asleep .p3)).power.inReset = none ∧
      (at0 (asleep .p3)).frz.on = false ∧ (at0 (asleep .p2)).power.pstate ≠ .p3) ∧
    (fragOrder up.portM 3#8 = true ∧ (if (3#8).getLsbD 0 then 0 else (up.portM.asm_.getD []).length) + 239 ≤ 1028 ∧ 2 ≤ 241 ∧
      pecOk up ([writeByte up, 0x20#8, 2#8] ++ [3#8, 1#8]) (some (crc8 ([writeByte up, 0x20#8, 2#8] ++ [3#8, 1#8]))) = true ∧
      pecOk up ([writeByte up, 0x20#8, 2#8] ++ [3#8, 1#8]) none = false) ∧
    (2#8 : Byte) ≠ 1#8 ∧ guarding (at0 up) = true ∧
    (active (at0 (ringing 1 none)) = true ∧ (at0 (ringing 1 none)).portM.causes ≠ 0#5 ∧ (at0 (ringing 1 none)).live.twAttn = 1 ∧ (at0 (ringing 2 none)).live.twAttn = 2 ∧
      (at0 (ringing 2 none)).portM.notifyAt = none ∧ (at0 (ringing 2 (some 0))).portM.notifyAt = some 0 ∧ 0 + 10000000 ≤ (late (ringing 2 (some 0))).now ∧
      (at0 (ringing 2 (some 0))).now < 0 + 10000000) := by
  repeat' apply And.intro
  all_goals decide +kernel

/-- A debug level in force. -/
def debugAt (n : Nat) : State := modDbg (fun d => { d with level := n, nonce := some 0#256 }) up

theorem test_hyp_tap :
    ((at0 up).power.inReset ≠ some .por ∧ (at0 up).power.inReset ≠ some .extest ∧ (at0 (resetting .extest none)).power.inReset = some .extest ∧
      (at0 (resetting .extest none)).pins.resetNLow = none) ∧
    ((at0 (debugAt 1)).dbg.level < tapLevel 0x30 ∧ tapLevel 0x30 ≤ (at0 up).dbg.level ∧ tapWorks 0x30 (at0 up) = true ∧ tapWorks 0x10 (at0 (asleep .p3)) = false ∧ tapLevel 0x10 ≤ 0) ∧
    (mayCheck (at0 up) = true ∧ lifecycle (at0 up).otp = 0 ∧ mayCheck (at0 (asleep .p2)) = false) ∧
    (let s := { debugAt 0 with otp := { up.otp with secured := 0xFF#8 } }
     mayCheck (at0 s) = true ∧ lifecycle (at0 s).otp ≠ 0 ∧ (at0 s).dbg.nonce = some 0#256 ∧ (at0 { s with dbg := { s.dbg with nonce := none } }).dbg.nonce = none) ∧
    ((at0 up).frz.on = false ∧ (at0 { up with frz := { up.frz with on := true } }).frz.on = true ∧ (1#8 : Byte) = 1#8 ∧ (1#8).toNat ≤ 1 ∧ 1 < (2#8).toNat) := by
  repeat' apply And.intro
  all_goals decide +kernel

theorem test_hyp_states :
    up.frz.on = false ∧ ({ up.frz with on := true, qs := List.replicate 8 0#8 } : Freeze).on = true ∧ 8 ≤ (List.replicate 8 0#8 : List Byte).length := by
  repeat' apply And.intro
  all_goals decide +kernel

theorem test_hyp_internal :
    (PassesUp cmdMonitorSet [0xFF, 6, 0, 0xFF] ∧ arg (rq cmdMonitorSet [0xFF, 6, 0, 0xFF]) 0 1 = 0xFF ∧ arg (rq cmdMonitorSet [0xFF, 6, 0, 0xFF]) 2 1 ≠ 1 ∧
      arg (rq cmdMonitorSet [0xFF, 6, 0, 0xFF]) 2 1 ≠ 2) ∧
    (let p := [0xFF, 6, 2, 0xFF]; let q := rq cmdMonitorSet p; let r := own cmdMonitorSet p upSess
     PassesAt cmdMonitorSet p upSess ∧ arg q 2 1 = 2 ∧ arg q 1 1 = 6 ∧ arg q 3 1 = 0xFF ∧ arg q 4 2 = 0 ∧ arg q 6 2 = 0 ∧ inSession q r = true ∧ r.power.brownout = none ∧
      logFull r = false) ∧
    arg (rq cmdMonitorSet [0xFF, 6, 1, 0xFF]) 2 1 = 1 := by
  repeat' apply And.intro
  all_goals decide +kernel

theorem test_hyp_unlocking :
    (let p := accessParcel .np 2 5 4 portLA 1; let x := accessOf p 9 0; let d := takeMgmt 9 p (at0 up)
     port9Serves (at0 up) = true ∧ pKind p = 2 ∧ pCls p = .np ∧ tagCheck d x.asker = 0 ∧ writeFormed p x = true ∧ x.lock = true ∧
      (decodeWindow d x.asker.src x.address x.count).map (fun w => (winFlag w 59, fitsWindow w x, winFlag w 58, targetOf (winBase w))) = some (false, true, true, some 3) ∧
      gateOn (at0 up) 22 = true ∧ gateOn (at0 up) 23 = true ∧ (at0 up).portL.fenced = false ∧ hasSequence (at0 up) x.asker.src = false) ∧
    (let a := at0 (waitingL (plReq false true 0) none)
     portLRuns a = true ∧ a.portL.recoverDue = false ∧ nextReq a = some (plReq false true 0) ∧ plReq false true 0 ∈ a.portL.waiting ∧
      a.portL.lock.map (·.src) ≠ some (plReq false true 0).asker.src) := by
  repeat' apply And.intro
  all_goals decide +kernel

/-! ## Signatures, made outside Lean with the curve's arithmetic in Python -/

/-- A device in SECURED with a debug key of its own. -/
def keyed : State :=
  { debugAt 0 with otp := { up.otp with secured := 0xFF#8, dbgKey := 0xeae726e5499e2220c659759b232b5f87d94a6dd0e35d33c752d4433c46ab023b80209926519ab31565ca82bac85ef7b1#384 } }

/-- The signature of its token for level 1, key 0 and nonce 0. -/
def tokenSig : List Byte := let r := beBytes 48 0xb100604f09aff8bb0770be0126e106537f4d6daa20f8f54d01b435e2b6158459341bc08998f340c69bd0c1956a4b924f; r ++ r

theorem test_hyp_token :
    lifecycle (at0 keyed).otp ≠ 0 ∧ (at0 keyed).dbg.nonce = some 0#256 ∧ PassesAt cmdDebugOpen ([1, 0, 0, 0] ++ tokenSig.map (·.toNat)) keyed ∧
    tokenOk (own cmdDebugOpen [1, 0] keyed) 0#256 1 0 tokenSig = true := by
  repeat' apply And.intro
  all_goals decide +kernel

/-- Firmware keys of which the first is known. -/
def fwOtp : Otp := { fwKey := Vector.replicate 2 0xff581a9b237da7d63f9d5d98ed5eac96a01eecbdbc9300e0bb9d40f39240c611aae3e4b349f9c98d9f87ba0a2c0331ef#384 }

/-- An image of no body: its header, 256 bytes with a last byte of 1, and its signature. -/
def tinyImage : List Byte :=
  leBytes 4 0x4C594E46 ++ leBytes 2 1 ++ leBytes 2 0x7232 ++ List.replicate 247 0#8 ++ [1#8] ++ (let r := beBytes 48 0xa2e8ccd85653b04dc3003275b05cbd24cc5e29eed589838b551a9bd8a4808361448bdf7a314110ce788c184c2e0e882e; r ++ r)

theorem test_image_signed : imageSigned fwOtp tinyImage = true := by decide +kernel

/-- The image received whole, on a device with that key and so many anti-rollback fuses blown. -/
def receivedUp (fuses : BitVec 64) : State :=
  waitFor 0xC02 { updating { state := .receiving, target := 1, length := 352, bytes := (List.range 352).zip tinyImage } with otp := { fwOtp with antiRollback := fuses } }

/-- It is whole and signed; with no fuse blown it is authentic, and with all blown it is not. -/
theorem test_hyp_image :
    image (late (receivedUp 0#64)).upd = tinyImage ∧ wholeImage (late (receivedUp 0#64)).upd = true ∧ (late (receivedUp 0#64)).otp = fwOtp ∧ authentic fwOtp tinyImage = true ∧
    (∀ a : BitVec 64, imageSigned { fwOtp with antiRollback := a } tinyImage = true) ∧ authentic { fwOtp with antiRollback := BitVec.allOnes 64 } tinyImage = false := by
  have h : ∀ a : BitVec 64, imageSigned { fwOtp with antiRollback := a } tinyImage = true := fun a => by
    rw [← test_image_signed]; simp only [imageSigned]
  refine ⟨by decide +kernel, by decide +kernel, by decide +kernel, ?_, h, ?_⟩
  · rw [authentic, test_image_signed]; decide +kernel
  · rw [authentic, h]; decide +kernel

/-! ## Further clauses of the statements, each at a state that meets it -/

/-- A request that is staged. -/
def stg (c : Cmd) (p : List Nat) : Req := { rq c p with stage := true }

/-- What a reply is: the status of one that is done, none of one that waits. -/
def doneWith : Reply → Option Nat
  | .done st _ _ => some st
  | .wait _ _ => none

/-- `gallery.provision` staged with a good value, a bad one, and with 64 changes held. -/
def staged64 : State := { up with mbx := { up.mbx with staged := List.replicate 64 ⟨7#32, 0x201, rq cmdProvision [0, 1]⟩ } }

theorem test_hyp_run_or_staged :
    mailboxRows.length = 98 ∧ doneWith (cmdStatus.body (rq cmdStatus []) (own cmdStatus [] up)) = some 0 ∧
    (PassesUp cmdStateSet [2] ∧ doneWith (cmdStateSet.body (rq cmdStateSet [2]) (own cmdStateSet [2] up)) = none) ∧
    (let q := stg cmdProvision [0, 1]; let r := ready cmdProvision 0 q up
     Fresh 0 q up ∧ leaseStep cmdProvision q r = 0 ∧ shapeStep cmdProvision q = 0 ∧ (r.mbx.staged.filter fun x => x.token == q.token).length < 64 ∧ (cmdProvision.body q r).status = 0) ∧
    (let q := stg cmdProvision [0, 2]; let r := ready cmdProvision 0 q up
     Fresh 0 q up ∧ leaseStep cmdProvision q r = 0 ∧ shapeStep cmdProvision q = 0 ∧ (cmdProvision.body q r).status ≠ 0) ∧
    (let q := stg cmdProvision [0, 1]; let r := ready cmdProvision 0 q staged64
     Fresh 0 q staged64 ∧ leaseStep cmdProvision q r = 0 ∧ 64 ≤ (r.mbx.staged.filter fun x => x.token == q.token).length) := by
  repeat' apply And.intro
  all_goals decide +kernel

/-- The row of `gallery.provision` is one of the list. -/
theorem test_hyp_mailbox_row : (Instr.galleryProvision, cmdProvision) ∈ mailboxRows := by
  unfold mailboxRows; simp

/-- A gallery whose transmit direction alone re-steps. -/
def resteppedTx : State := withTx fun x => { x with ts := .qualify }

theorem test_hyp_gallery_more :
    (PassesUp cmdTxSet [0, 0xFF, 0, 0, 0, 0, 0, 0, 10, 0xFF] ∧ txArgs (rq cmdTxSet [0, 0xFF, 0, 0, 0, 0, 0, 0, 10, 0xFF]) = true ∧
      arg (rq cmdTxSet [0, 0xFF, 0, 0, 0, 0, 0, 0, 10, 0xFF]) 1 1 = 0xFF) ∧
    (PassesUp cmdIdle [0, 0xFF, 1] ∧ maskOk (galAt (own cmdIdle [0, 0xFF, 1] up) 0) 0xFF#8 true = true) ∧
    (Passes cmdGalReset 0 (linkReq cmdGalReset [0, 1]) linked ∧ pathGal (linkReq cmdGalReset [0, 1]) = some (0 : GalIx).val ∧ bitOf (arg (linkReq cmdGalReset [0, 1]) 1 1) 0 = true) ∧
    ((galSet up 0).prov = true ∧ up.clocks.sides[sideOf 0].waiting = false) ∧
    (let p := [0, 1, 1, 5]; let r := own cmdRetrain p resteppedTx
     PassesAt cmdRetrain p resteppedTx ∧ arg (rq cmdRetrain p) 1 1 = 1 ∧ arg (rq cmdRetrain p) 2 1 = 1 ∧ (galAt r 0).tx.ts ≠ .active ∧ (galAt r 0).held = false) ∧
    (let p := [0, 0, 0, 0]; PassesAt cmdRetrain p (withGal fun G => { G with off := true }) ∧ (galAt (own cmdRetrain p (withGal fun G => { G with off := true })) 0).off = true ∧
      (galAt (own cmdRetrain p (withGal fun G => { G with lost := some 1 })) 0).lost.isSome = true ∧ (galAt (own cmdRetrain p (withGal fun G => { G with held := true })) 0).held = true) := by
  repeat' apply And.intro
  all_goals decide +kernel

theorem test_hyp_cutter_more :
    (PassesUp cmdModeSet [0] ∧ cutModeOf (arg (rq cmdModeSet [0]) 0 1) = (own cmdModeSet [0] up).live.cutMode) ∧
    (PassesUp cmdRun [] ∧ mayRun (own cmdRun [] up) = false ∧ gateOn (own cmdRun [] up) 17 = true) ∧
    (let p := [0xFF, 0x0F, 1, 2, 0x8F, 3, 15, 1]; let s := cutting .automatic
     PassesAt cmdCutRegionSet p s ∧ regionSetOk (rq cmdCutRegionSet p) = true ∧ (own cmdCutRegionSet p s).live.cutMode = .automatic ∧
      regionSetOf (rq cmdCutRegionSet p) ≠ mget {} (own cmdCutRegionSet p s).live.regions 4095) ∧
    (let p := [0xFF, 0x0F, 1, 2, 0x8F, 3, 15, 1]; let s := modLive (fun v => { v with regions := mset {} v.regions 4095 (regionSetOf (rq cmdCutRegionSet p)) }) (cutting .automatic)
     PassesAt cmdCutRegionSet p s ∧ regionSetOf (rq cmdCutRegionSet p) = mget {} (own cmdCutRegionSet p s).live.regions (arg (rq cmdCutRegionSet p) 0 2 % 4096)) ∧
    (let p := [5, 0, 0xFF, 0xFF, 0xFF, 0xFF]; let r := own cmdSafeAlloc p up
     PassesUp cmdSafeAlloc p ∧ arg (rq cmdSafeAlloc p) 2 2 ≠ 0 ∧ bestFit (heldMask r ||| newMask r) (ceilDiv (arg (rq cmdSafeAlloc p) 2 2 * arg (rq cmdSafeAlloc p) 4 2 * 6) 65536) = none) ∧
    (∀ e ∈ stagedState.mbx.staged.take 1, recheck (own cmdLeaseCommit [] stagedState) e = 0) := by
  repeat' apply And.intro
  all_goals decide +kernel

/-- A trip of the Hall holds the device. -/
def tripped : State := modSafety (fun f => { f with hallTrip := true }) up

theorem test_hyp_orders :
    (PassesAt cmdOrder [1, 2, 0, 0] withPw ∧ orderArgs (rq cmdOrder [1, 2, 0, 0]) = true ∧ (own cmdOrder [1, 2, 0, 0] withPw).safety.record.pwHash.isSome = true) ∧
    (PassesUp cmdOrder [1, 1, 15, 0] ∧ orderArgs (rq cmdOrder [1, 1, 15, 0]) = true ∧ (own cmdOrder [1, 1, 15, 0] up).safety.record.pwHash = none) ∧
    (PassesUp cmdOrder [2, 2, 0, 0] ∧ orderArgs (rq cmdOrder [2, 2, 0, 0]) = true ∧ faultPersists (own cmdOrder [2, 2, 0, 0] up) = false ∧ logFull (own cmdOrder [2, 2, 0, 0] up) = false) ∧
    (PassesAt cmdOrder [2, 2, 0, 0] tripped ∧ arg (rq cmdOrder [2, 2, 0, 0]) 1 1 = 2 ∧ faultPersists (own cmdOrder [2, 2, 0, 0] tripped) = true) ∧
    (let p := 8 :: List.replicate 35 0 ++ [2]
     PassesUp cmdSafetyRelease p ∧ arg (rq cmdSafetyRelease p) 36 1 ≤ 2 ∧ (own cmdSafetyRelease p up).safety.record.pwHash = none) := by
  repeat' apply And.intro
  all_goals decide +kernel

/-- The service host's request in a bridge that is gated, or a device in which port L is. -/
def gatedUp (u : Nat) : State := modClocks (fun c => { c with gateOn := c.gateOn &&& ~~~(1#24 <<< u) }) up

/-- A remote read of node 9, to which no entry leads. -/
def farBytes9 : List Nat := [9, 0, 1, 0, 5, 0, 0, 0, 0, 0, 1, 0, 0, 0, 4, 0]

theorem test_hyp_bridge_more :
    (let p := [0, 0, 0, 0] ++ [0, 0, 0, 0, 0, 0, 0x2C, 0x40]
     PassesUp cmdWindowSet p ∧ arg (rq cmdWindowSet p) 0 1 = 0 ∧ windowOk (windowOf (rq cmdWindowSet p)) = true ∧
      noFilter (windowOf (rq cmdWindowSet p)) = noFilter (own cmdWindowSet p up).live.windows[0]) ∧
    (PassesUp cmdTwConfig [1, 2, 8, 0] ∧ (own cmdTwConfig [1, 2, 8, 0] up).portL.lock = none) ∧
    (PassesAt cmdTwlRecover [] (gatedUp 23) ∧ gateOn (own cmdTwlRecover [] (gatedUp 23)) 23 = false) ∧
    (let s := modPortL (fun p => { p with lock := some heldLock }) up
     PassesAt cmdTwlRecover [] s ∧ gateOn (own cmdTwlRecover [] s) 23 = true ∧ (own cmdTwlRecover [] s).portL.lock.isSome = true) ∧
    (let r := own cmdRemote farBytes9 up; let r' := modLive (fun v => { v with remoteTimeout := 5 }) r
     PassesUp cmdRemote farBytes9 ∧ remoteArgs (rq cmdRemote farBytes9) = true ∧ arg (rq cmdRemote farBytes9) 4 4 = 5 ∧ (sendOwn (remoteParcel (rq cmdRemote farBytes9) r') r').2 = false) := by
  repeat' apply And.intro
  all_goals decide +kernel

theorem test_hyp_power_diag_more :
    (let s := updating { state := .receiving }; PassesAt cmdStateSet [2] s ∧ mayEnter (own cmdStateSet [2] s) = false) ∧
    (let p := [0, 0xFF, 3, 1]; let r := own cmdLoopSet p up
     PassesUp cmdLoopSet p ∧ lanesNamed (rq cmdLoopSet p) = some allLanes ∧ (galAt r 0).lost = none ∧ bitOf (arg (rq cmdLoopSet p) 3 1) 0 = true ∧ galActive r 0 = true) ∧
    (let p := [0, 7, 3, 0]; PassesUp cmdLoopSet p ∧ lanesNamed (rq cmdLoopSet p) = some [7] ∧ bitOf (arg (rq cmdLoopSet p) 3 1) 0 = false) ∧
    (let p := [0, 7, 3, 7, 5]; PassesUp cmdPrbsSet p ∧ (galAt (own cmdPrbsSet p up) 0).lost = none ∧ suits 7 5 = true) ∧
    (PassesUp cmdEyeScan [0, 0, 2, 1] ∧ 4 ≤ ((galAt (own cmdEyeScan [0, 0, 2, 1] up) 0).rx.tread.getD 0).val ∧ laneLocked (laneAt (own cmdEyeScan [0, 0, 2, 1] up) 0 0) = false) ∧
    (let s := modLog (fun f => { f with stream := some ⟨.link, 0#16, 0, 0⟩ }) up
     PassesAt cmdLogStream [2] s ∧ (own cmdLogStream [2] s).log.stream = some ⟨.link, 0#16, 0, 0⟩ ∧ holderOf .link 0#16 ≠ holderOf .service 0#16) := by
  repeat' apply And.intro
  all_goals decide +kernel

/-- An update in a brown-out, with so many chunks kept. -/
def brownUpd (n : Nat) : State :=
  modPower (fun p => { p with brownout := some 0 }) (updating { state := .receiving, target := 1, length := 64, chunks := List.replicate n (0, [1#8]) })

/-- A secured device with a nonce drawn. -/
def noncedUp : State := { modDbg (fun d => { d with nonce := some 0#256 }) up with otp := { up.otp with secured := 0xFF#8 } }

theorem test_hyp_update_security_more :
    (PassesAt cmdUpdBegin [4] (brownUpd 0) ∧ (own cmdUpdBegin [4] (brownUpd 0)).power.brownout.isSome = true) ∧
    (let p := [0, 0, 0, 0, 1, 2, 3, 4]
     PassesAt cmdUpdChunk p (brownUpd 3) ∧ (own cmdUpdChunk p (brownUpd 3)).power.brownout.isSome = true ∧ (own cmdUpdChunk p (brownUpd 3)).upd.chunks.length < 4 ∧
      PassesAt cmdUpdChunk p (brownUpd 4) ∧ 4 ≤ (own cmdUpdChunk p (brownUpd 4)).upd.chunks.length ∧ committing (own cmdUpdChunk p (brownUpd 4)) = false) ∧
    (let p := [1, 1]; let r := own cmdDebugOpen p noncedUp
     PassesAt cmdDebugOpen p noncedUp ∧ lifecycle r.otp ≠ 0 ∧ r.dbg.nonce = some 0#256 ∧ tokenOk r 0#256 1 1 (slice (rq cmdDebugOpen p).payload 4 96) = false) ∧
    (PassesUp cmdLifecycle [2] ∧ arg (rq cmdLifecycle [2]) 0 1 = 2 ∧ beNat (slice (rq cmdLifecycle [2]).payload 4 48) = 0 ∧ lifecycle (own cmdLifecycle [2] up).otp ≠ 2) ∧
    (PassesUp cmdFreezeArm [0] ∧ arg (rq cmdFreezeArm [0]) 0 1 = 0) ∧
    (let s : State := { up with diag := { up.diag with snapHost := some (hostCode .service - 1) } }
     PassesAt cmdSnapRead [255, 0] s ∧ (own cmdSnapRead [255, 0] s).diag.snapHost = some (hostCode .service - 1)) := by
  repeat' apply And.intro
  all_goals decide +kernel

/-- A hop-control block, an idle one and a marker in plain bits, as a lane with no history takes them. -/
def plain (b : Block) : Block := (scrambleBlk 0#58 b).2

/-- What a lane without history reads from a block. -/
def readOf (b : Block) : BlkKind := blkKind (descrambleBlk 0#58 b).2

/-- Lane 0 in block lock, with so many of the last 64 headers invalid. -/
def blocked (f : Lane → Lane) : State := bare fun L => f { L with block := .locked }

theorem test_hyp_blocks_more :
    (let a := at0 (blocked id)
     (laneAt a 0 0).block = .locked ∧ (laneAt a 0 0).mkLock = false ∧ readOf (plain (encodeHop (.probe 7#8))) = .hop (some (.probe 7#8)) ∧
      (∀ h, readOf (plain idleBlk) ≠ .hop (some h)) ∧ blkHdr (plain idleBlk) = ctlHdr) ∧
    (let a := at0 (blocked fun L => { L with mkLock := true }); (laneAt a 0 0).mkLock = true ∧ (laneAt a 0 0).rxSlot = 0) ∧
    readOf (plain (encodeHop (.marker 5#10 6#6 7#16))) = .hop (some (.marker 5#10 6#6 7#16)) ∧
    (let s := fun (bad : Bool) => blocked fun L => { L with mkLock := true, rxSlot := 1023, badPeriod := bad }
     (laneAt (at0 (s true)) 0 0).rxSlot ≠ 0 ∧ (laneAt (at0 (s true)) 0 0).badPeriod = true ∧ (laneAt (at0 (s false)) 0 0).badPeriod = false) ∧
    (let h := ((0x7FFF#64 <<< 1) ||| BitVec.ofNat 64 (b2n true)); 16 ≤ ((List.range 64).filter fun k => h.getLsbD k).length ∧
      ((List.range 64).filter fun k => (0x7FFF#64 <<< 1).getLsbD k).length < 16) := by
  refine ⟨⟨?_, ?_, ?_, ?_, ?_⟩, ⟨?_, ?_⟩, ?_, ⟨?_, ?_, ?_⟩, ?_, ?_⟩
  case refine_4 =>
    intro h
    have : readOf (plain idleBlk) = .idle := by decide +kernel
    rw [this]; simp
  all_goals decide +kernel

theorem test_hyp_codewords_more :
    (let s := withLane fun L => { L with cw := .candidate 2 }; (laneAt (at0 s) 0 0).cw = .candidate 2 ∧ markerOk 0#5440 = false) ∧
    (let s := fun (n : Nat) (held : Bool) => withLane fun L => { L with cw := .locked, mkMiss := n, withheld := if held then some (0#5440, []) else none }
     (laneAt (at0 (s 3 true)) 0 0).mkMiss = 3 ∧ (laneAt (at0 (s 2 false)) 0 0).mkMiss < 3 ∧ (laneAt (at0 (s 2 false)) 0 0).withheld = none ∧
      (laneAt (at0 (s 2 true)) 0 0).withheld = some (0#5440, [])) := by
  repeat' apply And.intro
  all_goals decide +kernel

/-- Lane 0 without FEC in marker lock, expecting period 1,023. -/
def marked (f : Lane → Lane) : State := blocked fun L => f { L with mkLock := true, expectSeq := some 1023 }

theorem test_hyp_markers_more :
    ((laneAt (at0 (bare id)) 0 0).block = .hunt ∧ (laneAt (at0 (bare id)) 0 0).mkLock = false) ∧
    (let a := at0 (marked id); (laneAt a 0 0).mkLock = true ∧ (laneAt a 0 0).startSeq = none ∧ (laneAt a 0 0).expectSeq.getD 0 = (1023#10).toNat ∧
      (laneAt a 0 0).expectSeq.getD 0 ≠ (0#10).toNat ∧ (laneAt a 0 0).seqErr = 0) ∧
    (laneAt (at0 (marked fun L => { L with seqErr := 1 })) 0 0).seqErr ≠ 0 ∧
    (laneAt (at0 (marked fun L => { L with startSeq := some 9 })) 0 0).startSeq = some (9#10).toNat ∧
    (let s := modRx 0 (fun r => { r with pass := 1#8 }) (training .report)
     hopRuns (at0 s) 0 = true ∧ (galAt (at0 s) 0).rx.ts = .report ∧ (galAt (at0 s) 0).rx.pass.getLsbD (posOf (galAt (at0 s) 0) 0) = true ∧
      (galAt (at0 s) 0).rx.pass.getLsbD (posOf (galAt (at0 s) 0) 1) = false) ∧
    (setAt (galAt (at0 (withRx fun r => { r with active := 0xFE#8 })) 0).rx 0).getLsbD 0 = false := by
  repeat' apply And.intro
  all_goals decide +kernel

/-- The transmit direction of N0 in the preamble of its clock lane since time 0, lane 0 to wake. -/
def preambling : State := modTx 0 (fun x => { x with preamble := true, preambleAt := 0 }) (withLane fun L => { L with txIdle := true, txWaking := some 0 })

/-- The block of a tack burst that names period 9 with n blocks to come. -/
def tackOf9 (n : BitVec 8) : Block := plain (tackBlk 0#3 9#10 n)

/-- Lane 0 in a burst. -/
def tacking (T : TackState) : State := withLane fun L => { L with failed := true, tack := T }

theorem test_hyp_wake_more :
    (let s := withRx fun r => { r with ts := .align, clkStopped := true }; hopRuns (at0 s) 0 = true ∧ (galAt (at0 s) 0).rx.ts ≠ .clock ∧ (galAt (at0 s) 0).rx.clkStopped = true) ∧
    ((galAt (at0 (training .guarding)) 0).rx.ts = .guarding ∧ (galAt (at0 (training .detect)) 0).rx.ts = .detect ∧ (galAt (at0 (training .backoff)) 0).rx.ts = .backoff ∧
      (galAt (at0 (training .align)) 0).rx.ts ≠ .active ∧ (galAt (at0 (training .align)) 0).rx.clkStopped = false) ∧
    ((galAt (at0 preambling) 0).tx.preamble = true ∧ (galAt (late preambling) 0).tx.preambleAt + 1000 ≤ (late preambling).now ∧
      (at0 preambling).now < (galAt (at0 preambling) 0).tx.preambleAt + 1000) ∧
    (let s := withLane fun L => { L with failed := true }; let G := galAt (at0 s) 0
     (laneAt (at0 s) 0 (physOf G 0)).failed = true ∧ (G.rx.held || !keyGe ((0#10).toNat, 0) (G.rx.walkSeq, 0) || G.rx.jumps.any fun j => !keyGe ((0#10).toNat, 0) (j.restart, 0)) = false) ∧
    (let G := galAt (at0 (modRx 0 (fun r => { r with held := true }) (withLane fun L => { L with failed := true }))) 0; G.rx.held = true) ∧
    (laneAt (at0 (withLane fun L => { L with rxIdle := true })) 0 (physOf (galAt (at0 up) 0) 0)).rxIdle = true ∧
    (let s := withTx fun x => { x with emptyAt := some 0, selfWoken := true }; (at0 s).now < 0 + 10000 ∧ (galAt (at0 s) 0).tx.emptyAt = some 0) ∧
    (tackOf (descrambleBlk (laneAt (at0 (tacking {})) 0 0).scram (tackOf9 127#8)).2 = some (9, 127) ∧ (laneAt (at0 (tacking {})) 0 0).tack.rejoinSeq = none ∧
      (laneAt (at0 (tacking {})) 0 0).inverted = false) ∧
    (let T := (laneAt (at0 (tacking { running := true, rejoinSeq := some 9, remaining := 65, seen := 63, good := 31 })) 0 0).tack
     T.rejoinSeq.getD 9 = 9 ∧ 64 + 1 = T.remaining ∧ T.seen + 1 > 32 ∧ T.good + 1 = 32 ∧ T.confirmed = false ∧ (62 : Nat) + 1 ≠ T.remaining) ∧
    tackOf (descrambleBlk 0#58 (plain idleBlk)).2 = none ∧
    (let L := laneAt (at0 (tacking { running := true })) 0 0; L.tack.running = true ∧ L.tack.confirmed = false ∧ L.failed = true) ∧
    (let L := laneAt (at0 (withLane fun L => { L with rxIdle := true, tack := { running := true } })) 0 0; L.tack.running = true ∧ L.tack.confirmed = false ∧ L.failed = false) := by
  repeat' apply And.intro
  all_goals decide +kernel

/-- Gallery N0 in a training that came by a re-step. -/
def restepping (ts : TrainState) : State := modTx 0 (fun x => { x with goal := some 4 }) (training ts)

theorem test_hyp_training_more :
    ((galAt (at0 (training .detect)) 0).tx.started = true ∧ popcount 0x01#8 < 2) ∧
    ((galAt (at0 (training .align)) 0).rx.ts = .align ∧ (galAt (at0 up) 0).rx.ts = .active ∧ (galAt (at0 up) 0).tx.ts = .active) ∧
    (∀ ts ∈ [TrainState.equalise, .align, .clock], (stateMax ts 5).isSome = true ∧ hopRuns (late (restepping ts)) 0 = true ∧ fromDetect (galAt (late (restepping ts)) 0) = false ∧
      (galAt (late (restepping ts)) 0).tx.ts = ts ∧ (galAt (late (restepping ts)) 0).tx.at_ + (stateMax ts 5).getD 0 ≤ (late (restepping ts)).now) ∧
    (stateMax .settled 5 = none ∧ (galAt (at0 (training .settled)) 0).rx.ts = .settled) ∧ (galAt (at0 up) 0).backoffUntil = none ∧
    (let s := withGal fun G => { G with farCap := some ⟨0#3, 1#1, 0#2, 1#2, 5#3, 5#3, 0#1, 1#1, 0xFF#8, 1#4, 2#4⟩, farLanding := none }; (galAt (at0 s) 0).rx.ts = .active ∧ (galAt (at0 s) 0).farCap.isSome = true ∧ (galAt (at0 s) 0).farLanding = none) ∧
    (let s := modTx 0 (fun x => { x with mode := .back }) (training .align); (galAt (at0 s) 0).tx.ts = .align ∧ (galAt (at0 s) 0).tx.mode = .back) ∧
    ((galAt (at0 (training .align)) 0).tx.mode ≠ .back ∧ (laneAt (at0 (training .align)) 0 (laneOf 7)).reqCount ≠ (31#5).toNat ∧
      ((galAt (at0 (training .align)) 0).setTx.lanes[laneOf 7]).coef = none) ∧
    (let s := modGal 0 (fun G => { G with setTx := { G.setTx with lanes := Vector.replicate 8 { coef := some (preset 3) } } }) (training .equalise)
     ((galAt (at0 s) 0).setTx.lanes[laneOf 0]).coef = some (preset 3)) ∧
    (let s := fun (x : EqSearch) => modLane 0 0 (fun L => { L with search := x }) (training .equalise)
     (0#5).toNat = (laneAt (at0 (s (.last 5 6))) 0 0).eqCount ∧ (laneAt (at0 (s (.last 5 6))) 0 0).search = .last 5 6 ∧ (laneAt (at0 (s .saved)) 0 0).search = .saved ∧
      (laneAt (at0 (s (.adapt 1 5 6))) 0 0).search = .adapt 1 5 6 ∧ equalising (galAt (at0 (s (.adapt 2 5 6))) 0) 0 = true ∧ (1#5).toNat ≠ (laneAt (at0 (s .saved)) 0 0).eqCount) ∧
    equalising (galAt (at0 up) 0) 0 = false := by
  repeat' apply And.intro
  all_goals decide +kernel

/-- Gallery N0 in step 3 of an attempt on lane 0. -/
def step3 : State := withRx fun r => { r with attempt := { pos := 0, step := 3, at_ := 0 } }

theorem test_hyp_qualify_more :
    (let s := modRx 0 (fun r => { r with countdown := 5 }) (training .qualify); (galAt (at0 s) 0).rx.countdown ≠ 0 ∧ (galAt (at0 s) 0).rx.prbsOn = false) ∧
    (let s := modRx 0 (fun r => { r with prbsOn := true }) (training .qualify); (galAt (at0 s) 0).rx.prbsOn = true) ∧
    (hopRuns (at0 step3) 0 = true ∧ (galAt (at0 step3) 0).rx.ts = .active ∧ (galAt (at0 step3) 0).rx.attempt.step = 3) ∧
    ((galAt (at0 (training .qualify)) 0).tx.prbsUntil = none ∧ (galAt (at0 (training .qualify)) 0).tx.ts = .qualify) ∧
    (let s := withTx fun x => { x with laneQual := some (7, 256) }; (galAt (at0 s) 0).tx.laneQual = some (7, 256) ∧ (galAt (at0 s) 0).tx.prbsUntil = none) ∧
    (qualPasses 5 true ⟨true, 0, 64, 255⟩ = true ∧ qualPasses 5 true ⟨false, 0, 64, 255⟩ = false) ∧
    (let x := (galAt (at0 (training .qualify)) 0).tx
     decide138 4 0 .up none x.target 2 none false 8 = .goTo 5 0#2 .up ∧ decide138 4 0 .up none x.target 2 (some (3, 8)) false 1 = .goTo 3 1#2 .back ∧
      decide138 4 0 .down none x.target 2 none false 1 = .goTo 3 3#2 .down) := by
  repeat' apply And.intro
  all_goals decide +kernel

theorem test_hyp_steps_more :
    (let s := modRx 0 (fun r => { r with stepTo := some (stepOf 0#2) }) (training .switching); (galAt (at0 s) 0).rx.ts = .switching ∧ (galAt (at0 s) 0).rx.stepTo = some (stepOf 0#2)) ∧
    (let s := withTx fun x => { x with stepTo := some (stepOf 0#2) }; (galAt (at0 s) 0).tx.ts = .active ∧ (galAt (at0 s) 0).tx.stepTo = some (stepOf 0#2)) ∧
    (txReady (galAt (at0 (training .settled)) 0) = true ∧ txReady (galAt (at0 up) 0) = false) ∧
    (let s := modTx 0 (fun x => { x with ts := .settled, goal := some 4, reBoundary := some 7 }) up; txReady (galAt (at0 s) 0) = true ∧ (galAt (at0 s) 0).tx.goal.isSome = true) ∧
    (let r : RetrainBlk := ⟨4#3, 1#1, 1#4, 65535#16⟩
     stepFree (galAt (takeHop 0 (.retrain r) (at0 up)) 0) = true ∧ stepFree (galAt (takeHop 0 (.retrain r) (at0 (withTx fun x => { x with stepTo := some (stepOf 0#2) }))) 0) = false) ∧
    ((galAt (late up) 0).rx.winAt + 100000000 ≤ (late up).now ∧ (at0 up).now < (galAt (at0 up) 0).rx.winAt + 100000000 ∧
      (galAt (late (withRx fun r => { r with winErr := 1 })) 0).rx.winErr * 100000 > 24 * 0) ∧
    (let s := withRx fun r => { r with quietSince := some 0 }; (galAt (late s) 0).rx.steppedDown = false ∧ (galAt (late s) 0).rx.quietSince = some 0) := by
  repeat' apply And.intro
  all_goals decide +kernel

theorem test_hyp_darning_more :
    (galAt (at0 (withTx fun x => { x with ts := .guarding })) 0).tx.ts = .guarding ∧
    (let G := galAt (at0 (modRx 0 (fun r => { r with rejoin := some (0, 9) }) (darned 0))) 0; G.rx.rejoin ≠ none) ∧
    (∀ k ∈ [1, 2, 3], (at0 (darned k)).now < (galAt (at0 (darned k)) 0).rx.attempt.at_ + 100000) ∧
    (let s := modTx 0 (fun x => { x with active := 0xFE#8 }) (withLane fun L => { L with txFailed := true })
     (txSet (galAt (at0 s) 0).tx ||| (galAt (at0 s) 0).tx.active).getLsbD 0 = false ∧ (txSet (galAt (at0 s) 0).tx ||| (galAt (at0 s) 0).tx.active).getLsbD 7 = true) ∧
    (laneAt (at0 (withLane fun L => { L with retiredTx := true })) 0 (laneOf 0)).retiredTx = true ∧
    (let G := galAt (at0 (darned 0)) 0; (laneAt (at0 (darned 0)) 0 (physOf G 0)).retired = false ∧ G.rx.held = false ∧ G.rx.rejoin = none) := by
  repeat' apply And.intro
  all_goals decide +kernel


theorem test_hyp_credits_more :
    (takesHops (galAt (at0 up) 0).rx.ts = true ∧ modSub 4096 2047 (cget (galAt (at0 up) 0).ctx.limit .px) < 2048 ∧ ¬ modSub 4096 2048 (cget (galAt (at0 up) 0).ctx.limit .px) < 2048) ∧
    ((galAt (at0 up) 0).ctx.probeAt = none ∧ keyGe ((galAt (at0 up) 0).rx.walkSeq, 0) (hopPeriod (galAt (at0 up) 0).rx (.sentA 5#20 6#20), 0) = true) ∧
    (let s := withRx fun r => { r with hopIn := [(0, 1, .sentA 5#20 6#20), (0, 1, .sentB 5#20 6#20)] }; let r := (galAt (at0 s) 0).rx
     keyGe (r.walkSeq, 0) (hopPeriod r (.sentA 5#20 6#20), 0) = false ∧ keyGe (r.walkSeq, 0) (hopPeriod r (.sentB 5#20 6#20), 0) = false) ∧
    (let s := withGal fun G => { G with crx := { G.crx with advancedA := some 0, advancedB := some 0 } }; 0 + 1000 ≤ (late s).now ∧ (galAt (late s) 0).crx.advancedB = some 0) ∧
    (galAt (at0 resteppedTx) 0).tx.ts ≠ .active := by
  repeat' apply And.intro
  all_goals decide +kernel

theorem test_hyp_placement_more :
    (active (at0 (gatedUp 17)) = true ∧ gateOn (at0 (gatedUp 17)) 17 = false) ∧ (faultParcel true).payload.length = 16 ∧
    (let p := recParcel 7 (List.replicate 8 0); p.payload.length ≠ 16 ∧ pKind p = 0x07) ∧
    (monAt (at0 up) 5 4).faults = [] ∧
    (let a := at0 up; mget? (pendPlane a) 5 = none ∧ mget? (regionIn a 5).ann 0 = none ∧ a.cutter.running = none ∧ mget? a.cutter.selCutAt 5 = none) ∧
    (let s := { running false with cutter := { (running false).cutter with tableLost := true } }; (at0 s).cutter.tableLost = true ∧ (at0 s).cutter.running.isSome = true) ∧
    (let a := at0 (placedUp []); elapsed a.now 1000000000 (galAt a 4).annAt = true ∧ elapsed a.now 1000000000 a.cutter.claimAt = true) ∧
    (let s := modGal 4 (fun G => { G with annAt := some 0 }) (placedUp []); let u := { s with cutter := { s.cutter with claimAt := some 0 } }
     elapsed (at0 u).now 1000000000 (galAt (at0 u) 4).annAt = false ∧ elapsed (at0 u).now 1000000000 (at0 u).cutter.claimAt = false ∧
      elapsed (late u).now 1000000000 (galAt (late u) 4).annAt = true) := by
  repeat' apply And.intro
  all_goals decide +kernel

/-- Gallery N0 with a PX parcel that broke off. -/
def brokeOff : State := modRx 0 (fun r => { r with arrived := [.broken pxParcel] }) roomy

/-- A gap of region 5 that names lines 1 and 2. -/
def gap5 : Gap := ⟨5#12, 0#4, 1#16, 2#16⟩

theorem test_hyp_stream_more :
    (rxRuns (at0 brokeOff) 0 = true ∧ RxItem.broken pxParcel ∈ (galAt (strike none (at0 brokeOff)) 0).rx.arrived ∧
      RxItem.broken pxParcel ∉ (galAt (strike none (at0 roomy)) 0).rx.arrived) ∧
    (crcOk { pxParcel with crc := 0#32 } = false ∧ { pxParcel with crc := 0#32 }.poisoned = false) ∧
    (wayOf 0 5 (takeItem 0 (.gap gap5) (at0 up))).1 = .go [4] [] true ∧
    (wayOf 0 5 (takeItem 0 (.gap gap5) (at0 (modGal 4 (fun G => { G with lost := some 1 }) up)))).1 = .discard ∧
    (let s := modPower (fun p => { p with seqDone := false }) up; inBoot (at0 s) = true) := by
  repeat' apply And.intro
  all_goals decide +kernel

/-- An item that crosses from port 0 to output 4, and one that may next. -/
def xfer (todo : List Nat) (cells : Nat) : HallXfer := { item := queued, cls := .px, cells, outs := [4], todo }

/-- A Hall in which it crosses. -/
def atPort (x : HallXfer) : State := { up with hall := { up.hall with ports := up.hall.ports.set 0 { cur := some x }, grants := up.hall.grants.set 4 (some 0) } }

theorem test_hyp_hall_more :
    (active (at0 up) = true ∧ gateOn (at0 up) 16 = true ∧ galPort (0 : Fin 10).val = some 0 ∧ (presentCell 0 .px (at0 up)).1 = 0 ∧ max (2 : Fin 3).val 0 = 2) ∧
    (at0 { up with hall := { up.hall with lost := true } }).hall.lost = true ∧
    ((atPort (xfer [4] 2)).hall.ports[(0 : Fin 10)].cur = some (xfer [4] 2) ∧ (atPort (xfer [4] 2)).hall.grants[(4 : Fin 10)] = some 0 ∧ 4 ∈ (xfer [4] 2).todo ∧
      (xfer [4] 2).cells ≠ 1 ∧ (xfer [4] 1).cells = 1 ∧ 4 ∉ (xfer [] 2).todo ∧ 2 ≤ (xfer [] 2).cells ∧ (xfer [] 1).cells ≤ 1) ∧
    ((xfer [4] 1).cls = .px ∧ galPort queued.port = some 4 ∧ galPort ({ queued with port := 9 } : QItem).port = none) ∧
    (up.hall.ports[(0 : Fin 10)].cur = none ∧ inputHead up 0 .px = none ∧
      (inputHead (modGal 0 (fun G => { G with bobbin := ⟨[pxItem], [], [], []⟩ }) up) 0 .px).isSome = true) := by
  repeat' apply And.intro
  all_goals decide +kernel

theorem test_hyp_send_more :
    ((galAt (passSlots 0 0 (at0 (training .exchange))) 0).tx.ts = .exchange) ∧
    ((galAt (passSlots 0 0 (at0 (training .align))) 0).tx.ts ≠ .active ∧ (galAt (passSlots 0 0 (at0 (training .align))) 0).rx.ts ≠ .exchange) ∧
    (let s := withTx fun x => { x with active := 0#8 }; stalled (galAt (passSlots 0 0 (at0 s)) 0) = true ∧ creditsRun (at0 s) 0 = true ∧ stalled (galAt (at0 s) 0) = true) ∧
    stalled (galAt (passSlots 0 0 (at0 up)) 0) = false ∧
    ((galAt (late up) 0).ctx.budgetAt + 100000 ≤ (late up).now ∧ (at0 up).now < (galAt (at0 up) 0).ctx.budgetAt + 100000) ∧
    (galPort (7 : Fin 10).val = some 7 ∧ (9 : Fin 10).val = 9 ∧ (8 : Fin 10).val = 8) := by
  repeat' apply And.intro
  all_goals decide +kernel

/-- An entry that was in force for what arrived before item 3. -/
def hadEntry : State := modCorr (fun c => { c with prev := [(5, [{ first := 3, entry := placedEntry }])] }) (engineAt (.parcel pxParcel) up)

/-- A write at an address of the store in its queue, and a commit after it. -/
def queuedWrite (a arrival : Nat) : State := modCorr (fun c => { c with queue := [.write a [1#8] none none arrival, .commit 5 4] }) (withDir { units := 1, cstate := .loaded })

theorem test_hyp_engine_more :
    (prevOf hadEntry 5 2).isSome = true ∧ prevOf hadEntry 5 3 = none ∧ lineGone servedUp 5 0 (entryOf servedUp 5) = false ∧
    lineGone (modCorr (fun c => { c with gapUntilCut := [(5, 8)] }) servedUp) 5 0 (entryOf servedUp 5) = true ∧
    (pipeOf servedUp 5 0 (entryOf servedUp 5) = some 0 ∧ served up 5 (entryOf up 5) = false) ∧
    (firstReady (at0 (queuedWrite 0 3)) [] (at0 (queuedWrite 0 3)).corr.queue = some ([], .write 0 [1#8] none none 3, [.commit 5 4]) ∧ firstReady (at0 up) [] (at0 up).corr.queue = none) ∧
    (let a := at0 (queuedWrite 0 3); markOf a.corr false 5 = some 4 ∧ markOf a.corr true 5 = none ∧ 3 < 4 ∧ commitHit (dirOf a 5) false (0 + 0) = true) ∧
    (let a := at0 (modCorr (fun c => { c with queue := [.commit 5 4] }) (withDir { units := 1, cstate := .loaded }))
     markOf a.corr false 5 = some 4 ∧ comesBefore a 4 (commitHit (dirOf a 5) false) = false) ∧
    ((at0 (withDir { newExt := some ⟨0, 1, false, false⟩ })).corr.storeLost = false ∧ engineOn (at0 up) = true) := by
  repeat' apply And.intro
  all_goals decide +kernel

theorem test_hyp_safety_more :
    ((at0 up).safety.thermal = false ∧ (1300 : Int) ≤ 1300 ∧ (monAt (at0 up) 5 4).freshAt = none ∧ (monAt (at0 up) 5 4).overAt = none ∧ replaced (at0 up) 5 = false) ∧
    (let s := modSafety (fun f => { f with thermalSafe := true, thermalClearAt := some 0 }) (modClocks (fun c => { c with refFailure := true }) up)
     (late s).clocks.refFailure = true ∧ (late s).safety.thermalSafe = true ∧ refBack (late s) = some 0) ∧
    (let s := modSafety (fun f => { f with recWait := [(16, ⟨7, 0, 0, 0, 2, 0#16⟩)] }) (brown false); (at0 s).power.brownout.isSome = true ∧ guarding (at0 s) = true) ∧
    (condPresent (late (armedUp (some 0) false)) 1 0 = false ∧ (late (armedUp (some 0) false)).pins.clrN = false ∧
      0 + 1000000000 ≤ (late (armedUp (some 0) false)).now ∧ (late (armedUp (some 0) false)).safety.armed.map (·.fell) = some (some 0)) ∧
    ((late (armedUp none true)).pins.clrN = true ∧ 0 + 30000000000 < (late (armedUp none true)).now ∧ (at0 (armedUp none true)).now ≤ 0 + 30000000000) ∧
    ((at0 (armedUp none false)).pins.clrN = false ∧ (at0 (armedUp none false)).safety.armed.map (·.fell) = some none) ∧ (at0 up).safety.session = none ∧
    (let s := modRing .service (fun r => { r with wait := r.wait.map fun w => { w with op := 0x604 } }) (modPower (fun p => { p with brownout := some 0 }) (checkingPw true))
     (ringAt (late s) .service).wait.map (·.op) = some 0x604 ∧ (late s).power.brownout.isSome = true) := by
  repeat' apply And.intro
  all_goals decide +kernel

theorem test_hyp_clocks_more :
    (let s := modClocks (fun c => { c with localReset := 0x100#22 }) (switching 4#3); (at0 s).clocks.localReset.getLsbD 8 = true ∧ srcLost (at0 s) .xin = true) ∧
    (at0 up).clocks.closing.any (·.unit == 23) = false ∧ (at0 up).clocks.switching.find? (·.island == 0) = none ∧
    ((at0 up).power.pstate = .p0 ∧ sidesOn (declareLost 0 (at0 up)) (refOf 0) = []) ∧
    (let s := modClocks (fun c => { c with refLost := 4#3 }) (modPower (fun p => { p with pstate := .p2 }) up); srcLost (at0 s) .xin = true ∧ supervising (at0 s) = true) ∧
    (srcLost (at0 up) (refOf 0) = false ∧ fwRuns (at0 up) = true) ∧
    (let s := modPower (fun p => { p with oscWaiting := true }) up; canLock (at0 s) 0 = false) ∧
    (at0 up).clocks.refout[(1 : Fin 2)].enabled = false := by
  repeat' apply And.intro
  all_goals decide +kernel

theorem test_hyp_boot_more :
    (let a := at0 (brown false); a.power.brownout.isSome = true ∧ active a = true ∧ a.power.seqDone = true) ∧
    (let s := modFwSlot 0 (fun x => { x with state := .trial, trialResets := 255 }) (modPower (fun p => { p with brownout := some 0 }) (booting .rom 0#2)); let a := at0 s
     holdRom a = false ∧ a.power.brownout.isSome = true ∧ ¬ ((checkSlot a.otp (fwSlot a 0)).1 = fwSlot a 0 ∧ (checkSlot a.otp (fwSlot a 1)).1 = fwSlot a 1)) ∧
    (let s := modMez (fun m => { m with readopt := true }) (booting .starting 0#2); (at0 s).mez.run = .starting ∧ (at0 s).mez.readopt = true ∧ (at0 s).mez.halted = false) ∧
    (at0 (booting .recovery 0#2)).mez.run = .recovery ∧
    ((at0 up).mez.slot = some 0 ∧ (fwSlot (at0 up) 0).state ≠ .trial ∧ (at0 up).mez.trialSince = none) ∧
    (at0 up).power.entry = none ∧ (at0 up).power.cutterHold = none ∧
    ((at0 (asleep .p2)).power.pstate = .p2 ∧ alwaysOn (at0 (asleep .p2)) = true ∧ (at0 (asleep .p3)).power.pstate = .p3) ∧
    (late up).power.bootAt < (late up).now - 999 := by
  repeat' apply And.intro
  all_goals decide +kernel

theorem test_hyp_bridge_serves_more :
    (port9Serves (at0 (asleep .p3)) = false ∧ pKind pmParcel ≠ 1) ∧
    (let s := modBridge (fun b => { b with prefetch := [⟨1#16, 5, [1#8], 0⟩] }) up; (at0 s).bridge.prefetch.length = 1 ∧ active (at0 s) = true) ∧
    (gateOn (at0 (gatedUp 22)) 22 = false ∧ port9Serves (at0 (gatedUp 22)) = true) ∧
    (let r := at0 (remoting true 4); (r.bridge.remote.map (·.count)) = some 4 ∧ (at0 (remoting false 0)).bridge.remote.map (·.read) = some false) := by
  repeat' apply And.intro
  all_goals decide +kernel

theorem test_hyp_port_l_more :
    ((at0 up).live.twlStretch * 100000 ≤ (at0 up).live.twlStretch * 100000 ∧ portLRuns (at0 (gatedUp 23)) = false) ∧
    (let s := modPortL (fun p => { p with fenced := true }) up; portLRuns (at0 s) = true ∧ (at0 s).portL.fenced = true) ∧
    ((at0 up).portL.lock.bind (·.since) = none ∧ (at0 up).portL.lostFor = none) ∧
    (let s := waitingL (plReq true true 0) (some heldLock)
     (recoverIfDue (at0 s)).portL.lock = some heldLock ∧ (runBus (plReq true true 0) busAgain false 3 [7#8]).2.1 = true) := by
  repeat' apply And.intro
  all_goals decide +kernel

theorem test_hyp_mailboxes_more :
    (windowUp (at0 (asleep .p3)) = false ∧ (0x100 : Nat) + ([1#8, 2#8, 3#8, 4#8] : List Byte).length ≤ 0x800 ∧ 0x7FC + 4 = 0x800) ∧
    (let f := rspFrame 0xFFF 1 0 0 0 0 1 []; (allCmds.find? fun c => c.op == frOp f) = none ∧ frameFields f = true ∧ frameCrc f = true ∧ (nextFrame (at0 (submitted f))).isSome = true) ∧
    (let s := modMez (fun m => { m with run := .rom }) (submitted frameBytes); (nextFrame (at0 s)).isSome = true ∧ softServes (reqOf .link ⟨frameBytes, 0, 1#16, some 0, 0⟩) (at0 s) = false) ∧
    (let s := modRing .service (fun r => { r with rsps := [⟨[], 1#16, 0⟩] }) up
     ((ringAt (late s) .service).rsps.filter fun x => decide (x.at_ + 1000000000 ≤ (late s).now)) ≠ [] ∧
      ((ringAt (at0 s) .service).rsps.filter fun x => decide (x.at_ + 1000000000 ≤ (at0 s).now)) = []) ∧
    (fwRuns (at0 (booting .rom 0#2)) = false ∧ romServes (at0 (booting .rom 0#2)) = false ∧ romServes (at0 (booting .recovery 0#2)) = true ∧ guarding (at0 (asleep .p3)) = false) ∧
    ((late up).log.stream = none ∧ someWaits 0xC02 (at0 up) = false ∧ someWaits 0xC03 (at0 up) = false ∧ (at0 (brown false)).power.brownout.isSome = true) ∧
    laneLocked (laneAt (at0 up) 0 0) = false := by
  repeat' apply And.intro
  all_goals decide +kernel

/-- A device asleep whose fragments are half received. -/
def halfUp : State := modPortM (fun m => { m with asm_ := some (List.replicate 1028 0#8) }) up

theorem test_hyp_port_m_more :
    ((at0 (resetting .pin (some 5))).power.inReset.isSome = true ∧ (0#8).toNat < 2 ∧ 241 < (242#8).toNat ∧ 2 ≤ (241#8).toNat) ∧
    (([3#8] : List Byte).take 2 = 3#8 :: [] ∧ ([3#8] : List Byte).length < 2 ∧ fragOrder up.portM 0#8 = false) ∧
    (fragOrder halfUp.portM 3#8 = true ∧ (halfUp.portM.asm_.getD []).length + 1 > 1028) ∧
    (elapsed (at0 up).now 100000000 (at0 up).portM.relatchAt = true ∧ elapsed (at0 (modPortM (fun m => { m with relatchAt := some 0 }) up)).now 100000000 (some 0) = false) ∧
    ((at0 up).portM.causes = 0#5 ∧ (at0 up).live.twAttn ≠ 1 ∧ (at0 up).live.twAttn ≠ 2 ∧ active (at0 (asleep .p2)) = false) ∧
    (let s : State := { asleep .p3 with frz := { up.frz with on := true } }; (at0 s).power.inReset = none ∧ (at0 s).frz.on = true) := by
  repeat' apply And.intro
  all_goals decide +kernel

theorem test_hyp_tap_more :
    (at0 (resetting .por none)).power.inReset = some .por ∧
    ((at0 (resetting .extest (some 5))).power.inReset = some .extest ∧ (at0 (resetting .extest (some 5))).pins.resetNLow.isSome = true) ∧
    (tapWorks 0x20 (at0 up) = true ∧ tapLevel 0x20 ≤ (at0 up).dbg.level ∧ tapWorks 0x21 (at0 up) = true ∧ tapWorks 0x31 (at0 up) = true ∧ tapWorks 0x12 (at0 up) = true) := by
  repeat' apply And.intro
  all_goals decide +kernel

/-! ## The worked examples of the spec -/

/-- The identity record of chapter 08, and the record of its wall pixel with exponent 0 or 1. -/
def identityRecord : List Byte := bys [0, 4, 0, 0, 0, 0, 0, 4, 0, 0, 0, 0, 0, 4, 0, 0x85]

def wallRecord (e : Nat) : List Byte :=
  let row := fun (a b c : Nat) => a + 4096 * b + 4096 * 4096 * c
  let b := leBytes 15 (row 0x3D0 0x029 0xFFA + 2 ^ 36 * row 0x014 0x3E8 0x000 + 2 ^ 72 * row 0xED4 0xFCE 0x44C + 2 ^ 108 * e)
  b ++ [crc8 b]

/-- Chapter 08: the identity record's check holds and it changes nothing; the wall pixel comes out as the table says; with exponent 1 its red clamps. -/
theorem test_example_correction :
    recordOk identityRecord = true ∧ (applyRecord (some identityRecord) (0, 0, 0) (40000, 20000, 10000)).1 = (40000, 20000, 10000) ∧
    (applyRecord (some (wallRecord 0)) (0, 0, 0) (40000, 20000, 10000)).1 = (38867, 20312, 0) ∧
    (applyRecord (some (wallRecord 1)) (0, 0, 0) (40000, 20000, 10000)).1.1 = 65535 := by decide +kernel

/-- Chapter 08: the record of pixel 100 on line 10 of the lamp's region lies at 0x15B2640 in bank 1. -/
theorem test_example_record_place :
    recordAddr { base := 94, units := 500, dbuf := true, bank := true } ⟨0#2, 0#2, true, 0#4, 100000, 1280, 800, 0#16, 0⟩ 10 100 = 0x15B2640 := by decide +kernel

/-- The announcement of every Atrium region, with the flight of one of its two processors (chapter 07). -/
def atriumAnn (prio : BitVec 2) (flight : BitVec 16) : AnnRec := ⟨0#2, prio, true, 3#4, 120000, 1536, 1728, flight, 0⟩

/-- The priority of a region of the Atrium wall. -/
def atriumPrio (r : Nat) : BitVec 2 := if r ∈ [0x103, 0x104, 0x10B, 0x10C] then 3#2 else if r < 0x108 then 2#2 else 1#2

/-- Who claims a region: M0 on S0 and S1, M1 on S2 and S3. -/
def atriumClaims (r : Nat) : List ClaimRec :=
  let claim := fun (m : BitVec 64) (g : Nat) => (⟨m, g, 0#2, 2#2, 2#4, 0⟩ : ClaimRec)
  (if r % 8 < 4 then [claim 0#64 4, claim 0#64 5] else []) ++ (if 4 ≤ r % 8 ∨ r = 0x103 then [claim 1#64 6, claim 1#64 7] else [])

/-- The inputs of the run on the Atrium wall, with the capacities of the four South galleries. -/
def atriumInputs (caps : List Nat) (act : BitVec 8) : RunInputs :=
  { regions := (List.range 16).map fun k => let r := 0x100 + k; let n := if r < 0x108 then 0 else 1
      (r, { ann := [(n, atriumAnn (atriumPrio r) 0x0A01#16), (n + 2, atriumAnn (atriumPrio r) 0x0A02#16)], claims := atriumClaims r })
    set := [(0x107, { egressPin := some 8#4 })]
    caps, active := act, landing := [some 0, some 0, some 0, some 0], engine := true }

/-- The entry of a region in a run's results. -/
def runEntry (x : RunSt) (r : Nat) : Entry := ((x.results.find? fun e => e.1 == r).map fun e => e.2.1).getD {}

/-- The Atrium wall's first run on an empty table. -/
def atriumFirst : RunSt := runOn (atriumInputs [7908, 7908, 7908, 7908] 0xFF#8) up 0

/-- The hub after that run's entries came into force. -/
def atriumUp : State := atriumFirst.results.foldl (fun s e => putForce e.1 e.2.1 s) up

/-- Chapter 07, placement order and result: S0 and S2 carry 4,920 units, S1 none, S3 615; entry 0x103 reads 0x0000_0280_99C1_460E in its low 64 bits. -/
theorem test_example_atrium :
    atriumFirst.freeS = [7908 - 4920, 7908, 7908 - 4920, 7908 - 615] ∧ atriumFirst.results.all (fun e => e.2.1.state == .placed) = true ∧
    (entryBits (runEntry atriumFirst 0x103)).toNat % 2 ^ 64 = 0x0000028099C1460E := by decide +kernel

/-- Chapter 07, the run after the loss of S2: 0x103 moves to S0 and S3, S3 reaches 4,920, and 0x10F is DROPPED with drop_egress S3 and drop_cause 1. -/
theorem test_example_atrium_loss :
    let x := runOn (atriumInputs [7908, 7908, 0, 4942] 0xBF#8) atriumUp 1
    x.freeS = [7908 - 4920, 7908, 0, 4942 - 4920] ∧ (runEntry x 0x103).egress = 9#4 ∧ (runEntry x 0x10F).state = .dropped ∧
    (runEntry x 0x10F).dropEgress = 8#4 ∧ (runEntry x 0x10F).dropCause = true := by decide +kernel

/-- Chapter 07, R241: with the check of copy A failing, copy B is used and copy A fenced; with both failing the table is lost. -/
theorem test_upset_fences :
    let a := strike (some (.entry false 5 1#8)) (putForce 5 placedEntry up)
    let r := readEntry 5 a
    r.1.state = .placed ∧ r.2.cutter.copyA.fenced = true ∧ r.2.cutter.copyB.fenced = false ∧
    (readEntry 5 (strike (some (.entry true 5 2#8)) a)).2.cutter.tableLost = true := by decide +kernel

end Sys2Proof.Tests
end

section
/-! The device state as the first condition of R33's order, and where the quick-status window carries it (R398, R498). -/

namespace Sys2Proof.Machine

theorem by8_eq_singleton (n : Nat) : by8 n = [BitVec.ofNat 8 n] := rfl

@[simp] theorem length_leBytes (n v : Nat) : (leBytes n v).length = n := by
  induction n generalizing v with
  | zero => rfl
  | succ n ih => simp [leBytes, ih]

/-- The code of the first flag that is set is the code of the head, where the head is set. -/
theorem find?_code_cons (c : Bool) (n d : Nat) (l : List (Bool × Nat)) :
    ((((c, n) :: l).find? (·.1)).map (·.2)).getD d = if c then n else ((l.find? (·.1)).map (·.2)).getD d := by
  cases c <;> rfl

theorem find?_code_cons_decide (p : Prop) [Decidable p] (n d : Nat) (l : List (Bool × Nat)) :
    ((((decide p, n) :: l).find? (·.1)).map (·.2)).getD d = if p then n else ((l.find? (·.1)).map (·.2)).getD d := by
  simp only [find?_code_cons, decide_eq_true_eq]

/-- A byte that stands behind the first `n` bytes is byte `n`. -/
theorem getD_append_singleton {l : List Byte} {n : Nat} (h : l.length = n) (b : Byte) (r : List Byte) : (l ++ ([b] ++ r)).getD n 0#8 = b := by
  rw [List.getD_append_right _ _ _ _ h.le, h, Nat.sub_self]
  rfl

theorem deviceState_eq_first_in_order (s : State) :
    deviceState s = ((([(s.frz.on, 5), (s.safety.devLock.isSome, 4), (devSafe s, 3), (inBoot s, 0), (decide (s.mez.run = .recovery), 6),
      (isPlaced s, 2)] : List (Bool × Nat)).find? (·.1)).map (·.2)).getD 1 := by
  rw [find?_code_cons, find?_code_cons, find?_code_cons, find?_code_cons, find?_code_cons_decide, find?_code_cons]
  rfl

/-- Byte 8 of the window follows the serial number's 8 bytes. -/
theorem quickLive_state_byte (s : State) : (quickLive s).getD 8 0#8 = BitVec.ofNat 8 (deviceState s) := by
  simp only [quickLive, by8_eq_singleton (deviceState s), List.append_assoc]
  exact getD_append_singleton (length_leBytes _ _) _ _

theorem quick_state_byte (s : State) (h : s.frz.on = false) : (quick s).getD 8 0#8 = BitVec.ofNat 8 (deviceState s) := by
  simp only [quick, h, Bool.false_eq_true, if_false]
  exact quickLive_state_byte s

/-- In FROZEN, byte 8 follows the 8 bytes held from the freeze (R498). -/
theorem quick_state_byte_frozen (s : State) (h : s.frz.on = true) (hl : 8 ≤ s.frz.qs.length) : (quick s).getD 8 0#8 = 5#8 := by
  simp only [quick, h, if_true, by8_eq_singleton 5, List.append_assoc]
  exact getD_append_singleton (List.length_take_of_le hl) _ _

/-- Settles O58: the branches of the state code are R33's order, and byte 8 of the window is that code, live or frozen. -/
theorem theFirstStateInOrderIsReported : Obligations.TheFirstStateInOrderIsReported := by
  intro s
  exact ⟨deviceState_eq_first_in_order s, quick_state_byte s, quick_state_byte_frozen s⟩

end Sys2Proof.Machine
end

section
/-! What `safety.monitor_set` accepts and does for the class of internal faults (R30, R280, R302). -/

namespace Sys2Proof.Machine

theorem classOfCode_one : classOfCode 1 = .safe := rfl

theorem classOfCode_two : classOfCode 2 = .lockout := rfl

/-- A safety setting goes on in its session, without a brown-out warning and with room in the log (R298, R302, R461). -/
theorem guardSetting_free {q : Req} {s : State} {k : Reply} (hs : inSession q s = true) (hb : s.power.brownout = none) (hl : logFull s = false) :
    guardSetting q s k = k := by
  unfold guardSetting
  rw [guardR_pos hs, guardR_pos (by rw [hb]; rfl), guardR_pos (by rw [hl]; rfl)]

/-- For the class of internal faults only safe (1) and lock-out (2) are in range, with nothing else set. -/
theorem monitorArgs_internal_iff {q : Req} (h : arg q 0 1 = 0xFF) :
    monitorArgs q = true ↔ (arg q 2 1 = 1 ∨ arg q 2 1 = 2) ∧ arg q 1 1 = 6 ∧ arg q 3 1 = 0xFF ∧ arg q 4 2 = 0 ∧ arg q 6 2 = 0 := by
  simp only [monitorArgs, h, if_true, Bool.and_eq_true, beq_iff_eq, bne_iff_ne, decide_eq_true_eq]
  omega

theorem doMonitorSet_bad {q : Req} (s : State) (h : monitorArgs q = false) : doMonitorSet q s = fail 3 s := guardR_neg h

theorem doMonitorSet_internal {q : Req} {s : State} (hi : arg q 0 1 = 0xFF) (ha : monitorArgs q = true) (hs : inSession q s = true)
    (hb : s.power.brownout = none) (hl : logFull s = false) :
    doMonitorSet q s = okay [] (modSafety (fun f => { f with record := { f.record with internal := classOfCode (arg q 2 1) } }) s
      |> logSetting targetDevice q (by8 (classCode s.safety.record.internal)) (by8 (classCode (classOfCode (arg q 2 1))))) := by
  unfold doMonitorSet
  rw [guardR_pos ha, guardSetting_free hs hb hl, dif_neg (by omega)]

/-- The row of `safety.monitor_set` runs the command of that name. -/
theorem exec_safetyMonitorSet (t : Nat) (q : Req) (s : State) : exec (.safetyMonitorSet t q) s = command t cmdMonitorSet q s := rfl

/-- Settles O59: the check of the arguments leaves safe and lock-out alone; with either, the class is set and logged, and without, the request is refused before any change. -/
theorem internalFaultsAreNeverOff : Obligations.InternalFaultsAreNeverOff := by
  refine ⟨rfl, rfl, fun t q s hp hi => ⟨fun h1 h2 => ?_, fun c hc h6 hsub hp1 hp2 hs hb hl => ?_⟩⟩
  · have hbad : monitorArgs q = false := by
      rw [Bool.eq_false_iff, Ne, monitorArgs_internal_iff hi]
      exact fun h => h.1.elim h1 h2
    exact refuses_of (exec_safetyMonitorSet t q s) hp (doMonitorSet_bad _ hbad)
  · have hgood : monitorArgs q = true := (monitorArgs_internal_iff hi).2 ⟨hc.imp And.left And.left, h6, hsub, hp1, hp2⟩
    have hclass : classOfCode (arg q 2 1) = c := by
      obtain ⟨h, rfl⟩ | ⟨h, rfl⟩ := hc
      · rw [h, classOfCode_one]
      · rw [h, classOfCode_two]
    have hdo := doMonitorSet_internal hi hgood hs hb hl
    rw [hclass] at hdo
    exact replies_of (exec_safetyMonitorSet t q s) hp hdo

end Sys2Proof.Machine
end

section
/-! An unlocking write without a sequence, as it arrives by the bridge and as its turn comes on port L (R331, R332, R421). -/

namespace Sys2Proof.Machine

/-- The lost state of a source ends; another source's stays (R332). -/
def endLostOf (src : BitVec 16) (s : State) : State :=
  modPortL (fun p => { p with lostFor := if p.lostFor.map (·.1) = some src then none else p.lostFor }) s

/-! A parcel taken from the port 9 queue leaves the gates and port L as they were. -/

@[simp] theorem takeMgmt_portL (port : Nat) (p : Parcel) (s : State) : (takeMgmt port p s).portL = s.portL := rfl

@[simp] theorem gateOn_takeMgmt (port : Nat) (p : Parcel) (s : State) (i : Nat) : gateOn (takeMgmt port p s) i = gateOn s i := rfl

@[simp] theorem hasSequence_takeMgmt (port : Nat) (p : Parcel) (s : State) (src : BitVec 16) :
    hasSequence (takeMgmt port p s) src = hasSequence s src := rfl

@[simp] theorem takeReq_lock (r : PlReq) (s : State) : (takeReq r s).portL.lock = s.portL.lock := rfl

/-- A row whose meaning is an effect with its guard met gives the state after that effect. -/
theorem gives_of_effect {i : Instr} {t : Nat} {ok : State → Bool} {f : State → State} {s u : State} (hi : exec i s = effect t ok f s)
    (hok : ok (begin t s) = true) (hf : f (begin t s) = u) : Gives i s u := by
  unfold Gives
  rw [hi, effect_acts hok, hf]

/-- A well-formed non-posted write that its window admits reaches the target of the window (R318, R321). -/
theorem serveWrite_admitted {p : Parcel} {port arrival : Nat} {s : State} {w : BitVec 128} (ht : tagCheck s (accessOf p port arrival).asker = 0)
    (hf : writeFormed p (accessOf p port arrival) = true)
    (hw : decodeWindow s (accessOf p port arrival).asker.src (accessOf p port arrival).address (accessOf p port arrival).count = some w)
    (hro : winFlag w 59 = false) (hfit : fitsWindow w (accessOf p port arrival) = true) (hlk : winFlag w 58 = true) :
    serveWrite p port arrival s = writeTarget w (accessOf p port arrival) s := by
  simp [serveWrite, ht, hf, hw, hro, hfit, hlk]

/-- On its way to port L an unlocking write of a source without a sequence is refused with LOCK_LOST and is not queued (R421). -/
theorem writeTarget_portL_no_sequence {w : BitVec 128} {x : Access} {s : State} (h3 : targetOf (winBase w) = some 3) (h22 : gateOn s 22 = true)
    (h23 : gateOn s 23 = true) (hfen : s.portL.fenced = false) (hl : x.lock = true) (hs : hasSequence s x.asker.src = false) :
    writeTarget w x s = refuse x.asker 7 (endLostOf x.asker.src s) := by
  simp [writeTarget, h3, h22, h23, hfen, hl, hs, endLostOf]

theorem recoverIfDue_not_due {s : State} (h : s.portL.recoverDue = false) : recoverIfDue s = s := by
  simp [recoverIfDue, h]

/-- With no recovery due, the waiting request whose turn it is runs where it is of the row's kind. -/
theorem onBus_runs {kind : PlReq → Bool} {run : PlReq → State → State} {s : State} {r : PlReq} (hn : nextReq s = some r) (hk : kind r = true)
    (hrec : s.portL.recoverDue = false) (hw : r ∈ s.portL.waiting) : onBus kind run s = run r s := by
  simp [onBus, hn, hk, recoverIfDue_not_due hrec, hw]

/-- An unlocking write whose source's sequence is not the one in force ends with LOCK_LOST: nothing is driven on the bus (R421). -/
theorem runUnlock_no_sequence {r : PlReq} {acked : Nat} {s : State} (h : s.portL.lock.map (·.src) ≠ some r.asker.src) :
    runUnlock r acked s = endReq r 7 0 [] (endLostOf r.asker.src (takeReq r s)) := by
  simp [runUnlock, h, endLostOf]

theorem exec_bridgeWriteNonposted (t : Nat) (port : Fin 10) (p : Parcel) (s : State) :
    exec (.bridgeWriteNonposted t port p) s = effect t (fun s => port9Serves s && pKind p == 2 && pCls p == .np)
      (fun s => serveWrite p port.val (arrivalOf s port.val p) (takeMgmt port.val p s)) s := rfl

theorem exec_unlockingWrite (t acked : Nat) (s : State) :
    exec (.unlockingWrite t acked) s = effect t portLRuns (onBus (fun r => r.lock && !r.read) fun r => runUnlock r acked) s := rfl

/-- Settles O60: without a sequence in force the bridge refuses an unlocking write before it is queued, and port L ends one that waited without a run on the bus; both end the lost
state of the source alone. -/
theorem unlockingWithoutASequenceIsLost : Obligations.UnlockingWithoutASequenceIsLost := by
  intro t s a forget
  refine ⟨?arrives, ?waited⟩
  case arrives =>
    intro port p w x d hserves hkind hcls htag hformed hlock hwin hro hfits hlockable htarget h22 h23 hfenced hseq
    have hserve : serveWrite p port.val (arrivalOf a port.val p) d = writeTarget w x d :=
      serveWrite_admitted htag hformed hwin hro hfits hlockable
    have hrefused : writeTarget w x d = refuse x.asker 7 (endLostOf x.asker.src d) :=
      writeTarget_portL_no_sequence htarget (by simpa [d] using h22) (by simpa [d] using h23) (by simpa [d] using hfenced) hlock (by simpa [d] using hseq)
    refine gives_of_effect (exec_bridgeWriteNonposted t port p s) ?_ (hserve.trans hrefused)
    rw [hserves, hkind, hcls]
    rfl
  case waited =>
    intro r acked hruns hrecover hnext hwaits hlock hwrite hother
    have hrun : onBus (fun r => r.lock && !r.read) (fun r => runUnlock r acked) a = runUnlock r acked a :=
      onBus_runs hnext (by rw [hlock, hwrite]; rfl) hrecover hwaits
    exact gives_of_effect (exec_unlockingWrite t acked s) hruns (hrun.trans (runUnlock_no_sequence hother))

end Sys2Proof.Machine
end

section
/-! Hop-control blocks come back from the block they are encoded in: each field is read off the concatenation that built the body (R90, R92). -/

namespace Sys2Proof.Machine

/-- What stands lowest in a concatenation is read back from bit 0. -/
theorem extractLsb'_append_lowest {v w : Nat} (a : BitVec v) (b : BitVec w) : (a ++ b).extractLsb' 0 w = b :=
  (BitVec.extractLsb'_append_eq_of_add_le (by omega)).trans BitVec.extractLsb'_eq_self

/-- Every field of a body is read from behind the fields below it: the parts below are dropped one by one. -/
theorem hopOf_hopSub_hopBody (h : Hop) : hopOf (hopSub h) (hopBody h) = some h := by
  rcases h with ⟨⟩ | ⟨⟩ | ⟨⟩ | ⟨⟩ | ⟨⟩ | ⟨⟩ | ⟨⟩ | ⟨⟩ | ⟨⟩ | ⟨⟩ | ⟨⟩ | ⟨⟩ | ⟨⟩ | ⟨⟩ | ⟨⟩ | ⟨⟩ | ⟨⟩ | ⟨⟩ | ⟨⟩ | ⟨⟩ | ⟨⟩ | ⟨⟩ | ⟨⟩
  all_goals
    simp only [hopOf, hopSub, hopBody, BitVec.reduceToNat]
    congr
    all_goals
      repeat refine (BitVec.extractLsb'_append_eq_of_le (by decide)).trans ?_
      first
        | exact extractLsb'_append_lowest _ _
        | exact BitVec.extractLsb'_eq_self

/-- The parts of a block that is laid out as check, bytes 0 to 6 and header. -/
theorem blkHdr_append (c : BitVec 64) (h : BitVec 2) : blkHdr (c ++ h) = h := extractLsb'_append_lowest c h

theorem blkByte_append (c : BitVec 8) (v : BitVec 56) (h : BitVec 2) (k : Nat) (hk : k < 7) :
    blkByte (c ++ v ++ h) k = v.extractLsb' (8 * k) 8 := by
  unfold blkByte
  refine (BitVec.extractLsb'_append_eq_of_le (by omega)).trans ?_
  exact BitVec.extractLsb'_append_eq_of_add_le (by omega)

theorem blkByte_append_check (c : BitVec 8) (v : BitVec 56) (h : BitVec 2) : blkByte (c ++ v ++ h) 7 = c := by
  unfold blkByte
  refine (BitVec.extractLsb'_append_eq_of_le (by omega)).trans ?_
  exact (BitVec.extractLsb'_append_eq_of_le (by omega)).trans BitVec.extractLsb'_eq_self

/-- A block that carries the check of its bytes 0 to 6 passes it. -/
theorem crc8Ok_append (v : BitVec 56) (h : BitVec 2) : crc8Ok (crc8 ((List.range 7).map fun k => v.extractLsb' (8 * k) 8) ++ v ++ h) = true := by
  unfold crc8Ok
  rw [blkByte_append_check, beq_iff_eq]
  have hb : ∀ k ∈ List.range 7, v.extractLsb' (8 * k) 8 = blkByte (crc8 ((List.range 7).map fun k => v.extractLsb' (8 * k) 8) ++ v ++ h) k :=
    fun k hk => (blkByte_append _ _ _ k (List.mem_range.1 hk)).symm
  exact congrArg crc8 (List.map_congr_left hb)

theorem blkBody_append (c : BitVec 8) (b : BitVec 40) (u y : BitVec 8) (h : BitVec 2) : blkBody (c ++ (b ++ u ++ y : BitVec 56) ++ h) = b := by
  unfold blkBody
  refine (BitVec.extractLsb'_append_eq_of_le (by omega)).trans ?_
  refine (BitVec.extractLsb'_append_eq_of_add_le (by omega)).trans ?_
  refine (BitVec.extractLsb'_append_eq_of_le (by omega)).trans ?_
  exact (BitVec.extractLsb'_append_eq_of_le (by omega)).trans BitVec.extractLsb'_eq_self

/-- Settles O7: header, type, check and subtype hold by construction, and the body gives its fields back. -/
theorem hopBlocksDecodeToThemselves : Obligations.HopBlocksDecodeToThemselves := by
  intro h
  have hty : blkByte (encodeHop h) 0 = 0x2D#8 :=
    (blkByte_append _ _ _ 0 (by decide)).trans (extractLsb'_append_lowest _ _)
  have hsub : blkByte (encodeHop h) 1 = hopSub h :=
    (blkByte_append _ _ _ 1 (by decide)).trans
      ((BitVec.extractLsb'_append_eq_of_le (by decide)).trans (extractLsb'_append_lowest _ _))
  unfold decodeHop
  rw [if_pos ⟨blkHdr_append _ _, hty, crc8Ok_append _ _⟩, hsub]
  exact (congrArg (hopOf (hopSub h)) (blkBody_append _ _ _ _ _)).trans (hopOf_hopSub_hopBody h)

end Sys2Proof.Machine
end

section
/-! Parcels, cut marks, gaps, basting and tack blocks come back from what they are sent as, and the scrambler is undone by the descrambler. -/

namespace Sys2Proof.Machine

/-! Bytes, little-endian. -/

theorem leNat_leBytes (n v : Nat) : leNat (leBytes n v) = v % 256 ^ n := by
  induction n generalizing v with
  | zero => simp [leBytes, leNat, Nat.mod_one]
  | succ n ih =>
    rw [leBytes, leNat, ih, BitVec.toNat_ofNat, Nat.pow_succ' (m := 256)]
    exact Nat.mod_mul.symm

theorem ofNat_leNat_leBytes {n w : Nat} (hw : 256 ^ n = 2 ^ w) (x : BitVec w) : BitVec.ofNat w (leNat (leBytes n x.toNat)) = x := by
  apply BitVec.eq_of_toNat_eq
  rw [leNat_leBytes, hw, BitVec.toNat_ofNat, Nat.mod_mod, Nat.mod_eq_of_lt x.isLt]

/-! Parcels: header, payload and trailer stand where the lengths say. -/

theorem parcelOf_parcelBytes (p : Parcel) : parcelOf (parcelBytes p) p.poisoned = some p := by
  have hlen : (parcelBytes p).length = 16 + p.payload.length + 4 := by simp [parcelBytes, parcelBody, Nat.add_assoc]
  have hhdr : (parcelBytes p).take 16 = leBytes 16 p.hdr.toNat := by
    simp [parcelBytes, parcelBody]
  have hpay : ((parcelBytes p).drop 16).take ((parcelBytes p).length - 20) = p.payload := by
    rw [hlen]; simp [parcelBytes, parcelBody]
  have hcrc : (parcelBytes p).drop ((parcelBytes p).length - 4) = leBytes 4 p.crc.toNat := by
    rw [hlen]; simp [parcelBytes, parcelBody, List.drop_append]
  unfold parcelOf
  rw [if_neg (by omega), hhdr, hpay, hcrc, ofNat_leNat_leBytes (by decide), ofNat_leNat_leBytes (by decide)]

/-! Checked stream blocks: the type byte sorts them, and bytes 1 to 6 are what they carry. -/

theorem blkByte_checkedBlk_type (ty : Byte) (v : BitVec 48) : blkByte (checkedBlk ty v) 0 = ty :=
  (blkByte_append _ _ _ 0 (by decide)).trans (extractLsb'_append_lowest _ _)

theorem checkedBlk_content (ty : Byte) (v : BitVec 48) : (checkedBlk ty v).extractLsb' 10 48 = v := by
  refine (BitVec.extractLsb'_append_eq_of_le (by decide)).trans ?_
  refine (BitVec.extractLsb'_append_eq_of_add_le (by decide)).trans ?_
  exact (BitVec.extractLsb'_append_eq_of_le (by decide)).trans BitVec.extractLsb'_eq_self

theorem crc8Ok_checkedBlk (ty : Byte) (v : BitVec 48) : crc8Ok (checkedBlk ty v) = true := crc8Ok_append _ _

theorem blkHdr_checkedBlk (ty : Byte) (v : BitVec 48) : blkHdr (checkedBlk ty v) = ctlHdr := blkHdr_append _ _

theorem getLsbD_of_extractLsb' {n : Nat} {v : BitVec n} {k : Nat} {b : Bool} (h : v.extractLsb' k 1 = BitVec.ofBool b) : v.getLsbD k = b := by
  simpa using congrArg (·.getLsbD 0) h

theorem cutOf_cutBody (c : CutMark) : cutOf (cutBody c) = c := by
  obtain ⟨region, uncorrected, substituted, frame, subframe⟩ := c
  unfold cutOf cutBody
  congr
  case e_uncorrected =>
    apply getLsbD_of_extractLsb'
    exact (BitVec.extractLsb'_append_eq_of_le (by decide)).trans (extractLsb'_append_lowest _ _)
  case e_substituted =>
    apply getLsbD_of_extractLsb'
    repeat refine (BitVec.extractLsb'_append_eq_of_le (by decide)).trans ?_
    exact extractLsb'_append_lowest _ _
  all_goals
    repeat refine (BitVec.extractLsb'_append_eq_of_le (by decide)).trans ?_
    exact extractLsb'_append_lowest _ _

theorem gapOf_gapBody (g : Gap) : gapOf (gapBody g) = g := by
  obtain ⟨region, reason, firstLine, lineCount⟩ := g
  unfold gapOf gapBody
  congr
  all_goals
    repeat refine (BitVec.extractLsb'_append_eq_of_le (by decide)).trans ?_
    first
      | exact extractLsb'_append_lowest _ _
      | exact BitVec.extractLsb'_eq_self

theorem blkKind_checkedBlk (ty : Byte) (v : BitVec 48) : blkKind (checkedBlk ty v) =
    match ty.toNat with
    | 0x1E => .idle
    | 0x2D => .hop (hopOf (blkByte (checkedBlk ty v) 1) (blkBody (checkedBlk ty v)))
    | 0x33 => .start ((blkBytes (checkedBlk ty v)).drop 1)
    | 0x4B => .fin (bits (blkByte (checkedBlk ty v) 1).toNat 2 0) ((blkByte (checkedBlk ty v) 1).getLsbD 3) ((blkBytes (checkedBlk ty v)).drop 2)
    | 0x55 => .basting v
    | 0x66 => .cut (cutOf v)
    | 0x78 => .gap (gapOf v)
    | 0x87 => .tack
    | _ => .badType := by
  unfold blkKind
  rw [blkHdr_checkedBlk, blkByte_checkedBlk_type, crc8Ok_checkedBlk, checkedBlk_content]
  rfl

theorem blkKind_tackBlk (p : BitVec 3) (q : BitVec 10) (n : BitVec 8) : blkKind (tackBlk p q n) = .tack := blkKind_checkedBlk _ _

theorem tackOf_tackBlk (p : BitVec 3) (q : BitVec 10) (n : BitVec 8) : tackOf (tackBlk p q n) = some (q.toNat, n.toNat) := by
  have hq : (tackBlk p q n).extractLsb' 18 10 = q := by
    refine (BitVec.extractLsb'_append_eq_of_le (by decide)).trans ?_
    refine (BitVec.extractLsb'_append_eq_of_add_le (by decide)).trans ?_
    repeat refine (BitVec.extractLsb'_append_eq_of_le (by decide)).trans ?_
    exact (BitVec.extractLsb'_append_eq_of_add_le (by decide)).trans (extractLsb'_append_lowest _ _)
  have hn : blkByte (tackBlk p q n) 4 = n := by
    refine (blkByte_append _ _ _ 4 (by decide)).trans ?_
    repeat refine (BitVec.extractLsb'_append_eq_of_le (by decide)).trans ?_
    exact extractLsb'_append_lowest _ _
  unfold tackOf
  rw [if_pos (blkKind_tackBlk p q n), hq, hn]

/-- Settles O8: a parcel's bytes stand where its lengths say, and the type byte of a checked block sorts it. -/
theorem parcelsAndStreamBlocksDecodeToThemselves : Obligations.ParcelsAndStreamBlocksDecodeToThemselves :=
  ⟨fun p _ _ => parcelOf_parcelBytes p,
    fun c => (blkKind_checkedBlk _ _).trans (congrArg BlkKind.cut (cutOf_cutBody c)),
    fun b => (blkKind_checkedBlk _ _).trans (congrArg BlkKind.gap (gapOf_gapBody b)),
    fun v => blkKind_checkedBlk _ v, tackOf_tackBlk⟩

end Sys2Proof.Machine
end
section
/-! Scrambler and descrambler walk the 64 bits of a block with one shift register; with the same history the second undoes the first (R88). -/

namespace Sys2Proof.Machine

/-- One bit of a block through a line coder: the bit `kept` enters the history, the bit `given` the result. -/
def lineStep (kept given : BitVec 58 → Nat → Bool) (acc : BitVec 58 × BitVec 64) (k : Nat) : BitVec 58 × BitVec 64 :=
  ((acc.1 <<< 1) ||| BitVec.ofNat 58 (b2n (kept acc.1 k)), acc.2 ||| (BitVec.ofNat 64 (b2n (given acc.1 k)) <<< k))

/-- The first `n` bits of a block through a line coder. -/
def lineRun (kept given : BitVec 58 → Nat → Bool) (h : BitVec 58) (n : Nat) : BitVec 58 × BitVec 64 :=
  (List.range n).foldl (lineStep kept given) (h, 0#64)

/-- The scrambled bit `k` of a block at a history. -/
def mixBit (d : BitVec 64) (h : BitVec 58) (k : Nat) : Bool := (d.getLsbD k ^^ h.getLsbD 38) ^^ h.getLsbD 57

theorem xor_cancels : ∀ x a b : Bool, ((((x ^^ a) ^^ b) ^^ a) ^^ b) = x := by decide

theorem scramble_eq_lineRun (h : BitVec 58) (d : BitVec 64) : scramble h d = lineRun (mixBit d) (mixBit d) h 64 := rfl

theorem descramble_eq_lineRun (h : BitVec 58) (d : BitVec 64) : descramble h d = lineRun (fun _ k => d.getLsbD k) (mixBit d) h 64 := rfl

theorem lineRun_succ (kept given : BitVec 58 → Nat → Bool) (h : BitVec 58) (n : Nat) :
    lineRun kept given h (n + 1) = lineStep kept given (lineRun kept given h n) n := by
  simp [lineRun, List.range_succ]

theorem getLsbD_ofNat_b2n (b : Bool) (k : Nat) : (BitVec.ofNat 64 (b2n b)).getLsbD k = (decide (k = 0) && b) := by
  cases b <;> cases k <;> simp [b2n]

/-- Bit `k` of the result is the bit that was given at place `k`. -/
theorem getLsbD_lineRun (kept given : BitVec 58 → Nat → Bool) (h : BitVec 58) (n k : Nat) (hn : n ≤ 64) :
    (lineRun kept given h n).2.getLsbD k = (decide (k < n) && given (lineRun kept given h k).1 k) := by
  induction n with
  | zero => simp [lineRun]
  | succ n ih =>
    rw [lineRun_succ]
    simp only [lineStep, BitVec.getLsbD_or, BitVec.getLsbD_shiftLeft, getLsbD_ofNat_b2n, ih (by omega)]
    rcases Nat.lt_trichotomy k n with hk | rfl | hk
    · have h1 : k < n + 1 := by omega
      simp [hk, h1]
    · have h1 : k < 64 := by omega
      simp [h1]
    · have h1 : ¬ k < n := by omega
      have h2 : ¬ k < n + 1 := by omega
      have h3 : k - n ≠ 0 := by omega
      simp [h1, h2, h3]

theorem getLsbD_scramble (h : BitVec 58) (d : BitVec 64) {k : Nat} (hk : k < 64) :
    (scramble h d).2.getLsbD k = mixBit d (lineRun (mixBit d) (mixBit d) h k).1 k := by
  rw [scramble_eq_lineRun, getLsbD_lineRun _ _ _ 64 _ (by omega), decide_eq_true hk, Bool.true_and]

/-- The descrambler's history follows the scrambler's, whose bits it receives. -/
theorem lineRun_descramble_history (h : BitVec 58) (d : BitVec 64) (n : Nat) (hn : n ≤ 64) :
    (lineRun (fun _ k => (scramble h d).2.getLsbD k) (mixBit (scramble h d).2) h n).1 = (lineRun (mixBit d) (mixBit d) h n).1 := by
  induction n with
  | zero => rfl
  | succ n ih =>
    have hbit : (scramble h d).2.getLsbD n = mixBit d (lineRun (mixBit d) (mixBit d) h n).1 n := by
      exact getLsbD_scramble h d (by omega)
    simp only [lineRun_succ, lineStep, ih (by omega), hbit]

theorem descramble_scramble (h : BitVec 58) (d : BitVec 64) : descramble h (scramble h d).2 = ((scramble h d).1, d) := by
  rw [descramble_eq_lineRun]
  have hhist := (lineRun_descramble_history h d 64 (by omega)).trans (congrArg Prod.fst (scramble_eq_lineRun h d).symm)
  refine Prod.ext hhist (BitVec.eq_of_getLsbD_eq fun k hk => ?_)
  rw [getLsbD_lineRun _ _ _ 64 _ (by omega), lineRun_descramble_history h d k (by omega)]
  rw [mixBit, getLsbD_scramble h d hk, mixBit, decide_eq_true hk, Bool.true_and]
  exact xor_cancels _ _ _

/-- Settles O9: the payload comes back from the descrambler, and the header stands beside it untouched. -/
theorem descramblingUndoesScrambling : Obligations.DescramblingUndoesScrambling := by
  intro h b
  have hhdr : blkHdr (scrambleBlk h b).2 = blkHdr b := blkHdr_append _ _
  have hpay : (scrambleBlk h b).2.extractLsb' 2 64 = (scramble h (b.extractLsb' 2 64)).2 :=
    (BitVec.extractLsb'_append_eq_of_le (by decide)).trans BitVec.extractLsb'_eq_self
  have hsplit : b.extractLsb' 2 64 ++ blkHdr b = b := 
    (BitVec.extractLsb'_append_extractLsb'_eq_extractLsb' rfl).trans BitVec.extractLsb'_eq_self
  refine ⟨?_, hhdr⟩
  unfold descrambleBlk
  rw [hhdr, hpay, descramble_scramble]
  exact Prod.ext rfl hsplit

end Sys2Proof.Machine
end

section
/-! The machine as a whole: the queue, the frame of a command, reset, the store byte by byte, the wire words and the opcode map. -/

namespace Sys2Proof.Machine

/-- Settles O1: `step` is `exec` of the queue's head, and rests on an empty queue. -/
theorem stepRunsTheFrontCommand : Obligations.StepRunsTheFrontCommand := by
  refine ⟨fun _ _ _ => rfl, fun s h => ?_⟩
  unfold step
  rw [h]

/-- Every command's meaning is the effect of a guard and a function. -/
theorem exec_next (c : Instr) (s : State) : ∃ u, exec c s = .next u := by
  cases c <;> exact ⟨_, rfl⟩

theorem safe_of_any_state (s : State) : Safe s := by
  cases hp : s.pending with
  | nil => exact ⟨s, stepRunsTheFrontCommand.2 s hp⟩
  | cons c rest =>
    obtain ⟨u, hu⟩ := exec_next c { s with pending := rest }
    refine ⟨u, ?_⟩
    unfold step
    rw [hp]
    exact hu

/-- Nothing is due where every due time lies ahead. -/
theorem firstDue_of_all_later {t : Nat} {s : State} (h : ∀ x ∈ dues s, t < x.1) : firstDue t s = none := by
  have hnil : (dues s).filter (·.1 ≤ t) = [] := List.filter_eq_nil_iff.2 fun x hx => by simpa using h x hx
  unfold firstDue
  rw [hnil]
  rfl

/-- What follows an effect that fired no trigger touches only port M's record of attention. -/
theorem finish_of_unfired {u : State} (h : u.diag.fired = false) : ∃ c sf st bu,
    finish u = { u with portM := { u.portM with causes := c, lastSafety := sf, lastState := st, lastBusy := bu } } := by
  unfold finish
  rw [if_neg (by rw [h]; exact Bool.false_ne_true)]
  unfold noteAttention
  split
  · exact ⟨u.portM.causes, u.portM.lastSafety, u.portM.lastState, u.portM.lastBusy, rfl⟩
  · exact ⟨_, _, _, _, rfl⟩

/-- Settles O2: every meaning is an effect, which begins by the clock alone where nothing is due and ends in the record of attention. -/
theorem everyCommandAnswersInItsFrame : Obligations.EveryCommandAnswersInItsFrame :=
  ⟨safe_of_any_state, fun _ _ h => begin_quiet (firstDue_of_all_later h), fun _ h => finish_of_unfired h⟩

/-- Settles O3: each field of the reset state is read off. -/
theorem resetLeavesWhatTheSpecGives : Obligations.ResetLeavesWhatTheSpecGives := by
  unfold Obligations.ResetLeavesWhatTheSpecGives
  dsimp only
  refine ⟨by decide, by decide, by decide, by decide, by decide +kernel, by decide +kernel, ?leases, rfl, rfl, rfl, fun _ _ _ _ => rfl, rfl, rfl, rfl, rfl, rfl⟩
  case leases =>
    intro d
    by_cases hd : d < 15
    · have hall : ∀ d < 15, (leaseAt State.reset d).holder = none := by decide +kernel
      exact hall d hd
    · unfold leaseAt
      rw [List.getElem?_eq_none (by rw [Vector.length_toList]; omega)]
      rfl

/-- Settles O4. -/
theorem resetStoreIsCanonical : Obligations.ResetStoreIsCanonical := rfl

/-- Settles O6 from the laws of the store: what a write leaves, and what an unlisted byte reads as. -/
theorem storeReadsWhatWasWritten : Obligations.StoreReadsWhatWasWritten := by
  intro c a x b hwf ha
  refine ⟨putByte_wf a b c hwf, storeByte_putByte a x b c hwf ha, fun hx => ?_⟩
  unfold storeByte
  rw [hx]

/-- Settles O10 by evaluating each word. -/
theorem wireWordsAreRight : Obligations.WireWordsAreRight := by
  unfold Obligations.WireWordsAreRight
  decide +kernel

/-- Settles O21 by evaluating the command list. -/
theorem everyOpcodeNamesOneCommand : Obligations.EveryOpcodeNamesOneCommand := by
  unfold Obligations.EveryOpcodeNamesOneCommand
  decide +kernel

end Sys2Proof.Machine
end

section
/-! The canonical form of the correction store, read through the state: it rests on the store's bytes and backgrounds alone, so that whatever leaves those two leaves it (R257, R264). -/

namespace Sys2Proof.Machine

/-- The canonical form of bytes over backgrounds. -/
def storeForm (cells : List Host.Cell) (fill : SMap Fill) : Bool := Correction.wf { cells, fill }

@[simp] theorem storeForm_of_correction (c : Correction) : storeForm c.cells c.fill = c.wf := rfl

@[simp] theorem wf_mk (pipes subst prev gapUntilCut inQ outQ dir cells fill eccBad storeLost selfRefresh queue scrubPos use_ gapLine reader) :
    Correction.wf ⟨pipes, subst, prev, gapUntilCut, inQ, outQ, dir, cells, fill, eccBad, storeLost, selfRefresh, queue, scrubPos, use_, gapLine, reader⟩ =
      storeForm cells fill := rfl

@[simp] theorem wf_corr_iff (s : State) : s.corr.wf = true ↔ StoreCanonical s := Iff.rfl

@[simp] theorem storeCanonical_mk (now power pins clocks live gals hall cutter corr safety bridge portL portM mbx log upd otp mram mez dbg diag frz ctr free out pending) :
    StoreCanonical ⟨now, power, pins, clocks, live, gals, hall, cutter, corr, safety, bridge, portL, portM, mbx, log, upd, otp, mram, mez, dbg, diag, frz, ctr, free, out,
      pending⟩ ↔ corr.wf = true := Iff.rfl

@[simp] theorem storeCanonical_ite (c : Prop) [Decidable c] (a b : State) :
    StoreCanonical (if c then a else b) ↔ if c then StoreCanonical a else StoreCanonical b := by
  split <;> rfl

/-- The state that a command's body leaves, whether it answers or waits. -/
def Reply.state : Reply → State
  | .done _ _ s => s
  | .wait _ s => s

@[simp] theorem state_done (st : Nat) (p : List Byte) (s : State) : (Reply.done st p s).state = s := rfl

@[simp] theorem state_wait (n : Nat) (s : State) : (Reply.wait n s).state = s := rfl

@[simp] theorem state_fail (st : Nat) (s : State) : (fail st s).state = s := rfl

@[simp] theorem state_okay (p : List Byte) (s : State) : (okay p s).state = s := rfl

@[simp] theorem state_guardR (c : Bool) (st : Nat) (s : State) (k : Reply) : (guardR c st s k).state = if c then k.state else s := by
  unfold guardR
  split <;> rfl

@[simp] theorem state_ite (c : Prop) [Decidable c] (a b : Reply) : (if c then a else b).state = if c then a.state else b.state := by
  split <;> rfl

@[simp] theorem storeCanonical_onGal (q : Req) (s : State) (k : GalIx → Reply) (h : ∀ g, StoreCanonical (k g).state ↔ StoreCanonical s) :
    StoreCanonical (onGal q s k).state ↔ StoreCanonical s := by
  unfold onGal
  split
  · exact h _
  · rfl

@[simp] theorem storeCanonical_doIf (c : Bool) (f : State → State) (s : State) (h : StoreCanonical (f s) ↔ StoreCanonical s) :
    StoreCanonical (doIf c f s) ↔ StoreCanonical s := by
  unfold doIf
  split
  · exact h
  · rfl

/-- An operation done for each element keeps the form where each single one does. -/
@[simp] theorem storeCanonical_forAll {α : Type u} (l : List α) (f : α → State → State) (s : State)
    (h : ∀ a u, StoreCanonical (f a u) ↔ StoreCanonical u) : StoreCanonical (forAll l f s) ↔ StoreCanonical s := by
  unfold forAll
  induction l generalizing s with
  | nil => rfl
  | cons a l ih => exact (ih (f a s)).trans (h a s)

/-- A command whose own work leaves the store's form as it was. -/
def BodyKeepsStore (c : Cmd) : Prop := ∀ q s, StoreCanonical (c.body q s).state ↔ StoreCanonical s

/-! The operations of Sys2Proof/Machine/Ops.lean. -/

@[simp] theorem storeCanonical_emit (o : Output) (s : State) : StoreCanonical (emit o s) ↔ StoreCanonical s := Iff.rfl

@[simp] theorem storeCanonical_modGal (g : GalIx) (f : Gal → Gal) (s : State) : StoreCanonical (modGal g f s) ↔ StoreCanonical s := Iff.rfl

@[simp] theorem storeCanonical_modRx (g : GalIx) (f : RxDir → RxDir) (s : State) : StoreCanonical (modRx g f s) ↔ StoreCanonical s := Iff.rfl

@[simp] theorem storeCanonical_modTx (g : GalIx) (f : TxDir → TxDir) (s : State) : StoreCanonical (modTx g f s) ↔ StoreCanonical s := Iff.rfl

@[simp] theorem storeCanonical_modLane (g : GalIx) (l : LaneIx) (f : Lane → Lane) (s : State) : StoreCanonical (modLane g l f s) ↔ StoreCanonical s := Iff.rfl

@[simp] theorem storeCanonical_countN (id g lane inst n : Nat) (s : State) : StoreCanonical (countN id g lane inst n s) ↔ StoreCanonical s := Iff.rfl

@[simp] theorem storeCanonical_countLane (id : Nat) (g : GalIx) (l : LaneIx) (s : State) : StoreCanonical (countLane id g l s) ↔ StoreCanonical s := Iff.rfl

@[simp] theorem storeCanonical_countGal (id : Nat) (g : GalIx) (inst : Nat) (s : State) : StoreCanonical (countGal id g inst s) ↔ StoreCanonical s := Iff.rfl

@[simp] theorem storeCanonical_countDev (id inst : Nat) (s : State) : StoreCanonical (countDev id inst s) ↔ StoreCanonical s := Iff.rfl

@[simp] theorem storeCanonical_modClocks (f : ClockUnit → ClockUnit) (s : State) : StoreCanonical (modClocks f s) ↔ StoreCanonical s := Iff.rfl

@[simp] theorem storeCanonical_requestSwitch (i : Nat) (toRun : Bool) (incoming : RefSrc) (s : State) : StoreCanonical (requestSwitch i toRun incoming s) ↔ StoreCanonical s := Iff.rfl

@[simp] theorem storeCanonical_lockIsland (g : GalIx) (s : State) : StoreCanonical (lockIsland g s) ↔ StoreCanonical s := Iff.rfl

@[simp] theorem storeCanonical_modDir (r : Nat) (f : DirRec → DirRec) (s : State) : StoreCanonical (modDir r f s) ↔ StoreCanonical s := Iff.rfl

@[simp] theorem storeCanonical_modCorr (f : Correction → Correction) (s : State) : StoreCanonical (modCorr f s) ↔ (f s.corr).wf = true := Iff.rfl

@[simp] theorem storeCanonical_modBridge (f : Bridge → Bridge) (s : State) : StoreCanonical (modBridge f s) ↔ StoreCanonical s := Iff.rfl

@[simp] theorem storeCanonical_modSafety (f : Safety → Safety) (s : State) : StoreCanonical (modSafety f s) ↔ StoreCanonical s := Iff.rfl

@[simp] theorem storeCanonical_drawRandom (s : State) : StoreCanonical (drawRandom s).2 ↔ StoreCanonical s := Iff.rfl

/-! The operations of Sys2Proof/Machine/Routing.lean. -/

@[simp] theorem storeCanonical_originate (p : Parcel) (gs : List GalIx) (s : State) : StoreCanonical (originate p gs s) ↔ StoreCanonical s := Iff.rfl

@[simp] theorem storeCanonical_intoMgmt (port arrival : Nat) (p : Parcel) (s : State) : StoreCanonical (intoMgmt port arrival p s) ↔ StoreCanonical s := Iff.rfl

@[simp] theorem storeCanonical_sendHere (p : Parcel) (s : State) : StoreCanonical (sendHere p s) ↔ StoreCanonical s := Iff.rfl

@[simp] theorem storeCanonical_sendRouted (p : Parcel) (arrival : Option GalIx) (s : State) : StoreCanonical (sendRouted p arrival s).1 ↔ StoreCanonical s := by
  unfold sendRouted
  generalize route s (pDest p) = r
  cases r with
  | fwd gals spread nd => simp [apply_ite Prod.fst]
  | here => simp [apply_ite Prod.fst]
  | _ => cases arrival <;> simp [apply_ite Prod.fst]

/-! The operations of Sys2Proof/Machine/Events.lean. -/

@[simp] theorem storeCanonical_toSink (k : Fin 4) (sev : Nat) (mk : Nat → List Byte) (region : Option Region) (refsData : Bool) (s : State) : StoreCanonical (toSink k sev mk region refsData s) ↔ StoreCanonical s := by
  unfold toSink
  simp

@[simp] theorem storeCanonical_toRing (k : Fin 4) (sev : Nat) (mk : Nat → List Byte) (s : State) : StoreCanonical (toRing k sev mk s) ↔ StoreCanonical s := by
  unfold toRing
  simp

@[simp] theorem storeCanonical_toStream (e : LogEntry) (s : State) : StoreCanonical (toStream e s) ↔ StoreCanonical s := by
  unfold toStream
  split <;> simp

@[simp] theorem storeCanonical_toLog (code sev : Nat) (body : List Byte) (s : State) : StoreCanonical (toLog code sev body s) ↔ StoreCanonical s := by
  unfold toLog
  simp

@[simp] theorem storeCanonical_trigger (code : Nat) (s : State) : StoreCanonical (trigger code s) ↔ StoreCanonical s := by
  unfold trigger
  simp

@[simp] theorem storeCanonical_raiseTo (sinks : Bool) (code : Nat) (body : List Byte) (region : Option Region) (s : State) : StoreCanonical (raiseTo sinks code body region s) ↔ StoreCanonical s := by
  unfold raiseTo
  simp

@[simp] theorem storeCanonical_raise (code : Nat) (body : List Byte) (s : State) : StoreCanonical (raise code body s) ↔ StoreCanonical s := by
  unfold raise
  simp

@[simp] theorem storeCanonical_raiseRegion (code : Nat) (region : Region) (body : List Byte) (s : State) : StoreCanonical (raiseRegion code region body s) ↔ StoreCanonical s := by
  unfold raiseRegion
  simp

/-! The operations of Sys2Proof/Machine/Tread.lean. -/

@[simp] theorem storeCanonical_reportAs (measured : Bool) (g : GalIx) (s : State) : StoreCanonical (reportAs measured g s) ↔ StoreCanonical s := by
  unfold reportAs
  simp

@[simp] theorem storeCanonical_reportCapacity (g : GalIx) (s : State) : StoreCanonical (reportCapacity g s) ↔ StoreCanonical s := by
  unfold reportCapacity
  simp

/-! The operations of Sys2Proof/Machine/SafeOps.lean. -/

@[simp] theorem storeCanonical_afterDevice (s0 s : State) : StoreCanonical (afterDevice s0 s) ↔ StoreCanonical s := by
  unfold afterDevice
  simp

@[simp] theorem storeCanonical_modReg (r : Nat) (f : RegSafe → RegSafe) (s : State) : StoreCanonical (modReg r f s) ↔ StoreCanonical s := Iff.rfl

@[simp] theorem storeCanonical_noteSafety (s : State) : StoreCanonical (noteSafety s) ↔ StoreCanonical s := Iff.rfl

@[simp] theorem storeCanonical_muteRegion (r : Nat) (s : State) : StoreCanonical (muteRegion r s) ↔ StoreCanonical s := by
  unfold muteRegion
  simp

@[simp] theorem storeCanonical_addReason (r : Nat) (reason : SafeReason) (code gallery : Nat) (report : Bool) (s : State) : StoreCanonical (addReason r reason code gallery report s) ↔ StoreCanonical s := by
  unfold addReason
  simp

@[simp] theorem storeCanonical_dropReasons (r : Nat) (f : SafeReason → Bool) (s : State) : StoreCanonical (dropReasons r f s) ↔ StoreCanonical s := Iff.rfl

@[simp] theorem storeCanonical_writeSafety (e : SafetyWait) (s : State) : StoreCanonical (writeSafety e s) ↔ StoreCanonical s := by
  unfold writeSafety
  simp

@[simp] theorem storeCanonical_noteFull (s : State) : StoreCanonical (noteFull s) ↔ StoreCanonical s := by
  unfold noteFull
  simp

@[simp] theorem storeCanonical_safetyLog (requester action target : Nat) (node : BitVec 16) (status cause : Nat) (old new detail : List Byte) (s : State) : StoreCanonical (safetyLog requester action target node status cause old new detail s) ↔ StoreCanonical s := by
  unfold safetyLog
  simp

@[simp] theorem storeCanonical_writeWaiting (s : State) : StoreCanonical (writeWaiting s) ↔ StoreCanonical s := by
  unfold writeWaiting
  simp

@[simp] theorem storeCanonical_lockGroup (grp : Nat) (rec : LockRec) (s : State) : StoreCanonical (lockGroup grp rec s) ↔ StoreCanonical s := by
  unfold lockGroup
  simp

@[simp] theorem storeCanonical_lockDevice (cause which : Nat) (rec : LockRec) (s : State) : StoreCanonical (lockDevice cause which rec s) ↔ StoreCanonical s := by
  unfold lockDevice
  simp

@[simp] theorem storeCanonical_internalTrip (cause which : Nat) (set : Safety → Safety) (s : State) : StoreCanonical (internalTrip cause which set s) ↔ StoreCanonical s := by
  unfold internalTrip
  simp

@[simp] theorem storeCanonical_modMon (r : Nat) (g : GalIx) (f : Mon → Mon) (s : State) : StoreCanonical (modMon r g f s) ↔ StoreCanonical s := Iff.rfl

@[simp] theorem storeCanonical_tripMon (m r : Nat) (g : GalIx) (s : State) : StoreCanonical (tripMon m r g s) ↔ StoreCanonical s := by
  unfold tripMon
  simp
  split <;> simp

@[simp] theorem storeCanonical_clearMon (m r : Nat) (g : GalIx) (s : State) : StoreCanonical (clearMon m r g s) ↔ StoreCanonical s := by
  unfold clearMon
  simp

@[simp] theorem storeCanonical_resetMons (r : Nat) (g : GalIx) (s : State) : StoreCanonical (resetMons r g s) ↔ StoreCanonical s := Iff.rfl

/-! The operations of Sys2Proof/Machine/LeaseOps.lean. -/

@[simp] theorem storeCanonical_setLease (d : Nat) (l : Lease) (s : State) : StoreCanonical (setLease d l s) ↔ StoreCanonical s := by
  unfold setLease
  split <;> simp

@[simp] theorem storeCanonical_endSession (tok : BitVec 32) (s : State) : StoreCanonical (endSession tok s) ↔ StoreCanonical s := by
  unfold endSession
  split <;> simp

@[simp] theorem storeCanonical_releaseRings (w : Holder) (s : State) : StoreCanonical (releaseRings w s) ↔ StoreCanonical s := by
  unfold releaseRings
  simp

@[simp] theorem storeCanonical_endLease (d : Nat) (cause : Option Nat) (s : State) : StoreCanonical (endLease d cause s) ↔ StoreCanonical s := by
  unfold endLease
  dsimp only
  (repeat' split) <;> simp

@[simp] theorem storeCanonical_endLeases (f : Lease → Bool) (cause : Option Nat) (s : State) : StoreCanonical (endLeases f cause s) ↔ StoreCanonical s := by
  unfold endLeases
  simp

@[simp] theorem storeCanonical_dropLeasesOver (g : GalIx) (s : State) : StoreCanonical (dropLeasesOver g s) ↔ StoreCanonical s := by
  unfold dropLeasesOver
  simp

@[simp] theorem storeCanonical_renewLease (d : Nat) (s : State) : StoreCanonical (renewLease d s) ↔ StoreCanonical s := by
  unfold renewLease
  simp

/-! The operations of Sys2Proof/Machine/Window.lean. -/

@[simp] theorem storeCanonical_noteAttention (s : State) : StoreCanonical (noteAttention s) ↔ StoreCanonical s := by
  unfold noteAttention
  simp

/-! The operations of Sys2Proof/Machine/Frames.lean. -/

@[simp] theorem storeCanonical_modRing (h : HostId) (f : Ring → Ring) (s : State) : StoreCanonical (modRing h f s) ↔ StoreCanonical s := Iff.rfl

@[simp] theorem storeCanonical_pushRsp (h : HostId) (src : BitVec 16) (bytes : List Byte) (s : State) : StoreCanonical (pushRsp h src bytes s) ↔ StoreCanonical s := by
  unfold pushRsp
  simp

@[simp] theorem storeCanonical_hwAnswer (h : HostId) (src : BitVec 16) (op tag token seq status : Nat) (s : State) : StoreCanonical (hwAnswer h src op tag token seq status s) ↔ StoreCanonical s := by
  unfold hwAnswer
  simp

@[simp] theorem storeCanonical_busyWaiting (h : HostId) (s : State) : StoreCanonical (busyWaiting h s) ↔ StoreCanonical s := by
  unfold busyWaiting
  split <;> simp

@[simp] theorem storeCanonical_answerWait (h : HostId) (status : Nat) (payload : List Byte) (s : State) : StoreCanonical (answerWait h status payload s) ↔ StoreCanonical s := by
  unfold answerWait
  split <;> simp

@[simp] theorem storeCanonical_answerWaiting (f : Waiting → Bool) (status : Nat) (payload : List Byte) (s : State) : StoreCanonical (answerWaiting f status payload s) ↔ StoreCanonical s := by
  unfold answerWaiting
  refine storeCanonical_forAll _ _ _ fun h u => ?_
  split <;> simp

/-! The operations of Sys2Proof/Machine/Restart.lean. -/

@[simp] theorem storeCanonical_setLevel (n : Nat) (byToken : Bool) (s : State) : StoreCanonical (setLevel n byToken s) ↔ StoreCanonical s := Iff.rfl

@[simp] theorem storeCanonical_endToken (s : State) : StoreCanonical (endToken s) ↔ StoreCanonical s := Iff.rfl

@[simp] theorem storeCanonical_endArmed (s : State) : StoreCanonical (endArmed s) ↔ StoreCanonical s := Iff.rfl

@[simp] theorem storeCanonical_discardPending (s : State) : StoreCanonical (discardPending s) ↔ StoreCanonical s := by
  unfold discardPending
  simp

@[simp] theorem storeCanonical_cutterRestart (s : State) : StoreCanonical (cutterRestart s) ↔ StoreCanonical s := by
  unfold cutterRestart
  simp

@[simp] theorem storeCanonical_bridgeRestart (s : State) : StoreCanonical (bridgeRestart s) ↔ StoreCanonical s := Iff.rfl

@[simp] theorem storeCanonical_mezRestart (s : State) : StoreCanonical (mezRestart s) ↔ StoreCanonical s := by
  unfold mezRestart
  simp

@[simp] theorem storeCanonical_releaseReset (s : State) : StoreCanonical (releaseReset s) ↔ StoreCanonical s := Iff.rfl

/-! The operations of Sys2Proof/Machine/Freeze.lean. -/

@[simp] theorem storeCanonical_freezeNow (cause : Nat) (s : State) : StoreCanonical (freezeNow cause s) ↔ StoreCanonical s := by
  unfold freezeNow
  simp

@[simp] theorem storeCanonical_endPrbs (g : GalIx) (s : State) : StoreCanonical (endPrbs g s) ↔ StoreCanonical s := Iff.rfl

/-! The operations of Sys2Proof/Machine/Effect.lean. -/

@[simp] theorem storeCanonical_finish (s : State) : StoreCanonical (finish s) ↔ StoreCanonical s := by
  unfold finish
  simp

/-! The operations of Sys2Proof/Machine/Table.lean. -/

@[simp] theorem storeCanonical_loseTable (s : State) : StoreCanonical (loseTable s) ↔ StoreCanonical s := by
  unfold loseTable
  simp

@[simp] theorem storeCanonical_fenceCopy (b : Bool) (r : Nat) (s : State) : StoreCanonical (fenceCopy b r s) ↔ StoreCanonical s := by
  unfold fenceCopy
  simp

@[simp] theorem storeCanonical_readEntry (r : Nat) (s : State) : StoreCanonical (readEntry r s).2 ↔ StoreCanonical s := by
  unfold readEntry
  dsimp only
  (repeat' split) <;> simp

@[simp] theorem storeCanonical_audit (r : Nat) (s : State) : StoreCanonical (audit r s) ↔ StoreCanonical s := by
  unfold audit
  simp

@[simp] theorem storeCanonical_auditAll (s : State) : StoreCanonical (auditAll s) ↔ StoreCanonical s := by
  unfold auditAll
  simp

@[simp] theorem storeCanonical_putForce (r : Nat) (e : Entry) (s : State) : StoreCanonical (putForce r e s) ↔ StoreCanonical s := Iff.rfl

@[simp] theorem storeCanonical_putPend (r : Nat) (e : Option PendEntry) (s : State) : StoreCanonical (putPend r e s) ↔ StoreCanonical s := Iff.rfl

@[simp] theorem storeCanonical_modRegionIn (r : Nat) (f : RegionIn → RegionIn) (s : State) : StoreCanonical (modRegionIn r f s) ↔ StoreCanonical s := Iff.rfl

@[simp] theorem storeCanonical_followSwitch (r : Nat) (e : Entry) (s : State) : StoreCanonical (followSwitch r e s) ↔ StoreCanonical s := by
  unfold followSwitch
  split <;> simp

@[simp] theorem storeCanonical_switchInput (r : Nat) (s : State) : StoreCanonical (switchInput r s) ↔ StoreCanonical s := by
  unfold switchInput
  simp

@[simp] theorem storeCanonical_switchAway (g : GalIx) (s : State) : StoreCanonical (switchAway g s) ↔ StoreCanonical s := by
  unfold switchAway
  simp

/-! The operations of Sys2Proof/Machine/Loss.lean. -/

@[simp] theorem storeCanonical_dropStored (g : GalIx) (k : Cls) (n : Nat) (s : State) : StoreCanonical (dropStored g k n s) ↔ StoreCanonical s := Iff.rfl

@[simp] theorem storeCanonical_pushEgress (g : GalIx) (k : Cls) (i : QItem) (s : State) : StoreCanonical (pushEgress g k i s) ↔ StoreCanonical s := Iff.rfl

@[simp] theorem storeCanonical_sendGap (gs : List GalIx) (here : Bool) (b : Gap) (s : State) : StoreCanonical (sendGap gs here b s) ↔ StoreCanonical s := by
  unfold sendGap
  simp

@[simp] theorem storeCanonical_lossGaps (g : GalIx) (s : State) : StoreCanonical (lossGaps g s) ↔ StoreCanonical s := by
  unfold lossGaps
  refine storeCanonical_forAll _ _ _ fun r u => ?_
  split <;> simp

/-- Counting once for each element leaves the store. -/
theorem storeCanonical_countAll {α : Type u} (id : Nat) (l : List α) (s : State) :
    StoreCanonical (l.foldl (fun u _ => countDev id 0 u) s) ↔ StoreCanonical s :=
  storeCanonical_forAll l (fun _ => countDev id 0) s fun _ => storeCanonical_countDev id 0

@[simp] theorem storeCanonical_dropTargets (g : GalIx) (s : State) : StoreCanonical (dropTargets g s) ↔ StoreCanonical s := by
  unfold dropTargets
  generalize 0x43B = n
  refine (storeCanonical_countAll _ _ _).trans ?_
  simp only [storeCanonical_mk, wf_mk, storeForm_of_correction, wf_corr_iff]
  refine storeCanonical_forAll _ _ _ fun h u => storeCanonical_forAll _ _ _ fun k u => ?_
  exact (storeCanonical_doIf _ _ _ (storeCanonical_countAll _ _ _)).trans (by simp)

@[simp] theorem storeCanonical_clearTraffic (g : GalIx) (s : State) : StoreCanonical (clearTraffic g s) ↔ StoreCanonical s := Iff.rfl

@[simp] theorem storeCanonical_clearPort (g : GalIx) (s : State) : StoreCanonical (clearPort g s) ↔ StoreCanonical s := Iff.rfl

@[simp] theorem storeCanonical_dropTraffic (g : GalIx) (s : State) : StoreCanonical (dropTraffic g s) ↔ StoreCanonical s := by
  unfold dropTraffic
  simp

@[simp] theorem storeCanonical_loseGallery (g : GalIx) (cause : Nat) (s : State) : StoreCanonical (loseGallery g cause s) ↔ StoreCanonical s := by
  unfold loseGallery
  simp

/-! The operations of Sys2Proof/Machine/Hop.lean. -/

@[simp] theorem storeCanonical_queueHop (g : GalIx) (ps : List (Option Nat)) (lanes : BitVec 8) (h : Hop) (s : State) : StoreCanonical (queueHop g ps lanes h s) ↔ StoreCanonical s := by
  unfold queueHop
  simp

@[simp] theorem storeCanonical_sendHop (g : GalIx) (lanes : BitVec 8) (h : Hop) (s : State) : StoreCanonical (sendHop g lanes h s) ↔ StoreCanonical s := by
  unfold sendHop
  simp

@[simp] theorem storeCanonical_sendAll (g : GalIx) (h : Hop) (s : State) : StoreCanonical (sendAll g h s) ↔ StoreCanonical s := by
  unfold sendAll
  simp

@[simp] theorem storeCanonical_sendAny (g : GalIx) (h : Hop) (s : State) : StoreCanonical (sendAny g h s) ↔ StoreCanonical s := by
  unfold sendAny
  simp

@[simp] theorem storeCanonical_sendWhere (g : GalIx) (d : RepTo) (h : Hop) (s : State) : StoreCanonical (sendWhere g d h s) ↔ StoreCanonical s := by
  unfold sendWhere
  split <;> simp

@[simp] theorem storeCanonical_sendRep (g : GalIx) (d : RepTo) (every : Nat) (left : Option Nat) (h : Hop) (s : State) : StoreCanonical (sendRep g d every left h s) ↔ StoreCanonical s := by
  unfold sendRep
  simp

@[simp] theorem storeCanonical_stopRep (g : GalIx) (f : Hop → Bool) (s : State) : StoreCanonical (stopRep g f s) ↔ StoreCanonical s := Iff.rfl

@[simp] theorem storeCanonical_runRepeats (g : GalIx) (s : State) : StoreCanonical (runRepeats g s) ↔ StoreCanonical s := by
  unfold runRepeats
  simp

@[simp] theorem storeCanonical_takeHop (g : GalIx) (h : Hop) (s : State) : StoreCanonical (takeHop g h s) ↔ StoreCanonical s := Iff.rfl

@[simp] theorem storeCanonical_sendBlk (g : GalIx) (p : Nat) (b : Block) (s : State) : StoreCanonical (sendBlk g p b s) ↔ StoreCanonical s := Iff.rfl

@[simp] theorem storeCanonical_txChange (g : GalIx) (seq : Nat) (f : BitVec 8 → BitVec 8) (s : State) : StoreCanonical (txChange g seq f s) ↔ StoreCanonical s := Iff.rfl

@[simp] theorem storeCanonical_rxChange (g : GalIx) (seq : Nat) (f : BitVec 8 → BitVec 8) (s : State) : StoreCanonical (rxChange g seq f s) ↔ StoreCanonical s := Iff.rfl

@[simp] theorem storeCanonical_idleEnter (g : GalIx) (m : BitVec 8) (clk : Bool) (s : State) : StoreCanonical (idleEnter g m clk s) ↔ StoreCanonical s := by
  unfold idleEnter
  simp

@[simp] theorem storeCanonical_driveOff (g : GalIx) (p : Nat) (s : State) : StoreCanonical (driveOff g p s) ↔ StoreCanonical s := Iff.rfl

@[simp] theorem storeCanonical_tackLanes (g : GalIx) (w : List Nat) (wait : Nat) (s : State) : StoreCanonical (tackLanes g w wait s) ↔ StoreCanonical s := by
  unfold tackLanes
  simp

@[simp] theorem storeCanonical_startPreamble (g : GalIx) (w : List Nat) (s : State) : StoreCanonical (startPreamble g w s) ↔ StoreCanonical s := by
  unfold startPreamble
  simp

@[simp] theorem storeCanonical_wakeLanes (g : GalIx) (m : BitVec 8) (s : State) : StoreCanonical (wakeLanes g m s) ↔ StoreCanonical s := by
  unfold wakeLanes
  simp

@[simp] theorem storeCanonical_applyMask (g : GalIx) (m : BitVec 8) (clk : Bool) (s : State) : StoreCanonical (applyMask g m clk s) ↔ StoreCanonical s := by
  unfold applyMask
  simp

@[simp] theorem storeCanonical_latchRx (g : GalIx) (s : State) : StoreCanonical (latchRx g s) ↔ StoreCanonical s := Iff.rfl

@[simp] theorem storeCanonical_latchTx (g : GalIx) (s : State) : StoreCanonical (latchTx g s) ↔ StoreCanonical s := Iff.rfl

@[simp] theorem storeCanonical_enterDetect (g : GalIx) (s : State) : StoreCanonical (enterDetect g s) ↔ StoreCanonical s := by
  unfold enterDetect
  simp

@[simp] theorem storeCanonical_silence (g : GalIx) (s : State) : StoreCanonical (silence g s) ↔ StoreCanonical s := by
  unfold silence
  simp

@[simp] theorem storeCanonical_failAttempt (g : GalIx) (reason : Nat) (noBackoff : Bool) (s : State) : StoreCanonical (failAttempt g reason noBackoff s) ↔ StoreCanonical s := by
  unfold failAttempt
  simp

@[simp] theorem storeCanonical_retrainFull (g : GalIx) (s : State) : StoreCanonical (retrainFull g s) ↔ StoreCanonical s := by
  unfold retrainFull
  simp

@[simp] theorem storeCanonical_sendCaps (g : GalIx) (heard : Bool) (s : State) : StoreCanonical (sendCaps g heard s) ↔ StoreCanonical s := by
  unfold sendCaps
  simp

@[simp] theorem storeCanonical_enterExchange (g : GalIx) (s : State) : StoreCanonical (enterExchange g s) ↔ StoreCanonical s := by
  unfold enterExchange
  simp

@[simp] theorem storeCanonical_tryQual (g : GalIx) (s : State) : StoreCanonical (tryQual g s) ↔ StoreCanonical s := by
  unfold tryQual
  simp

@[simp] theorem storeCanonical_eqRequest (g : GalIx) (p request : Nat) (s : State) : StoreCanonical (eqRequest g p request s) ↔ StoreCanonical s := by
  unfold eqRequest
  simp

@[simp] theorem storeCanonical_laneCheck (g : GalIx) (p : Nat) (action : BitVec 3) (s : State) : StoreCanonical (laneCheck g p action s) ↔ StoreCanonical s := by
  unfold laneCheck
  simp

@[simp] theorem storeCanonical_eqDone (g : GalIx) (p : Nat) (s : State) : StoreCanonical (eqDone g p s) ↔ StoreCanonical s := by
  unfold eqDone
  simp

@[simp] theorem storeCanonical_beginEq (g : GalIx) (p : Nat) (s : State) : StoreCanonical (beginEq g p s) ↔ StoreCanonical s := by
  unfold beginEq
  dsimp only
  (repeat' split) <;> simp

@[simp] theorem storeCanonical_startEqualise (g : GalIx) (s : State) : StoreCanonical (startEqualise g s) ↔ StoreCanonical s := by
  unfold startEqualise
  simp

@[simp] theorem storeCanonical_requalify (g : GalIx) (s : State) : StoreCanonical (requalify g s) ↔ StoreCanonical s := by
  unfold requalify
  simp

@[simp] theorem storeCanonical_relockLanes (g : GalIx) (s : State) : StoreCanonical (relockLanes g s) ↔ StoreCanonical s := Iff.rfl

@[simp] theorem storeCanonical_rxClock (g : GalIx) (t : Tread) (s : State) : StoreCanonical (rxClock g t s) ↔ StoreCanonical s := Iff.rfl

@[simp] theorem storeCanonical_txClock (g : GalIx) (t : Tread) (s : State) : StoreCanonical (txClock g t s) ↔ StoreCanonical s := by
  unfold txClock
  simp

@[simp] theorem storeCanonical_endAlign (g : GalIx) (s : State) : StoreCanonical (endAlign g s) ↔ StoreCanonical s := by
  unfold endAlign
  simp

@[simp] theorem storeCanonical_sendResult (g : GalIx) (s : State) : StoreCanonical (sendResult g s) ↔ StoreCanonical s := by
  unfold sendResult
  simp

@[simp] theorem storeCanonical_tryResult (g : GalIx) (s : State) : StoreCanonical (tryResult g s) ↔ StoreCanonical s := by
  unfold tryResult
  simp

@[simp] theorem storeCanonical_checkAlign (g : GalIx) (s : State) : StoreCanonical (checkAlign g s) ↔ StoreCanonical s := by
  unfold checkAlign
  simp

@[simp] theorem storeCanonical_startStep (g : GalIx) (to_ : Tread) (reason : Nat) (s : State) : StoreCanonical (startStep g to_ reason s) ↔ StoreCanonical s := by
  unfold startStep
  simp

@[simp] theorem storeCanonical_answerRetrain (g : GalIx) (r : RetrainBlk) (s : State) : StoreCanonical (answerRetrain g r s) ↔ StoreCanonical s := by
  unfold answerRetrain
  simp

@[simp] theorem storeCanonical_answerHeld (g : GalIx) (s : State) : StoreCanonical (answerHeld g s) ↔ StoreCanonical s := by
  unfold answerHeld
  simp
  split <;> simp

@[simp] theorem storeCanonical_requestStep (g : GalIx) (tread reason : Nat) (s : State) : StoreCanonical (requestStep g tread reason s) ↔ StoreCanonical s := by
  unfold requestStep
  simp

@[simp] theorem storeCanonical_stepDownTrigger (g : GalIx) (s : State) : StoreCanonical (stepDownTrigger g s) ↔ StoreCanonical s := by
  unfold stepDownTrigger
  simp

@[simp] theorem storeCanonical_abandonRx (g : GalIx) (l : LaneIx) (s : State) : StoreCanonical (abandonRx g l s) ↔ StoreCanonical s := by
  unfold abandonRx
  simp

@[simp] theorem storeCanonical_sendLoss (g : GalIx) (s : State) : StoreCanonical (sendLoss g s) ↔ StoreCanonical s := by
  unfold sendLoss
  simp

@[simp] theorem storeCanonical_newLoss (g : GalIx) (s : State) : StoreCanonical (newLoss g s) ↔ StoreCanonical s := by
  unfold newLoss
  simp

@[simp] theorem storeCanonical_stepEnd (g : GalIx) (pos : Nat) (s : State) : StoreCanonical (failedRejoin.stepEnd g pos s) ↔ StoreCanonical s := by
  unfold failedRejoin.stepEnd
  simp

@[simp] theorem storeCanonical_failedRejoin (g : GalIx) (pos step : Nat) (s : State) : StoreCanonical (failedRejoin g pos step s) ↔ StoreCanonical s := by
  unfold failedRejoin
  dsimp only
  split <;> simp


@[simp] theorem storeCanonical_dropHeld (g : GalIx) (k : Nat × Nat) (s : State) : StoreCanonical (dropHeld g k s) ↔ StoreCanonical s := Iff.rfl

@[simp] theorem storeCanonical_laneFail (g : GalIx) (l : LaneIx) (reason : Nat) (s : State) : StoreCanonical (laneFail g l reason s) ↔ StoreCanonical s := by
  unfold laneFail
  simp

/-! The operations of Sys2Proof/Machine/Credits.lean. -/

@[simp] theorem storeCanonical_sendCredit (g : GalIx) (h : Hop) (s : State) : StoreCanonical (sendCredit g h s) ↔ StoreCanonical s := by
  unfold sendCredit
  simp

@[simp] theorem storeCanonical_sendCreditA (g : GalIx) (s : State) : StoreCanonical (sendCreditA g s) ↔ StoreCanonical s := by
  unfold sendCreditA
  simp

@[simp] theorem storeCanonical_sendCreditB (g : GalIx) (s : State) : StoreCanonical (sendCreditB g s) ↔ StoreCanonical s := by
  unfold sendCreditB
  simp

@[simp] theorem storeCanonical_sendCredits (g : GalIx) (s : State) : StoreCanonical (sendCredits g s) ↔ StoreCanonical s := by
  unfold sendCredits
  simp

@[simp] theorem storeCanonical_creditsAdvanced (g : GalIx) (old : PerClass Nat) (s : State) : StoreCanonical (creditsAdvanced g old s) ↔ StoreCanonical s := by
  unfold creditsAdvanced
  simp

@[simp] theorem storeCanonical_advance (g : GalIx) (s : State) : StoreCanonical (advance g s) ↔ StoreCanonical s := by
  unfold advance
  simp

@[simp] theorem storeCanonical_updateLimits (g : GalIx) (s : State) : StoreCanonical (updateLimits g s) ↔ StoreCanonical s := by
  unfold updateLimits
  simp

@[simp] theorem storeCanonical_creditStore (g : GalIx) (k : Cls) (len : Nat) (s : State) : StoreCanonical (creditStore g k len s) ↔ StoreCanonical s := by
  unfold creditStore
  simp

@[simp] theorem storeCanonical_creditFree (g : GalIx) (k : Cls) (len : Nat) (s : State) : StoreCanonical (creditFree g k len s) ↔ StoreCanonical s := by
  unfold creditFree
  simp

@[simp] theorem storeCanonical_creditSend (g : GalIx) (k : Cls) (len : Nat) (s : State) : StoreCanonical (creditSend g k len s) ↔ StoreCanonical s := Iff.rfl

@[simp] theorem storeCanonical_setDemand (g : GalIx) (k : Cls) (on : Bool) (s : State) : StoreCanonical (setDemand g k on s) ↔ StoreCanonical s := by
  unfold setDemand
  simp

@[simp] theorem storeCanonical_startCreditsTx (g : GalIx) (s : State) : StoreCanonical (startCreditsTx g s) ↔ StoreCanonical s := Iff.rfl

@[simp] theorem storeCanonical_startProbe (g : GalIx) (s : State) : StoreCanonical (startProbe g s) ↔ StoreCanonical s := by
  unfold startProbe
  simp

@[simp] theorem storeCanonical_sendInfo (g : GalIx) (s : State) : StoreCanonical (sendInfo g s) ↔ StoreCanonical s := by
  unfold sendInfo
  simp

@[simp] theorem storeCanonical_sendSent (g : GalIx) (s : State) : StoreCanonical (sendSent g s) ↔ StoreCanonical s := by
  unfold sendSent
  simp

@[simp] theorem storeCanonical_startCreditsRx (g : GalIx) (restep : Bool) (s : State) : StoreCanonical (startCreditsRx g restep s) ↔ StoreCanonical s := by
  unfold startCreditsRx
  simp

@[simp] theorem storeCanonical_noteBase (g : GalIx) (s : State) : StoreCanonical (noteBase g s) ↔ StoreCanonical s := Iff.rfl

@[simp] theorem storeCanonical_recover (g : GalIx) (k : Cls) (v : Nat) (s : State) : StoreCanonical (recover g k v s) ↔ StoreCanonical s := by
  unfold recover
  simp

@[simp] theorem storeCanonical_recoverSent (g : GalIx) (h : Hop) (s : State) : StoreCanonical (recoverSent g h s) ↔ StoreCanonical s := by
  unfold recoverSent
  split <;> simp

@[simp] theorem storeCanonical_dueSent (g : GalIx) (seq : Nat) (s : State) : StoreCanonical (dueSent g seq s) ↔ StoreCanonical s := by
  unfold dueSent
  simp

@[simp] theorem storeCanonical_takeSent (g : GalIx) (h : Hop) (s : State) : StoreCanonical (takeSent g h s) ↔ StoreCanonical s := by
  unfold takeSent
  simp

/-! The operations of Sys2Proof/Machine/Receive.lean. -/

@[simp] theorem storeCanonical_dropOpen (g : GalIx) (s : State) : StoreCanonical (dropOpen g s) ↔ StoreCanonical s := by
  unfold dropOpen
  split <;> simp

@[simp] theorem storeCanonical_framing (g : GalIx) (s : State) : StoreCanonical (framing g s) ↔ StoreCanonical s := by
  unfold framing
  simp

@[simp] theorem storeCanonical_streamErrored (g : GalIx) (s : State) : StoreCanonical (streamErrored g s) ↔ StoreCanonical s := by
  unfold streamErrored
  simp

@[simp] theorem storeCanonical_streamBlock (g : GalIx) (b : Block) (s : State) : StoreCanonical (streamBlock g b s) ↔ StoreCanonical s := by
  unfold streamBlock
  generalize blkKind b = k
  generalize (galAt s g).rx = r
  cases k with
  | data bs =>
    dsimp only
    cases r.open_ <;> simp
  | fin n poisoned bs =>
    dsimp only
    cases r.open_ with
    | none => simp
    | some o =>
      dsimp only
      split
      · cases parcelOf (o.bytes ++ bs.take n) poisoned <;> simp
      · simp
  | _ => simp

@[simp] theorem storeCanonical_walkCell (g : GalIx) (c : SlotC) (s : State) : StoreCanonical (walkCell g c s) ↔ StoreCanonical s := by
  unfold walkCell
  split <;> simp

@[simp] theorem storeCanonical_rejoinNow (g : GalIx) (pos : Nat) (s : State) : StoreCanonical (rejoinNow g pos s) ↔ StoreCanonical s := by
  unfold rejoinNow
  simp

@[simp] theorem storeCanonical_enterPeriod (g : GalIx) (s : State) : StoreCanonical (enterPeriod g s) ↔ StoreCanonical s := by
  unfold enterPeriod
  simp
  split <;> simp

@[simp] theorem storeCanonical_walkTo (g : GalIx) (k : Nat × Nat) (s : State) : StoreCanonical (walkTo g k s) ↔ StoreCanonical s := Iff.rfl

@[simp] theorem storeCanonical_walk (g : GalIx) (n : Nat) (s : State) : StoreCanonical (walk g n s) ↔ StoreCanonical s := by
  induction n generalizing s with
  | zero => rfl
  | succ n ih =>
    unfold walk
    dsimp only
    split
    · rfl
    · split
      · simp [ih]
      · split
        · rfl
        · split
          · split <;> simp [ih]
          · split <;> simp [ih]

@[simp] theorem storeCanonical_pushSlot (g : GalIx) (l : LaneIx) (k : Nat × Nat) (c : SlotC) (s : State) : StoreCanonical (pushSlot g l k c s) ↔ StoreCanonical s := by
  unfold pushSlot
  split <;> simp

@[simp] theorem storeCanonical_deskewCheck (g : GalIx) (s : State) : StoreCanonical (deskewCheck g s) ↔ StoreCanonical s := by
  unfold deskewCheck
  simp

@[simp] theorem storeCanonical_walkOn (g : GalIx) (s : State) : StoreCanonical (walkOn g s) ↔ StoreCanonical s := by
  unfold walkOn
  simp

@[simp] theorem storeCanonical_seamReads (g : GalIx) (l : LaneIx) (n : Nat) (s : State) : StoreCanonical (seamReads g l n s) ↔ StoreCanonical s := Iff.rfl

@[simp] theorem storeCanonical_seamWrite (g : GalIx) (l : LaneIx) (idle : Bool) (c : SlotC) (s : State) : StoreCanonical (seamWrite g l idle c s).2 ↔ StoreCanonical s := by
  unfold seamWrite
  dsimp only
  (repeat' split) <;> simp

@[simp] theorem storeCanonical_takeReplay (g : GalIx) (r : ReplayBlk) (s : State) : StoreCanonical (takeReplay g r s) ↔ StoreCanonical s := by
  unfold takeReplay
  simp

@[simp] theorem storeCanonical_takeRejoin (g : GalIx) (r : RejoinBlk) (s : State) : StoreCanonical (takeRejoin g r s) ↔ StoreCanonical s := by
  unfold takeRejoin
  simp

@[simp] theorem storeCanonical_countFaults (g : GalIx) (l : LaneIx) (kind : BlkKind) (s : State) : StoreCanonical (countFaults g l kind s) ↔ StoreCanonical s := by
  unfold countFaults
  generalize (galAt s g).rx.fec = fec
  cases kind with
  | hop h =>
    cases h with
    | none => simp
    | some h => cases h <;> simp
  | _ => simp

@[simp] theorem storeCanonical_takeLocal (g : GalIx) (l : LaneIx) (seq : Nat) (h : Hop) (s : State) : StoreCanonical (takeLocal g l seq h s) ↔ StoreCanonical s := by
  unfold takeLocal
  split <;> simp

@[simp] theorem storeCanonical_takeSlot (g : GalIx) (l : LaneIx) (k : Nat × Nat) (reads : Nat) (b : Block) (s : State) : StoreCanonical (takeSlot g l k reads b s) ↔ StoreCanonical s := by
  unfold takeSlot
  simp
  split <;> simp

@[simp] theorem storeCanonical_cwLose (g : GalIx) (l : LaneIx) (reason : Nat) (s : State) : StoreCanonical (cwLose g l reason s) ↔ StoreCanonical s := by
  unfold cwLose
  simp

@[simp] theorem storeCanonical_takeSideband (g : GalIx) (v : BitVec 16) (s : State) : StoreCanonical (takeSideband g v s) ↔ StoreCanonical s := Iff.rfl

@[simp] theorem storeCanonical_errSlot (g : GalIx) (l : LaneIx) (k : Nat × Nat) (reads : Nat) (s : State) : StoreCanonical (errSlot g l k reads s) ↔ StoreCanonical s := by
  unfold errSlot
  simp

@[simp] theorem storeCanonical_cwBad (g : GalIx) (l : LaneIx) (next : Option Nat) (reads : List Nat) (s : State) : StoreCanonical (cwBad g l next reads s) ↔ StoreCanonical s := by
  unfold cwBad
  split <;> simp

@[simp] theorem storeCanonical_takeCw (g : GalIx) (l : LaneIx) (cw : BitVec 5440) (reads : List Nat) (s : State) : StoreCanonical (takeCw g l cw reads s) ↔ StoreCanonical s := by
  unfold takeCw
  split <;> simp

@[simp] theorem storeCanonical_receiveCw (g : GalIx) (l : LaneIx) (bits0 : BitVec 5440) (reads : List Nat) (s : State) : StoreCanonical (receiveCw g l bits0 reads s) ↔ StoreCanonical s := by
  unfold receiveCw
  dsimp only
  (repeat' split) <;> simp

@[simp] theorem storeCanonical_blockLose (g : GalIx) (l : LaneIx) (s : State) : StoreCanonical (blockLose g l s) ↔ StoreCanonical s := by
  unfold blockLose
  simp

@[simp] theorem storeCanonical_markerMissed (g : GalIx) (l : LaneIx) (s : State) : StoreCanonical (markerMissed g l s) ↔ StoreCanonical s := by
  unfold markerMissed
  simp

@[simp] theorem storeCanonical_takeMarker (g : GalIx) (l : LaneIx) (seq : Nat) (lanePos : BitVec 6) (sb : BitVec 16) (s : State) : StoreCanonical (takeMarker g l seq lanePos sb s) ↔ StoreCanonical s := by
  unfold takeMarker
  simp

@[simp] theorem storeCanonical_polarity (g : GalIx) (l : LaneIx) (b : Block) (s : State) : StoreCanonical (polarity g l b s) ↔ StoreCanonical s := by
  unfold polarity
  simp

@[simp] theorem storeCanonical_receiveBlk (g : GalIx) (l : LaneIx) (b0 : Block) (reads : Nat) (s : State) : StoreCanonical (receiveBlk g l b0 reads s) ↔ StoreCanonical s := by
  unfold receiveBlk
  dsimp only
  (repeat' split) <;> simp

@[simp] theorem storeCanonical_takeTack (g : GalIx) (l : LaneIx) (b0 : Block) (s : State) : StoreCanonical (takeTack g l b0 s) ↔ StoreCanonical s := by
  unfold takeTack
  simp

@[simp] theorem storeCanonical_endTack (g : GalIx) (l : LaneIx) (drift : Int) (s : State) : StoreCanonical (endTack g l drift s) ↔ StoreCanonical s := by
  unfold endTack
  simp

/-! The operations of Sys2Proof/Machine/Transmit.lean. -/

@[simp] theorem storeCanonical_sendCw (g : GalIx) (p : Nat) (blks : List Block) (s : State) : StoreCanonical (sendCw g p blks s) ↔ StoreCanonical s := Iff.rfl

@[simp] theorem storeCanonical_putBlk (g : GalIx) (p : Nat) (b : Block) (s : State) : StoreCanonical (putBlk g p b s) ↔ StoreCanonical s := by
  unfold putBlk
  simp

@[simp] theorem storeCanonical_startDrains (g : GalIx) (s : State) : StoreCanonical (startDrains g s) ↔ StoreCanonical s := by
  unfold startDrains
  simp

@[simp] theorem storeCanonical_stopClock (g : GalIx) (s : State) : StoreCanonical (stopClock g s) ↔ StoreCanonical s := by
  unfold stopClock
  simp

@[simp] theorem storeCanonical_txRejoined (g : GalIx) (s : State) : StoreCanonical (txRejoined g s) ↔ StoreCanonical s := by
  unfold txRejoined
  simp
  split <;> simp

@[simp] theorem storeCanonical_queueRejoin (g : GalIx) (s : State) : StoreCanonical (queueRejoin g s) ↔ StoreCanonical s := by
  unfold queueRejoin
  simp
  split <;> simp

@[simp] theorem storeCanonical_enterSet (g : GalIx) (s : State) : StoreCanonical (enterSet g s) ↔ StoreCanonical s := by
  unfold enterSet
  simp

@[simp] theorem storeCanonical_startPeriod (g : GalIx) (s : State) : StoreCanonical (startPeriod g s) ↔ StoreCanonical s := by
  unfold startPeriod
  simp

@[simp] theorem storeCanonical_startPrbs (g : GalIx) (s : State) : StoreCanonical (startPrbs g s) ↔ StoreCanonical s := by
  unfold startPrbs
  simp
  split <;> simp

@[simp] theorem storeCanonical_endPeriod (g : GalIx) (s : State) : StoreCanonical (endPeriod g s) ↔ StoreCanonical s := by
  unfold endPeriod
  simp

@[simp] theorem storeCanonical_hopLeaves (g : GalIx) (p : Nat) (e : Option Nat × Hop) (s : State) : StoreCanonical (hopLeaves g p e s) ↔ StoreCanonical s := by
  unfold hopLeaves
  simp

/-- What sends a lane-local block leaves the store. -/
theorem storeCanonical_localNow (g : GalIx) (p : Nat) (s : State) (b : Block) (f : State → State) (h : localNow g p s = some (b, f)) (u : State) :
    StoreCanonical (f u) ↔ StoreCanonical u := by
  unfold localNow at h
  dsimp only at h
  split at h
  · simp only [Option.some.injEq, Prod.mk.injEq] at h
    rw [← h.2]; simp
  · split at h
    · simp only [Option.some.injEq, Prod.mk.injEq] at h
      rw [← h.2]; rfl
    · split at h
      · simp only [Option.some.injEq, Prod.mk.injEq] at h
        rw [← h.2]; rfl
      · simp only [Option.map_eq_some_iff, Prod.mk.injEq] at h
        obtain ⟨e, -, -, rfl⟩ := h
        simp

@[simp] theorem storeCanonical_sendAside (g : GalIx) (s : State) : StoreCanonical (sendAside g s) ↔ StoreCanonical s := by
  unfold sendAside
  refine storeCanonical_forAll _ _ _ fun p u => ?_
  cases hn : localNow g p u with
  | none => simp
  | some e => simp [storeCanonical_localNow g p u e.1 e.2 hn]

@[simp] theorem storeCanonical_endDrain (g : GalIx) (p : Nat) (s : State) : StoreCanonical (endDrain g p s) ↔ StoreCanonical s := by
  unfold endDrain
  simp

@[simp] theorem storeCanonical_sendDrains (g : GalIx) (s : State) : StoreCanonical (sendDrains g s) ↔ StoreCanonical s := by
  unfold sendDrains
  simp

@[simp] theorem storeCanonical_endSlot (g : GalIx) (s : State) : StoreCanonical (endSlot g s) ↔ StoreCanonical s := by
  unfold endSlot
  simp

@[simp] theorem storeCanonical_putCell (g : GalIx) (p : Nat) (b : Block) (stream : Bool) (after : State → State) (s : State)
    (h : ∀ u, StoreCanonical (after u) ↔ StoreCanonical u) : StoreCanonical (putCell g p b stream after s) ↔ StoreCanonical s := by
  unfold putCell
  simp [h]

@[simp] theorem storeCanonical_placeCell (g : GalIx) (b : Option Block) (done : State → State) (s : State)
    (h : ∀ u, StoreCanonical (done u) ↔ StoreCanonical u) : StoreCanonical (placeCell g b done s).2 ↔ StoreCanonical s := by
  unfold placeCell
  dsimp only
  split
  · simp
  · split
    · split <;> simp
    · rename_i p _
      cases hn : localNow g p s with
      | some e => simp [storeCanonical_localNow g p s e.1 e.2 hn]
      | none => cases b <;> simp [h, apply_ite Prod.snd]

@[simp] theorem storeCanonical_sendBlks (g : GalIx) (done : State → State) (n : Nat) (bs : List Block) (s : State)
    (h : ∀ u, StoreCanonical (done u) ↔ StoreCanonical u) : StoreCanonical (sendBlks g done n bs s) ↔ StoreCanonical s := by
  induction n generalizing bs s with
  | zero => cases bs <;> simp [sendBlks, h]
  | succ n ih =>
    cases bs with
    | nil => simp [sendBlks]
    | cons b r =>
      have hlast : ∀ u, StoreCanonical ((if r.isEmpty then done else id) u) ↔ StoreCanonical u := fun u => by split <;> simp [h]
      unfold sendBlks
      split
      · simp [h]
      · rw [ih, storeCanonical_placeCell _ _ _ _ hlast]

@[simp] theorem storeCanonical_sendStream (g : GalIx) (bs : List Block) (done : State → State) (s : State)
    (h : ∀ u, StoreCanonical (done u) ↔ StoreCanonical u) : StoreCanonical (sendStream g bs done s) ↔ StoreCanonical s :=
  storeCanonical_sendBlks g done _ bs s h

@[simp] theorem storeCanonical_passCells (g : GalIx) (n : Nat) (s : State) : StoreCanonical (passCells g n s) ↔ StoreCanonical s := by
  induction n generalizing s with
  | zero => rfl
  | succ n ih => simp [passCells, ih]

@[simp] theorem storeCanonical_passSlots (g : GalIx) (n : Nat) (s : State) : StoreCanonical (passSlots g n s) ↔ StoreCanonical s := by
  unfold passSlots
  simp

@[simp] theorem storeCanonical_passWhile (g : GalIx) (seq n : Nat) (s : State) : StoreCanonical (passWhile g seq n s) ↔ StoreCanonical s := by
  induction n generalizing s with
  | zero => rfl
  | succ n ih => simp [passWhile, ih]

@[simp] theorem storeCanonical_passPeriod (g : GalIx) (s : State) : StoreCanonical (passPeriod g s) ↔ StoreCanonical s := by
  unfold passPeriod
  simp

@[simp] theorem storeCanonical_passRest (g : GalIx) (s : State) : StoreCanonical (passRest g s) ↔ StoreCanonical s := by
  unfold passRest
  simp

@[simp] theorem storeCanonical_passTo (g : GalIx) (seq n : Nat) (s : State) : StoreCanonical (passTo g seq n s) ↔ StoreCanonical s := by
  induction n generalizing s with
  | zero => rfl
  | succ n ih => simp [passTo, ih]

@[simp] theorem storeCanonical_sendReplay (g : GalIx) (s : State) : StoreCanonical (sendReplay g s) ↔ StoreCanonical s := by
  unfold sendReplay
  simp

@[simp] theorem storeCanonical_tryRejoin (g : GalIx) (s : State) : StoreCanonical (tryRejoin g s) ↔ StoreCanonical s := by
  unfold tryRejoin
  simp
  split <;> simp

/-! The operations of Sys2Proof/Machine/TrainCmds.lean. -/

@[simp] theorem storeCanonical_txStart (g : GalIx) (t : Tread) (s : State) : StoreCanonical (txStart g t s) ↔ StoreCanonical s := by
  unfold txStart
  simp

@[simp] theorem storeCanonical_leaveDetect (g : GalIx) (s : State) : StoreCanonical (leaveDetect g s) ↔ StoreCanonical s := by
  unfold leaveDetect
  simp

@[simp] theorem storeCanonical_endSearch (g : GalIx) (p peak : Nat) (s : State) : StoreCanonical (endSearch g p peak s) ↔ StoreCanonical s := by
  unfold endSearch
  simp

@[simp] theorem storeCanonical_forceDone (g : GalIx) (s : State) : StoreCanonical (forceDone g s) ↔ StoreCanonical s := by
  unfold forceDone
  refine storeCanonical_forAll _ _ _ fun p u => ?_
  dsimp only
  split
  · simp
  · split <;> simp

@[simp] theorem storeCanonical_passLanding (n : GalIx) (s : State) : StoreCanonical (passLanding n s) ↔ StoreCanonical s := by
  unfold passLanding
  simp

@[simp] theorem storeCanonical_takeLanding (g : GalIx) (kind : BitVec 2) (l : Landing) (s : State) : StoreCanonical (takeLanding g kind l s) ↔ StoreCanonical s := by
  unfold takeLanding
  simp

@[simp] theorem storeCanonical_stopExchange (g : GalIx) (s : State) : StoreCanonical (stopExchange g s) ↔ StoreCanonical s := Iff.rfl

@[simp] theorem storeCanonical_endExchange (g : GalIx) (c : Cap) (l : Landing) (s : State) : StoreCanonical (endExchange g c l s) ↔ StoreCanonical s := by
  unfold endExchange
  simp

@[simp] theorem storeCanonical_exchange (g : GalIx) (s : State) : StoreCanonical (exchange g s) ↔ StoreCanonical s := by
  unfold exchange
  dsimp only
  (repeat' split) <;> simp

@[simp] theorem storeCanonical_stopRequests (g : GalIx) (s : State) : StoreCanonical (stopRequests g s) ↔ StoreCanonical s := Iff.rfl

@[simp] theorem storeCanonical_cancelAttempt (g : GalIx) (s : State) : StoreCanonical (cancelAttempt g s) ↔ StoreCanonical s := Iff.rfl

@[simp] theorem storeCanonical_afterActive (g : GalIx) (fresh : Bool) (s : State) : StoreCanonical (afterActive g fresh s) ↔ StoreCanonical s := by
  unfold afterActive
  simp

@[simp] theorem storeCanonical_announceStriping (g : GalIx) (first : Nat) (s : State) : StoreCanonical (announceStriping g first s) ↔ StoreCanonical s := by
  unfold announceStriping
  simp

@[simp] theorem storeCanonical_startStriping (g : GalIx) (first : Nat) (s : State) : StoreCanonical (startStriping g first s) ↔ StoreCanonical s := by
  unfold startStriping
  simp

@[simp] theorem storeCanonical_reportStep (g : GalIx) (dir : Nat) (t : Tread) (old : Option Tread) (width : Nat) (s : State) : StoreCanonical (reportStep g dir t old width s) ↔ StoreCanonical s := by
  unfold reportStep
  simp

@[simp] theorem storeCanonical_startWalk (g : GalIx) (q : Tread) (f : Bool) (active : BitVec 8) (first : Nat) (s : State) : StoreCanonical (startWalk g q f active first s) ↔ StoreCanonical s := by
  unfold startWalk
  simp

/-! The operations of Sys2Proof/Machine/DarnCmds.lean. -/

@[simp] theorem storeCanonical_abandonStep (g : GalIx) (lane : Nat) (s : State) : StoreCanonical (abandonStep g lane s) ↔ StoreCanonical s := by
  unfold abandonStep
  simp

@[simp] theorem storeCanonical_dropLanes (g : GalIx) (failed : BitVec 8) (s : State) : StoreCanonical (dropLanes g failed s) ↔ StoreCanonical s := by
  unfold dropLanes
  simp

@[simp] theorem storeCanonical_startNext (g : GalIx) (s : State) : StoreCanonical (startNext g s) ↔ StoreCanonical s := by
  unfold startNext
  simp

@[simp] theorem storeCanonical_darnedTx (g : GalIx) (l : LossBlk) (r : ReplayBlk) (width periods p : Nat) (s : State) : StoreCanonical (darnedTx g l r width periods p s) ↔ StoreCanonical s := by
  unfold darnedTx
  simp

@[simp] theorem storeCanonical_sendReplayOf (g : GalIx) (l : LossBlk) (dropped : List Nat) (s : State) : StoreCanonical (sendReplayOf g l dropped s) ↔ StoreCanonical s := by
  unfold sendReplayOf
  simp

@[simp] theorem storeCanonical_renotice (g : GalIx) (ps : List Nat) (s : State) : StoreCanonical (renotice g ps s) ↔ StoreCanonical s := by
  unfold renotice
  simp

@[simp] theorem storeCanonical_answerLoss (g : GalIx) (l : LossBlk) (s : State) : StoreCanonical (answerLoss g l s) ↔ StoreCanonical s := by
  unfold answerLoss
  simp

/-! The operations of Sys2Proof/Machine/CreditCmds.lean. -/

@[simp] theorem storeCanonical_takeLimit (g : GalIx) (k : Cls) (v : Nat) (s : State) : StoreCanonical (takeLimit g k v s) ↔ StoreCanonical s := by
  unfold takeLimit
  simp

@[simp] theorem storeCanonical_takeDemand (g : GalIx) (d : BitVec 4) (s : State) : StoreCanonical (takeDemand g d s) ↔ StoreCanonical s := by
  unfold takeDemand
  simp

/-! The operations of Sys2Proof/Machine/Path.lean. -/

@[simp] theorem storeCanonical_sendCompletion (a : Asker) (status off : Nat) (data : List Byte) (s : State) : StoreCanonical (sendCompletion a status off data s) ↔ StoreCanonical s := by
  unfold sendCompletion
  simp
  split <;> simp

@[simp] theorem storeCanonical_popBobbin (g : GalIx) (k : Cls) (s : State) : StoreCanonical (popBobbin g k s) ↔ StoreCanonical s := by
  unfold popBobbin
  split <;> simp

@[simp] theorem storeCanonical_markBad (g : GalIx) (r : Nat) (s : State) : StoreCanonical (markBad g r s) ↔ StoreCanonical s := by
  unfold markBad
  split <;> simp

@[simp] theorem storeCanonical_countEcc (g : GalIx) (ecc : Nat) (s : State) : StoreCanonical (countEcc g ecc s) ↔ StoreCanonical s := by
  unfold countEcc
  simp

@[simp] theorem storeCanonical_crossStraight (g : GalIx) (k : Cls) (i : QItem) (s : State) : StoreCanonical (crossStraight g k i s) ↔ StoreCanonical s := by
  unfold crossStraight
  simp
  split <;> simp

@[simp] theorem storeCanonical_straightStep (g : GalIx) (k : Cls) (s : State) : StoreCanonical (straightStep g k s) ↔ StoreCanonical s := by
  unfold straightStep
  split <;> simp

@[simp] theorem storeCanonical_drainStraight (g : GalIx) (s : State) : StoreCanonical (drainStraight g s) ↔ StoreCanonical s := by
  unfold drainStraight
  exact storeCanonical_forAll _ (fun _ u => u |> straightStep g .px |> straightStep g .pm |> straightStep g .cp |> straightStep g .np) s fun _ u => by simp

@[simp] theorem storeCanonical_enqueue (g : GalIx) (i : Item) (targets next : List Nat) (straight : Bool) (bytes origin : Nat) (s : State) : StoreCanonical (enqueue g i targets next straight bytes origin s) ↔ StoreCanonical s := Iff.rfl

@[simp] theorem storeCanonical_wayOf (g : GalIx) (r : Nat) (s : State) : StoreCanonical (wayOf g r s).2 ↔ StoreCanonical s := by
  unfold wayOf
  split <;> simp

@[simp] theorem storeCanonical_closeFrame (g : GalIx) (r k : Nat) (s : State) : StoreCanonical (closeFrame g r k s) ↔ StoreCanonical s := Iff.rfl

@[simp] theorem storeCanonical_setExpect (g : GalIx) (r : Nat) (x : ExpPos) (s : State) : StoreCanonical (setExpect g r x s) ↔ StoreCanonical s := Iff.rfl

@[simp] theorem storeCanonical_originGap (g : GalIx) (r : Nat) (w : PxWay) (first count : Nat) (s : State) : StoreCanonical (originGap g r w first count s) ↔ StoreCanonical s := by
  unfold originGap
  split <;> simp

@[simp] theorem storeCanonical_trackPx (g : GalIx) (w : PxWay) (p : Parcel) (s : State) : StoreCanonical (trackPx g w p s) ↔ StoreCanonical s := by
  unfold trackPx
  dsimp only
  (repeat' split) <;> simp

@[simp] theorem storeCanonical_trackCut (g : GalIx) (w : PxWay) (r : Nat) (s : State) : StoreCanonical (trackCut g w r s) ↔ StoreCanonical s := by
  unfold trackCut
  split <;> simp

@[simp] theorem storeCanonical_trackGap (g : GalIx) (b : Gap) (s : State) : StoreCanonical (trackGap g b s) ↔ StoreCanonical s := by
  unfold trackGap
  simp
  split <;> simp

/-! The operations of Sys2Proof/Machine/Store.lean. -/

@[simp] theorem storeCanonical_storeUse (prio n : Nat) (s : State) : StoreCanonical (storeUse prio n s) ↔ StoreCanonical s := Iff.rfl

@[simp] theorem storeCanonical_readWords (reader : Nat) (ws : List Nat) (s : State) : StoreCanonical (readWords reader ws s) ↔ StoreCanonical s := by
  unfold readWords
  simp

@[simp] theorem storeCanonical_noteErrors (single double : List Nat) (s : State) : StoreCanonical (noteErrors single double s) ↔ StoreCanonical s := Iff.rfl

@[simp] theorem storeCanonical_dropCommit (r : Nat) (s : State) : StoreCanonical (dropCommit r s) ↔ StoreCanonical s := by
  unfold dropCommit
  simp

@[simp] theorem storeCanonical_freeExtent (r : Nat) (s : State) : StoreCanonical (freeExtent r s) ↔ StoreCanonical s := by
  unfold freeExtent
  simp

@[simp] theorem storeCanonical_freeLeaving (s : State) : StoreCanonical (freeLeaving s) ↔ StoreCanonical s := by
  unfold freeLeaving
  simp

@[simp] theorem storeCanonical_dirEffect (r : Nat) (e : Entry) (s : State) : StoreCanonical (dirEffect r e s) ↔ StoreCanonical s := by
  unfold dirEffect
  dsimp only
  (repeat' split) <;> simp

/-! The operations of Sys2Proof/Machine/Subst.lean. -/

@[simp] theorem storeCanonical_putReader (r : Nat) (g : GalIx) (drop : Bool) (x : SubstState) (s : State) : StoreCanonical (putReader r g drop x s) ↔ StoreCanonical s := Iff.rfl

@[simp] theorem storeCanonical_dropReader (r : Nat) (g : GalIx) (drop : Bool) (s : State) : StoreCanonical (dropReader r g drop s) ↔ StoreCanonical s := Iff.rfl

@[simp] theorem storeCanonical_endImage (r : Nat) (s : State) : StoreCanonical (endImage r s) ↔ StoreCanonical s := Iff.rfl

@[simp] theorem storeCanonical_pushReader (g : GalIx) (drop : Bool) (i : Item) (s : State) : StoreCanonical (pushReader g drop i s) ↔ StoreCanonical s := Iff.rfl

@[simp] theorem storeCanonical_startFrame (r : Nat) (g : GalIx) (drop : Bool) (key : Nat) (s : State) : StoreCanonical (startFrame r g drop key s) ↔ StoreCanonical s := by
  unfold startFrame
  simp

@[simp] theorem storeCanonical_nextFramePart (r : Nat) (g : GalIx) (drop : Bool) (s : State) : StoreCanonical (nextFramePart r g drop s) ↔ StoreCanonical s := by
  unfold nextFramePart
  dsimp only
  (repeat' split) <;> simp

@[simp] theorem storeCanonical_fillReaders (s : State) : StoreCanonical (fillReaders s) ↔ StoreCanonical s := by
  unfold fillReaders
  simp

@[simp] theorem storeCanonical_enterDrop (r : Nat) (g : GalIx) (noIngress : Bool) (s : State) : StoreCanonical (enterDrop r g noIngress s) ↔ StoreCanonical s := by
  unfold enterDrop
  simp

@[simp] theorem storeCanonical_dropAt (r : Nat) (g : GalIx) (key : Nat) (s : State) : StoreCanonical (dropAt r g key s).2 ↔ StoreCanonical s := by
  unfold dropAt
  simp
  (repeat' split) <;> simp

@[simp] theorem storeCanonical_noteCut (r : Nat) (g : GalIx) (key : Nat) (s : State) : StoreCanonical (noteCut r g key s) ↔ StoreCanonical s := Iff.rfl

/-! The operations of Sys2Proof/Machine/Announce.lean. -/

@[simp] theorem storeCanonical_originateAnn (g : GalIx) (s : State) : StoreCanonical (originateAnn g s) ↔ StoreCanonical s := by
  unfold originateAnn
  simp

@[simp] theorem storeCanonical_announceRec (r : Nat) (a : AnnRec) (withdraw : Bool) (s : State) : StoreCanonical (announceRec r a withdraw s) ↔ StoreCanonical s := by
  unfold announceRec
  simp

@[simp] theorem storeCanonical_announceChange (r : Nat) (before : Option AnnRec) (withdrawn : Bool) (s : State) : StoreCanonical (announceChange r before withdrawn s) ↔ StoreCanonical s := by
  unfold announceChange
  split <;> simp

@[simp] theorem storeCanonical_announceNew (r : Nat) (g : GalIx) (s : State) : StoreCanonical (announceNew r g s) ↔ StoreCanonical s := by
  unfold announceNew
  split <;> simp

@[simp] theorem storeCanonical_originateClaims (l : List (Nat × Entry)) (s : State) : StoreCanonical (originateClaims l s) ↔ StoreCanonical s := by
  unfold originateClaims
  simp

/-! The operations of Sys2Proof/Machine/Placement.lean. -/

@[simp] theorem storeCanonical_startRun (s : State) : StoreCanonical (startRun s) ↔ StoreCanonical s := by
  unfold startRun
  simp

@[simp] theorem storeCanonical_writeEmptyOne (r : Nat) (s : State) : StoreCanonical (writeEmptyOne r s) ↔ StoreCanonical s := by
  unfold writeEmptyOne
  simp

@[simp] theorem storeCanonical_writeGone (r : Nat) (s : State) : StoreCanonical (writeGone r s) ↔ StoreCanonical s := by
  unfold writeGone
  simp

@[simp] theorem storeCanonical_writeEmpty (done : List Nat) (s : State) : StoreCanonical (writeEmpty done s) ↔ StoreCanonical s := by
  unfold writeEmpty
  simp

@[simp] theorem storeCanonical_rebuildCopies (epoch : Nat) (s : State) : StoreCanonical (rebuildCopies epoch s) ↔ StoreCanonical s := Iff.rfl

@[simp] theorem storeCanonical_runAgain (s : State) : StoreCanonical (runAgain s) ↔ StoreCanonical s := by
  unfold runAgain
  simp

@[simp] theorem storeCanonical_rejoinCopies (s : State) : StoreCanonical (rejoinCopies s) ↔ StoreCanonical s := Iff.rfl

@[simp] theorem storeCanonical_passChanged (before : List GalIx) (s : State) : StoreCanonical (passChanged before s) ↔ StoreCanonical s := by
  unfold passChanged
  simp

@[simp] theorem storeCanonical_keepPrev (r : Nat) (s : State) : StoreCanonical (keepPrev r s) ↔ StoreCanonical s := by
  unfold keepPrev
  simp

@[simp] theorem storeCanonical_noteForced (r : Nat) (s : State) : StoreCanonical (noteForced r s) ↔ StoreCanonical s := Iff.rfl

@[simp] theorem storeCanonical_applyEntry (r : Nat) (pe : PendEntry) (s : State) : StoreCanonical (applyEntry r pe s) ↔ StoreCanonical s := by
  unfold applyEntry
  simp

@[simp] theorem storeCanonical_modeOff (s : State) : StoreCanonical (modeOff s) ↔ StoreCanonical s := by
  unfold modeOff
  simp

/-! The operations of Sys2Proof/Machine/Monitors.lean. -/

@[simp] theorem storeCanonical_checkDrive (r : Nat) (g : GalIx) (s : State) : StoreCanonical (checkDrive r g s) ↔ StoreCanonical s := by
  unfold checkDrive
  simp

@[simp] theorem storeCanonical_closeMean (r : Nat) (g : GalIx) (mean : Nat) (s : State) : StoreCanonical (closeMean r g mean s) ↔ StoreCanonical s := by
  unfold closeMean
  simp

@[simp] theorem storeCanonical_closeMon (r : Nat) (g : GalIx) (s : State) : StoreCanonical (closeMon r g s) ↔ StoreCanonical s := by
  unfold closeMon
  simp
  split <;> simp

@[simp] theorem storeCanonical_measureCut (r : Nat) (g : GalIx) (key : Nat) (s : State) : StoreCanonical (measureCut r g key s) ↔ StoreCanonical s := by
  unfold measureCut
  simp

@[simp] theorem storeCanonical_measurePx (r : Nat) (g : GalIx) (p : Parcel) (s : State) : StoreCanonical (measurePx r g p s) ↔ StoreCanonical s := Iff.rfl

@[simp] theorem storeCanonical_measure (g : GalIx) (i : Item) (s : State) : StoreCanonical (measure g i s) ↔ StoreCanonical s := by
  unfold measure
  split <;> simp

@[simp] theorem storeCanonical_measureAnn (g : GalIx) (p : Parcel) (s : State) : StoreCanonical (measureAnn g p s) ↔ StoreCanonical s := by
  unfold measureAnn
  split
  · refine storeCanonical_forAll _ _ _ fun b u => ?_
    split <;> simp
  · rfl

/-! The operations of Sys2Proof/Machine/Hall.lean. -/

@[simp] theorem storeCanonical_takeItem (g : GalIx) (i : Item) (s : State) : StoreCanonical (takeItem g i s) ↔ StoreCanonical s := Iff.rfl

@[simp] theorem storeCanonical_storeDiscard (g : GalIx) (k : Cls) (n : Nat) (s : State) : StoreCanonical (storeDiscard g k n s) ↔ StoreCanonical s := by
  unfold storeDiscard
  simp

@[simp] theorem storeCanonical_forwardPx (g : GalIx) (w : PxWay) (e : Entry) (p : Parcel) (n : Nat) (s : State) : StoreCanonical (forwardPx g w e p n s) ↔ StoreCanonical s := by
  unfold forwardPx
  split <;> simp

@[simp] theorem storeCanonical_endPoisoned (g : GalIx) (w : PxWay) (e : Entry) (p : Parcel) (s : State) : StoreCanonical (endPoisoned g w e p s) ↔ StoreCanonical s := by
  unfold endPoisoned
  simp
  split <;> simp

@[simp] theorem storeCanonical_receivePx (g : GalIx) (p : Parcel) (begun : Bool) (s : State) : StoreCanonical (receivePx g p begun s) ↔ StoreCanonical s := by
  unfold receivePx
  simp
  split <;> simp

@[simp] theorem storeCanonical_receiveBroken (g : GalIx) (p : Parcel) (begun : Bool) (s : State) : StoreCanonical (receiveBroken g p begun s) ↔ StoreCanonical s := by
  unfold receiveBroken
  simp

@[simp] theorem storeCanonical_forwardMsg (g : GalIx) (w : MsgWay) (p : Parcel) (s : State) : StoreCanonical (forwardMsg g w p s) ↔ StoreCanonical s := by
  unfold forwardMsg
  split <;> simp

@[simp] theorem storeCanonical_copyIn (g : GalIx) (p : Parcel) (s : State) : StoreCanonical (copyIn g p s) ↔ StoreCanonical s := Iff.rfl

@[simp] theorem storeCanonical_receiveMsg (g : GalIx) (p : Parcel) (s : State) : StoreCanonical (receiveMsg g p s) ↔ StoreCanonical s := by
  unfold receiveMsg
  simp

@[simp] theorem storeCanonical_strike (x : Option Upset) (s : State) : StoreCanonical (strike x s) ↔ StoreCanonical s := by
  unfold strike
  split <;> simp

@[simp] theorem storeCanonical_markEcc (g : GalIx) (k : Cls) (ecc seq : Nat) (s : State) : StoreCanonical (markEcc g k ecc seq s) ↔ StoreCanonical s := by
  unfold markEcc
  simp

@[simp] theorem storeCanonical_takeParcel (g : GalIx) (p : Parcel) (begun : Bool) (s : State) : StoreCanonical (takeParcel g p begun s) ↔ StoreCanonical s := by
  unfold takeParcel
  simp

@[simp] theorem storeCanonical_judgeCopy (g : GalIx) (r : Nat) (s : State) : StoreCanonical (judgeCopy g r s) ↔ StoreCanonical s := by
  unfold judgeCopy
  simp

@[simp] theorem storeCanonical_takeSwitch (g : GalIx) (r key : Nat) (s : State) : StoreCanonical (takeSwitch g r key s) ↔ StoreCanonical s := by
  unfold takeSwitch
  simp

@[simp] theorem storeCanonical_dropGalleries (g : GalIx) (r : Nat) (e : Entry) (c : CutMark) (s : State) : StoreCanonical (dropGalleries g r e c s) ↔ StoreCanonical s := by
  unfold dropGalleries
  split <;> simp

@[simp] theorem storeCanonical_forwardCut (g : GalIx) (c : CutMark) (s : State) : StoreCanonical (forwardCut g c s) ↔ StoreCanonical s := by
  unfold forwardCut
  simp
  split <;> simp

@[simp] theorem storeCanonical_modPort (i : Fin 10) (f : PortState → PortState) (s : State) : StoreCanonical (modPort i f s) ↔ StoreCanonical s := Iff.rfl

@[simp] theorem storeCanonical_setGrant (o : Fin 10) (v : Option (Fin 10)) (s : State) : StoreCanonical (setGrant o v s) ↔ StoreCanonical s := Iff.rfl

@[simp] theorem storeCanonical_deliver (port arrival : Nat) (p : Parcel) (s : State) : StoreCanonical (deliver port arrival p s) ↔ StoreCanonical s := by
  unfold deliver
  simp

@[simp] theorem storeCanonical_arriveAt (o : Fin 10) (x : HallXfer) (s : State) : StoreCanonical (arriveAt o x s) ↔ StoreCanonical s := by
  unfold arriveAt
  dsimp only
  (repeat' split) <;> simp

@[simp] theorem storeCanonical_leaveInput (i : Fin 10) (x : HallXfer) (s : State) : StoreCanonical (leaveInput i x s) ↔ StoreCanonical s := by
  unfold leaveInput
  split <;> simp

@[simp] theorem storeCanonical_crossTo (i o : Fin 10) (s : State) : StoreCanonical (crossTo i o s) ↔ StoreCanonical s := by
  unfold crossTo
  split <;> simp

@[simp] theorem storeCanonical_eccBad (i : Fin 10) (s : State) : StoreCanonical (eccBad i s) ↔ StoreCanonical s := by
  unfold eccBad
  split
  · rfl
  · rename_i x _
    split
    · cases galPort x.item.port <;> simp
    · simp

@[simp] theorem storeCanonical_presentCell (i : Fin 10) (k : Cls) (s : State) : StoreCanonical (presentCell i k s).2 ↔ StoreCanonical s := by
  unfold presentCell
  simp
  (repeat' split) <;> simp

@[simp] theorem storeCanonical_nextCell (i : Fin 10) (s : State) : StoreCanonical (nextCell i s) ↔ StoreCanonical s := by
  unfold nextCell
  split <;> simp

@[simp] theorem storeCanonical_discardItem (g : GalIx) (i : QItem) (s : State) : StoreCanonical (discardItem g i s) ↔ StoreCanonical s := by
  unfold discardItem
  split <;> simp

@[simp] theorem storeCanonical_passCut (g : GalIx) (sub : Bool) (c : CutMark) (s : State) : StoreCanonical (passCut g sub c s) ↔ StoreCanonical s := by
  unfold passCut
  simp

@[simp] theorem storeCanonical_sendItem (g : GalIx) (i : QItem) (s : State) : StoreCanonical (sendItem g i s) ↔ StoreCanonical s := by
  unfold sendItem
  split <;> simp

@[simp] theorem storeCanonical_popEgress (g : GalIx) (k : Cls) (s : State) : StoreCanonical (popEgress g k s) ↔ StoreCanonical s := Iff.rfl

@[simp] theorem storeCanonical_skimPx (g : GalIx) (n : Nat) (s : State) : StoreCanonical (skimPx g n s) ↔ StoreCanonical s := by
  induction n generalizing s with
  | zero => rfl
  | succ n ih =>
    unfold skimPx
    split <;> simp [ih]

@[simp] theorem storeCanonical_sendPx (g : GalIx) (s : State) : StoreCanonical (sendPx g s) ↔ StoreCanonical s := by
  unfold sendPx
  split <;> simp

@[simp] theorem storeCanonical_sendMsg (g : GalIx) (k : Cls) (i : QItem) (ahead : Bool) (s : State) : StoreCanonical (sendMsg g k i ahead s) ↔ StoreCanonical s := by
  unfold sendMsg
  simp

@[simp] theorem storeCanonical_demands (g : GalIx) (s : State) : StoreCanonical (demands g s) ↔ StoreCanonical s := by
  unfold demands
  simp

@[simp] theorem storeCanonical_sendTrain (g : GalIx) (s : State) : StoreCanonical (sendTrain g s) ↔ StoreCanonical s := by
  unfold sendTrain
  split <;> simp

@[simp] theorem storeCanonical_noteEmpty (g : GalIx) (s : State) : StoreCanonical (noteEmpty g s) ↔ StoreCanonical s := Iff.rfl

@[simp] theorem storeCanonical_sendNext (g : GalIx) (s : State) : StoreCanonical (sendNext g s) ↔ StoreCanonical s := by
  unfold sendNext
  split <;> simp

/-! The operations of Sys2Proof/Machine/Late.lean. -/

@[simp] theorem storeCanonical_sendPostedError (e : LateErr) (logSeq : Nat) (s : State) : StoreCanonical (sendPostedError e logSeq s) ↔ StoreCanonical s := by
  unfold sendPostedError
  simp
  split <;> simp

@[simp] theorem storeCanonical_lateError (a : Asker) (address count reason : Nat) (s : State) : StoreCanonical (lateError a address count reason s) ↔ StoreCanonical s := by
  unfold lateError
  simp

@[simp] theorem storeCanonical_endPosted (id : Nat) (reason : Option Nat) (s : State) : StoreCanonical (endPosted id reason s) ↔ StoreCanonical s := by
  unfold endPosted
  dsimp only
  (repeat' split) <;> simp

/-! The operations of Sys2Proof/Machine/PortL.lean. -/

@[simp] theorem storeCanonical_modPortL (f : PortL → PortL) (s : State) : StoreCanonical (modPortL f s) ↔ StoreCanonical s := Iff.rfl

@[simp] theorem storeCanonical_sendData (a : Asker) (data : List Byte) (s : State) : StoreCanonical (sendData a data s) ↔ StoreCanonical s := by
  unfold sendData
  simp

@[simp] theorem storeCanonical_endReq (r : PlReq) (status reason : Nat) (data : List Byte) (s : State) : StoreCanonical (endReq r status reason data s) ↔ StoreCanonical s := by
  unfold endReq
  split <;> simp

@[simp] theorem storeCanonical_failFenced (s : State) : StoreCanonical (failFenced s) ↔ StoreCanonical s := by
  unfold failFenced
  simp

@[simp] theorem storeCanonical_fenceBus (s : State) : StoreCanonical (fenceBus s) ↔ StoreCanonical s := by
  unfold fenceBus
  simp

@[simp] theorem storeCanonical_nineClocks (s : State) : StoreCanonical (nineClocks s) ↔ StoreCanonical s := by
  unfold nineClocks
  simp

@[simp] theorem storeCanonical_loseLock (s : State) : StoreCanonical (loseLock s) ↔ StoreCanonical s := by
  unfold loseLock
  split <;> simp

@[simp] theorem storeCanonical_timeoutLock (s : State) : StoreCanonical (timeoutLock s) ↔ StoreCanonical s := by
  unfold timeoutLock
  split <;> simp

@[simp] theorem storeCanonical_recoverIfDue (s : State) : StoreCanonical (recoverIfDue s) ↔ StoreCanonical s := by
  unfold recoverIfDue
  simp

@[simp] theorem storeCanonical_takeReq (r : PlReq) (s : State) : StoreCanonical (takeReq r s) ↔ StoreCanonical s := Iff.rfl

@[simp] theorem storeCanonical_runPlain (r : PlReq) (acked : Nat) (data : List Byte) (s : State) : StoreCanonical (runPlain r acked data s) ↔ StoreCanonical s := by
  unfold runPlain
  simp

@[simp] theorem storeCanonical_retryOthers (src : BitVec 16) (s : State) : StoreCanonical (retryOthers src s) ↔ StoreCanonical s := by
  unfold retryOthers
  simp

@[simp] theorem storeCanonical_runLocked (r : PlReq) (acked : Nat) (data : List Byte) (s : State) : StoreCanonical (runLocked r acked data s) ↔ StoreCanonical s := by
  unfold runLocked
  simp

@[simp] theorem storeCanonical_runUnlock (r : PlReq) (acked : Nat) (s : State) : StoreCanonical (runUnlock r acked s) ↔ StoreCanonical s := by
  unfold runUnlock
  simp

@[simp] theorem storeCanonical_timeoutReq (r : PlReq) (s : State) : StoreCanonical (timeoutReq r s) ↔ StoreCanonical s := by
  unfold timeoutReq
  simp

/-! The operations of Sys2Proof/Machine/Prbs.lean. -/

@[simp] theorem storeCanonical_checkBits (g : GalIx) (l : LaneIx) (bits : List Bool) (s : State) : StoreCanonical (checkBits g l bits s) ↔ StoreCanonical s := by
  unfold checkBits
  simp

@[simp] theorem storeCanonical_testCodeword (g : GalIx) (l : LaneIx) (bits : BitVec 5440) (s : State) : StoreCanonical (testCodeword g l bits s) ↔ StoreCanonical s := by
  unfold testCodeword
  simp

@[simp] theorem storeCanonical_testBlock (g : GalIx) (l : LaneIx) (b : Block) (s : State) : StoreCanonical (testBlock g l b s) ↔ StoreCanonical s := by
  unfold testBlock
  simp

@[simp] theorem storeCanonical_stopTests (g : GalIx) (s : State) : StoreCanonical (stopTests g s) ↔ StoreCanonical s := by
  unfold stopTests
  simp

/-! The operations of Sys2Proof/Machine/Correct.lean. -/

@[simp] theorem storeCanonical_modPipe (p : Nat) (f : Pipe → Pipe) (s : State) : StoreCanonical (modPipe p f s) ↔ StoreCanonical s := by
  unfold modPipe
  split <;> simp

@[simp] theorem storeCanonical_correctPixel (r pipe line pixel : Nat) (px : Nat × Nat × Nat) (s : State) : StoreCanonical (correctPixel r pipe line pixel px s).2 ↔ StoreCanonical s := by
  unfold correctPixel
  simp

@[simp] theorem storeCanonical_correctAll (r pipe line x3 : Nat) (x4 : List (Nat × Nat × Nat)) (x5 : State) : StoreCanonical (correctAll r pipe line x3 x4 x5).2 ↔ StoreCanonical x5 := by
  induction x4 generalizing x3 x5 with
  | nil => rfl
  | cons px l ih => simp [correctAll, ih]

@[simp] theorem storeCanonical_pushOut (i : QItem) (x : Item) (s : State) : StoreCanonical (pushOut i x s) ↔ StoreCanonical s := Iff.rfl

@[simp] theorem storeCanonical_engineGap (i : QItem) (r line : Nat) (s : State) : StoreCanonical (engineGap i r line s) ↔ StoreCanonical s := by
  unfold engineGap
  simp

@[simp] theorem storeCanonical_commitAt (r key : Nat) (s : State) : StoreCanonical (commitAt r key s) ↔ StoreCanonical s := by
  unfold commitAt
  simp

@[simp] theorem storeCanonical_engineCut (i : QItem) (c : CutMark) (s : State) : StoreCanonical (engineCut i c s) ↔ StoreCanonical s := by
  unfold engineCut
  simp

@[simp] theorem storeCanonical_enginePx (i : QItem) (p : Parcel) (s : State) : StoreCanonical (enginePx i p s) ↔ StoreCanonical s := by
  unfold enginePx
  simp
  split <;> simp

@[simp] theorem storeCanonical_engineItem (i : QItem) (s : State) : StoreCanonical (engineItem i s) ↔ StoreCanonical s := by
  unfold engineItem
  split <;> simp

@[simp] theorem storeCanonical_underPrev (r : Nat) (p : PrevEntry) (i : QItem) (s : State) : StoreCanonical (underPrev r p i s) ↔ StoreCanonical s := by
  unfold underPrev
  simp

@[simp] theorem storeCanonical_prunePrev (r : Nat) (s : State) : StoreCanonical (prunePrev r s) ↔ StoreCanonical s := Iff.rfl

@[simp] theorem storeCanonical_substitute (p r : Nat) (acc : List (Nat × Option Nat) × State) :
    StoreCanonical (substitute p r acc).2 ↔ StoreCanonical acc.2 := by
  unfold substitute
  dsimp only
  split <;> simp

@[simp] theorem storeCanonical_failQueue (reason status : Nat) (s : State) : StoreCanonical (failQueue reason status s) ↔ StoreCanonical s := by
  unfold failQueue
  refine (storeCanonical_forAll _ _ _ fun w u => ?_).trans ?_
  · split <;> simp
  · simp

/-! The operations of Sys2Proof/Machine/SafetyCmds.lean. -/

@[simp] theorem storeCanonical_failRelease (cause : Nat) (s : State) : StoreCanonical (failRelease cause s) ↔ StoreCanonical s := by
  unfold failRelease
  split <;> simp

@[simp] theorem storeCanonical_clearRecords (f : Nat → Bool) (s : State) : StoreCanonical (clearRecords f s) ↔ StoreCanonical s := by
  unfold clearRecords
  dsimp only
  split <;> simp

@[simp] theorem storeCanonical_releaseScope (scope group : Nat) (s0 : State) : StoreCanonical (releaseScope scope group s0) ↔ StoreCanonical s0 := by
  unfold releaseScope
  simp

@[simp] theorem storeCanonical_checkRelease (s : State) : StoreCanonical (checkRelease s) ↔ StoreCanonical s := by
  unfold checkRelease
  simp
  (repeat' split) <;> simp

/-! The operations of Sys2Proof/Machine/ClockCmds.lean. -/

@[simp] theorem storeCanonical_modSide (sd : Fin 2) (f : SideRef → SideRef) (s : State) : StoreCanonical (modSide sd f s) ↔ StoreCanonical s := Iff.rfl

@[simp] theorem storeCanonical_endSwitch (q : SwitchReq) (s : State) : StoreCanonical (endSwitch q s) ↔ StoreCanonical s := Iff.rfl

@[simp] theorem storeCanonical_parkGallery (g : GalIx) (s : State) : StoreCanonical (parkGallery g s) ↔ StoreCanonical s := Iff.rfl

@[simp] theorem storeCanonical_holdGallery (g : GalIx) (s : State) : StoreCanonical (holdGallery g s) ↔ StoreCanonical s := by
  unfold holdGallery
  simp

@[simp] theorem storeCanonical_releaseGallery (g : GalIx) (s : State) : StoreCanonical (releaseGallery g s) ↔ StoreCanonical s := by
  unfold releaseGallery
  simp

@[simp] theorem storeCanonical_reseed (g : GalIx) (s : State) : StoreCanonical (reseed g s) ↔ StoreCanonical s := Iff.rfl

@[simp] theorem storeCanonical_loseIsland (i : Nat) (s : State) : StoreCanonical (loseIsland i s) ↔ StoreCanonical s := by
  unfold loseIsland
  simp

@[simp] theorem storeCanonical_loseSide (sd : Fin 2) (s : State) : StoreCanonical (loseSide sd s) ↔ StoreCanonical s := by
  unfold loseSide
  simp

@[simp] theorem storeCanonical_declareLost (n : Nat) (s : State) : StoreCanonical (declareLost n s) ↔ StoreCanonical s := Iff.rfl

@[simp] theorem storeCanonical_takeRef (ref : Nat) (sides : List (Fin 2)) (new : Option RefSrc) (s : State) : StoreCanonical (takeRef ref sides new s) ↔ StoreCanonical s := by
  unfold takeRef
  simp
  split <;> simp

@[simp] theorem storeCanonical_moveToRun (p : Nat) (s : State) : StoreCanonical (moveToRun p s) ↔ StoreCanonical s := by
  unfold moveToRun
  simp

@[simp] theorem storeCanonical_sideBack (sd : Fin 2) (s : State) : StoreCanonical (sideBack sd s) ↔ StoreCanonical s := by
  unfold sideBack
  simp

@[simp] theorem storeCanonical_closeGate (u : Nat) (s : State) : StoreCanonical (closeGate u s) ↔ StoreCanonical s := Iff.rfl

@[simp] theorem storeCanonical_openGate (u : Nat) (s : State) : StoreCanonical (openGate u s) ↔ StoreCanonical s := Iff.rfl

@[simp] theorem storeCanonical_requestGate (u : Nat) (s : State) : StoreCanonical (requestGate u s) ↔ StoreCanonical s := by
  unfold requestGate
  simp

@[simp] theorem storeCanonical_cutAccess (u : Nat) (s : State) : StoreCanonical (cutAccess u s) ↔ StoreCanonical s := by
  unfold cutAccess
  dsimp only
  (repeat' split) <;> simp

/-! The operations of Sys2Proof/Machine/PowerCmds.lean. -/

@[simp] theorem storeCanonical_modPower (f : PowerUnit → PowerUnit) (s : State) : StoreCanonical (modPower f s) ↔ StoreCanonical s := Iff.rfl

@[simp] theorem storeCanonical_modMez (f : Mez → Mez) (s : State) : StoreCanonical (modMez f s) ↔ StoreCanonical s := Iff.rfl

@[simp] theorem storeCanonical_modMram (f : Mram → Mram) (s : State) : StoreCanonical (modMram f s) ↔ StoreCanonical s := Iff.rfl

@[simp] theorem storeCanonical_completeFuses (s : State) : StoreCanonical (completeFuses s) ↔ StoreCanonical s := by
  unfold completeFuses
  simp

@[simp] theorem storeCanonical_loadRecord (s : State) : StoreCanonical (loadRecord s) ↔ StoreCanonical s := by
  unfold loadRecord
  simp

@[simp] theorem storeCanonical_bootLocks (s : State) : StoreCanonical (bootLocks s) ↔ StoreCanonical s := Iff.rfl

@[simp] theorem storeCanonical_bootSettings (s : State) : StoreCanonical (bootSettings s) ↔ StoreCanonical s := Iff.rfl

@[simp] theorem storeCanonical_bootGallery (g : GalIx) (s : State) : StoreCanonical (bootGallery g s) ↔ StoreCanonical s := by
  unfold bootGallery
  simp

@[simp] theorem storeCanonical_modFwSlot (n : Nat) (f : Slot → Slot) (s : State) : StoreCanonical (modFwSlot n f s) ↔ StoreCanonical s := Iff.rfl

@[simp] theorem storeCanonical_logSlot (n : Nat) (s : State) : StoreCanonical (logSlot n s) ↔ StoreCanonical s := by
  unfold logSlot
  simp

@[simp] theorem storeCanonical_enableUnits (s : State) : StoreCanonical (enableUnits s) ↔ StoreCanonical s := by
  unfold enableUnits
  simp

@[simp] theorem storeCanonical_driveRefout (s : State) : StoreCanonical (driveRefout s) ↔ StoreCanonical s := Iff.rfl

@[simp] theorem storeCanonical_applyOutputs (s : State) : StoreCanonical (applyOutputs s) ↔ StoreCanonical s := Iff.rfl

@[simp] theorem storeCanonical_applyProfile (s : State) : StoreCanonical (applyProfile s) ↔ StoreCanonical s := by
  unfold applyProfile
  split <;> simp

@[simp] theorem storeCanonical_startServing (s : State) : StoreCanonical (startServing s) ↔ StoreCanonical s := by
  unfold startServing
  simp

@[simp] theorem storeCanonical_reportWatchdog (s : State) : StoreCanonical (reportWatchdog s) ↔ StoreCanonical s := by
  unfold reportWatchdog
  simp

@[simp] theorem storeCanonical_answerEntry (status : Nat) (s : State) : StoreCanonical (answerEntry status s) ↔ StoreCanonical s := by
  unfold answerEntry
  simp

@[simp] theorem storeCanonical_sendFar (g : GalIx) (s : State) : StoreCanonical (sendFar g s) ↔ StoreCanonical s := by
  unfold sendFar
  simp

@[simp] theorem storeCanonical_failPortL (s : State) : StoreCanonical (failPortL s) ↔ StoreCanonical s := by
  unfold failPortL
  simp

@[simp] theorem storeCanonical_sleep (s : State) : StoreCanonical (sleep s) ↔ StoreCanonical s := by
  unfold sleep
  simp

@[simp] theorem storeCanonical_endForP3 (s : State) : StoreCanonical (endForP3 s) ↔ StoreCanonical s := by
  unfold endForP3
  simp

@[simp] theorem storeCanonical_restartMonitors (s : State) : StoreCanonical (restartMonitors s) ↔ StoreCanonical s := Iff.rfl

@[simp] theorem storeCanonical_restartRecords (s : State) : StoreCanonical (restartRecords s) ↔ StoreCanonical s := Iff.rfl

@[simp] theorem storeCanonical_leaveP2 (s : State) : StoreCanonical (leaveP2 s) ↔ StoreCanonical s := by
  unfold leaveP2
  simp

@[simp] theorem storeCanonical_leaveP3 (s : State) : StoreCanonical (leaveP3 s) ↔ StoreCanonical s := Iff.rfl

@[simp] theorem storeCanonical_wake (s : State) : StoreCanonical (wake s) ↔ StoreCanonical s := by
  unfold wake
  split <;> simp

@[simp] theorem storeCanonical_eraseSlot (s : State) : StoreCanonical (eraseSlot s) ↔ StoreCanonical s := Iff.rfl

@[simp] theorem storeCanonical_putChunk (off : Nat) (data : List Byte) (s : State) : StoreCanonical (putChunk off data s) ↔ StoreCanonical s := Iff.rfl

@[simp] theorem storeCanonical_writeUpdate (s : State) : StoreCanonical (writeUpdate s) ↔ StoreCanonical s := by
  unfold writeUpdate
  simp

/-! The operations of Sys2Proof/Machine/Serve.lean. -/

@[simp] theorem storeCanonical_renewFor (c : Cmd) (q : Req) (s : State) : StoreCanonical (renewFor c q s) ↔ StoreCanonical s := by
  unfold renewFor
  simp
  (repeat' split) <;> simp

@[simp] theorem storeCanonical_touchSession (c : Cmd) (q : Req) (s : State) : StoreCanonical (touchSession c q s) ↔ StoreCanonical s := by
  unfold touchSession
  split <;> simp

@[simp] theorem storeCanonical_countRefusal (c : Cmd) (status : Nat) (q : Req) (s : State) : StoreCanonical (countRefusal c status q s) ↔ StoreCanonical s := by
  unfold countRefusal
  simp

@[simp] theorem storeCanonical_answer (c : Cmd) (q : Req) (status : Nat) (payload : List Byte) (s : State) : StoreCanonical (answer c q status payload s) ↔ StoreCanonical s := by
  unfold answer
  simp

@[simp] theorem storeCanonical_stageIt (c : Cmd) (q : Req) (s : State) : StoreCanonical (stageIt c q s) ↔ StoreCanonical s := by
  unfold stageIt
  simp

@[simp] theorem storeCanonical_runCmd (c : Cmd) (hc : BodyKeepsStore c) (q : Req) (s : State) : StoreCanonical (runCmd c q s) ↔ StoreCanonical s := by
  have hb := hc q s
  unfold runCmd
  split
  · simp
  · split
    · simp
    · split <;> simp_all

@[simp] theorem storeCanonical_answerAgain (q : Req) (r : Response) (s : State) : StoreCanonical (answerAgain q r s) ↔ StoreCanonical s := by
  unfold answerAgain
  simp

@[simp] theorem storeCanonical_serveFw (c : Cmd) (hc : BodyKeepsStore c) (q : Req) (s : State) : StoreCanonical (serveFw c q s) ↔ StoreCanonical s := by
  unfold serveFw
  dsimp only
  split
  · simp
  · split
    · simp
    · split <;> simp [hc]

@[simp] theorem storeCanonical_orderSafe (scope n : Nat) (s : State) : StoreCanonical (orderSafe scope n s) ↔ StoreCanonical s := by
  unfold orderSafe
  simp

@[simp] theorem storeCanonical_orderLock (scope n : Nat) (q : Req) (s : State) : StoreCanonical (orderLock scope n q s) ↔ StoreCanonical s := by
  unfold orderLock
  simp

@[simp] theorem storeCanonical_orderLeave (scope n : Nat) (s0 : State) : StoreCanonical (orderLeave scope n s0) ↔ StoreCanonical s0 := by
  unfold orderLeave
  simp

@[simp] theorem storeCanonical_runOrder (q : Req) (s : State) : StoreCanonical (runOrder q s) ↔ StoreCanonical s := by
  unfold runOrder
  simp

@[simp] theorem storeCanonical_serveHw (op : Nat) (q : Req) (good : Bool) (s : State) : StoreCanonical (serveHw op q good s) ↔ StoreCanonical s := by
  unfold serveHw
  simp

@[simp] theorem storeCanonical_serve (c : Cmd) (hc : BodyKeepsStore c) (q : Req) (s : State) : StoreCanonical (serve c q s) ↔ StoreCanonical s := by
  unfold serve
  split
  · exact storeCanonical_serveFw c hc q s
  · split
    · split <;> simp [hc]
    · simp

@[simp] theorem storeCanonical_popFrame (h : HostId) (i : Nat) (f : Submitted) (s : State) : StoreCanonical (popFrame h i f s) ↔ StoreCanonical s := Iff.rfl

@[simp] theorem storeCanonical_hwFrame (h : HostId) (i : Nat) (f : Submitted) (s : State) : StoreCanonical (hwFrame h i f s) ↔ StoreCanonical s := by
  unfold hwFrame
  simp

@[simp] theorem storeCanonical_answerFrames (x0 : Nat) (x1 : State) : StoreCanonical (answerFrames x0 x1) ↔ StoreCanonical x1 := by
  induction x0 generalizing x1 with
  | zero => rfl
  | succ n ih =>
    unfold answerFrames
    split <;> simp [ih]

@[simp] theorem storeCanonical_ringHardware (s : State) : StoreCanonical (ringHardware s) ↔ StoreCanonical s := by
  unfold ringHardware
  simp

@[simp] theorem storeCanonical_clearCtrs (l : List Nat) (s : State) : StoreCanonical (clearCtrs l s) ↔ StoreCanonical s := Iff.rfl

@[simp] theorem storeCanonical_countersReply (recs : List ((Nat × Nat × Nat) × Nat)) (canClear : Bool) (q : Req) (s : State) : StoreCanonical (countersReply recs canClear q s).state ↔ StoreCanonical s := by
  unfold countersReply
  simp

@[simp] theorem storeCanonical_devCounters (rows : List CtrRow) (q : Req) (s : State) : StoreCanonical (devCounters rows q s).state ↔ StoreCanonical s := by
  unfold devCounters
  simp

/-! The operations of Sys2Proof/Machine/MailOps.lean. -/

@[simp] theorem storeCanonical_submit (h : HostId) (bytes : List Byte) (src : BitVec 16) (gallery : Option GalIx) (arrival : Nat) (s : State) : StoreCanonical (submit h bytes src gallery arrival s).1 ↔ StoreCanonical s := by
  unfold submit
  simp
  split <;> simp

@[simp] theorem storeCanonical_apertureWrite (h : HostId) (src : BitVec 16) (off : Nat) (data : List Byte) (s : State) : StoreCanonical (apertureWrite h src off data s) ↔ StoreCanonical s := by
  unfold apertureWrite
  simp

@[simp] theorem storeCanonical_doorbell (g : GalIx) (src : BitVec 16) (arrival : Nat) (s : State) : StoreCanonical (doorbell g src arrival s) ↔ StoreCanonical s := by
  unfold doorbell
  simp

@[simp] theorem storeCanonical_rspAck (h : HostId) (src : BitVec 16) (s : State) : StoreCanonical (rspAck h src s) ↔ StoreCanonical s := by
  unfold rspAck
  split <;> simp

@[simp] theorem storeCanonical_mailRegWrite (g : GalIx) (src : BitVec 16) (arrival off : Nat) (b : Byte) (s : State) : StoreCanonical (mailRegWrite g src arrival off b s) ↔ StoreCanonical s := by
  unfold mailRegWrite
  simp

@[simp] theorem storeCanonical_mailWrite (g : GalIx) (src : BitVec 16) (arrival off : Nat) (data : List Byte) (s : State) : StoreCanonical (mailWrite g src arrival off data s).2 ↔ StoreCanonical s := by
  unfold mailWrite
  dsimp only
  (repeat' split) <;> simp

/-! The operations of Sys2Proof/Machine/BridgeOps.lean. -/

@[simp] theorem storeCanonical_refuse (a : Asker) (status : Nat) (s : State) : StoreCanonical (refuse a status s) ↔ StoreCanonical s := by
  unfold refuse
  simp

@[simp] theorem storeCanonical_refuseTag (a : Asker) (status : Nat) (s : State) : StoreCanonical (refuseTag a status s) ↔ StoreCanonical s := by
  unfold refuseTag
  simp

@[simp] theorem storeCanonical_withBuffer (src : BitVec 16) (a : Nat) (data ahead : List Byte) (s : State) : StoreCanonical (withBuffer src a data ahead s).2 ↔ StoreCanonical s := Iff.rfl

@[simp] theorem storeCanonical_dropBuffers (a n : Nat) (s : State) : StoreCanonical (dropBuffers a n s) ↔ StoreCanonical s := Iff.rfl

@[simp] theorem storeCanonical_queuePortL (w : BitVec 128) (x : Access) (read : Bool) (posted : Option Nat) (s : State) : StoreCanonical (queuePortL w x read posted s) ↔ StoreCanonical s := Iff.rfl

@[simp] theorem storeCanonical_noWindow (s : State) : StoreCanonical (noWindow s) ↔ StoreCanonical s := Iff.rfl

@[simp] theorem storeCanonical_acceptPosted (w : BitVec 128) (x : Access) (s : State) : StoreCanonical (acceptPosted w x s) ↔ StoreCanonical s := by
  unfold acceptPosted
  simp

@[simp] theorem storeCanonical_servePosted (p : Parcel) (port arrival : Nat) (s : State) : StoreCanonical (servePosted p port arrival s) ↔ StoreCanonical s := by
  unfold servePosted
  dsimp only
  (repeat' split) <;> simp

/-! The operations of Sys2Proof/Machine/BridgeCmds.lean. -/

@[simp] theorem storeCanonical_takeMgmt (port : Nat) (p : Parcel) (s : State) : StoreCanonical (takeMgmt port p s) ↔ StoreCanonical s := Iff.rfl

@[simp] theorem storeCanonical_takeCompletion (p : Parcel) (s : State) : StoreCanonical (takeCompletion p s) ↔ StoreCanonical s := by
  unfold takeCompletion
  split <;> simp

@[simp] theorem storeCanonical_relayEvent (p : Parcel) (s : State) : StoreCanonical (relayEvent p s) ↔ StoreCanonical s := by
  unfold relayEvent
  simp

@[simp] theorem storeCanonical_onBus (kind : PlReq → Bool) (run : PlReq → State → State) (s : State)
    (h : ∀ r u, StoreCanonical (run r u) ↔ StoreCanonical u) : StoreCanonical (onBus kind run s) ↔ StoreCanonical s := by
  unfold onBus
  split <;> simp [h]

@[simp] theorem storeCanonical_loseTurn (r : PlReq) (s : State) : StoreCanonical (loseTurn r s) ↔ StoreCanonical s := by
  unfold loseTurn
  simp

/-! The operations of Sys2Proof/Machine/SystemCmds.lean. -/

@[simp] theorem storeCanonical_doInfo (x0 : Req) (s : State) : StoreCanonical (doInfo x0 s).state ↔ StoreCanonical s := Iff.rfl

@[simp] theorem storeCanonical_doReset (q : Req) (s : State) : StoreCanonical (doReset q s).state ↔ StoreCanonical s := by
  unfold doReset
  simp

@[simp] theorem storeCanonical_modProfile (n : Nat) (p : Profile) (s : State) : StoreCanonical (modProfile n p s) ↔ StoreCanonical s := Iff.rfl

@[simp] theorem storeCanonical_doProfileSave (q : Req) (s : State) : StoreCanonical (doProfileSave q s).state ↔ StoreCanonical s := by
  unfold doProfileSave
  simp

@[simp] theorem storeCanonical_doProfileSelect (q : Req) (s : State) : StoreCanonical (doProfileSelect q s).state ↔ StoreCanonical s := by
  unfold doProfileSelect
  simp

@[simp] theorem storeCanonical_doProfileErase (q : Req) (s : State) : StoreCanonical (doProfileErase q s).state ↔ StoreCanonical s := by
  unfold doProfileErase
  simp

@[simp] theorem storeCanonical_doProfileList (x0 : Req) (s : State) : StoreCanonical (doProfileList x0 s).state ↔ StoreCanonical s := Iff.rfl

@[simp] theorem storeCanonical_giveToken (w : Holder) (s : State) : StoreCanonical (giveToken w s) ↔ StoreCanonical s := by
  unfold giveToken
  split <;> simp

@[simp] theorem storeCanonical_takeDomain (w : Holder) (g : Option Nat) (d : Nat) (s : State) : StoreCanonical (takeDomain w g d s) ↔ StoreCanonical s := by
  unfold takeDomain
  simp

@[simp] theorem storeCanonical_doAcquire (q : Req) (s : State) : StoreCanonical (doAcquire q s).state ↔ StoreCanonical s := by
  unfold doAcquire
  simp

@[simp] theorem storeCanonical_doRelease (q : Req) (s : State) : StoreCanonical (doRelease q s).state ↔ StoreCanonical s := by
  unfold doRelease
  simp

@[simp] theorem storeCanonical_doRenew (q : Req) (s : State) : StoreCanonical (doRenew q s).state ↔ StoreCanonical s := by
  unfold doRenew
  simp

@[simp] theorem storeCanonical_dropStaged (tok : BitVec 32) (s : State) : StoreCanonical (dropStaged tok s) ↔ StoreCanonical s := Iff.rfl

@[simp] theorem storeCanonical_doDiscard (q : Req) (s : State) : StoreCanonical (doDiscard q s).state ↔ StoreCanonical s := Iff.rfl

@[simp] theorem storeCanonical_doLeaseStatus (x0 : Req) (s : State) : StoreCanonical (doLeaseStatus x0 s).state ↔ StoreCanonical s := Iff.rfl

/-! The operations of Sys2Proof/Machine/GalleryCmds.lean. -/

@[simp] theorem storeCanonical_modLive (f : Live → Live) (s : State) : StoreCanonical (modLive f s) ↔ StoreCanonical s := Iff.rfl

@[simp] theorem storeCanonical_modSet (g : GalIx) (f : GalSet → GalSet) (s : State) : StoreCanonical (modSet g f s) ↔ StoreCanonical s := Iff.rfl

@[simp] theorem storeCanonical_modLaneSet (g : GalIx) (l : LaneIx) (f : LaneSet → LaneSet) (s : State) : StoreCanonical (modLaneSet g l f s) ↔ StoreCanonical s := Iff.rfl

@[simp] theorem storeCanonical_doGalStatus (q : Req) (s : State) : StoreCanonical (doGalStatus q s).state ↔ StoreCanonical s := by
  unfold doGalStatus
  exact storeCanonical_onGal _ _ _ fun g => Iff.rfl

@[simp] theorem storeCanonical_doProvision (q : Req) (s : State) : StoreCanonical (doProvision q s).state ↔ StoreCanonical s := by
  unfold doProvision
  simp

@[simp] theorem storeCanonical_dropRecords (g : GalIx) (s : State) : StoreCanonical (dropRecords g s) ↔ StoreCanonical s := Iff.rfl

@[simp] theorem storeCanonical_resetGallery (g : GalIx) (s : State) : StoreCanonical (resetGallery g s) ↔ StoreCanonical s := by
  unfold resetGallery
  simp

@[simp] theorem storeCanonical_doGalReset (q : Req) (s : State) : StoreCanonical (doGalReset q s).state ↔ StoreCanonical s := by
  unfold doGalReset
  simp

@[simp] theorem storeCanonical_notePower (s0 s : State) : StoreCanonical (notePower s0 s) ↔ StoreCanonical s := by
  unfold notePower
  simp

@[simp] theorem storeCanonical_doIdle (q : Req) (s : State) : StoreCanonical (doIdle q s).state ↔ StoreCanonical s := by
  unfold doIdle
  simp

@[simp] theorem storeCanonical_doCreditSet (q : Req) (s : State) : StoreCanonical (doCreditSet q s).state ↔ StoreCanonical s := by
  unfold doCreditSet
  simp

@[simp] theorem storeCanonical_doCreditGet (q : Req) (s : State) : StoreCanonical (doCreditGet q s).state ↔ StoreCanonical s := by
  unfold doCreditGet
  exact storeCanonical_onGal _ _ _ fun g => Iff.rfl

@[simp] theorem storeCanonical_doGalCounters (q : Req) (s : State) : StoreCanonical (doGalCounters q s).state ↔ StoreCanonical s := by
  unfold doGalCounters
  simp

@[simp] theorem storeCanonical_doLaneCounters (q : Req) (s : State) : StoreCanonical (doLaneCounters q s).state ↔ StoreCanonical s := by
  unfold doLaneCounters
  simp

@[simp] theorem storeCanonical_doEqSet (q : Req) (s : State) : StoreCanonical (doEqSet q s).state ↔ StoreCanonical s := by
  unfold doEqSet
  simp

@[simp] theorem storeCanonical_doEqGet (q : Req) (s : State) : StoreCanonical (doEqGet q s).state ↔ StoreCanonical s := by
  unfold doEqGet
  simp

@[simp] theorem storeCanonical_doTxSet (q : Req) (s : State) : StoreCanonical (doTxSet q s).state ↔ StoreCanonical s := by
  unfold doTxSet
  simp

@[simp] theorem storeCanonical_doTrainSet (q : Req) (s : State) : StoreCanonical (doTrainSet q s).state ↔ StoreCanonical s := by
  unfold doTrainSet
  simp

@[simp] theorem storeCanonical_doTrainStatus (q : Req) (s : State) : StoreCanonical (doTrainStatus q s).state ↔ StoreCanonical s := by
  unfold doTrainStatus
  exact storeCanonical_onGal _ _ _ fun g => Iff.rfl

@[simp] theorem storeCanonical_orderFull (g : GalIx) (s : State) : StoreCanonical (orderFull g s) ↔ StoreCanonical s := by
  unfold orderFull
  simp

@[simp] theorem storeCanonical_orderStep (g : GalIx) (tread : Nat) (s : State) : StoreCanonical (orderStep g tread s) ↔ StoreCanonical s := by
  unfold orderStep
  simp

@[simp] theorem storeCanonical_doRetrain (q : Req) (s : State) : StoreCanonical (doRetrain q s).state ↔ StoreCanonical s := by
  unfold doRetrain
  simp

/-! The operations of Sys2Proof/Machine/WorkCmds.lean. -/

@[simp] theorem state_notStraight (s : State) (k : Reply) : (notStraight s k).state = if !straightOnly s then k.state else s := state_guardR _ _ _ _

@[simp] theorem storeCanonical_changeMode (m : CutMode) (s : State) : StoreCanonical (changeMode m s) ↔ StoreCanonical s := by
  unfold changeMode
  split <;> simp

@[simp] theorem storeCanonical_doModeSet (q : Req) (s : State) : StoreCanonical (doModeSet q s).state ↔ StoreCanonical s := by
  unfold doModeSet
  simp

@[simp] theorem storeCanonical_doRun (q : Req) (s : State) : StoreCanonical (doRun q s).state ↔ StoreCanonical s := by
  unfold doRun
  simp

@[simp] theorem storeCanonical_doCutRegionSet (q : Req) (s : State) : StoreCanonical (doCutRegionSet q s).state ↔ StoreCanonical s := by
  unfold doCutRegionSet
  simp

@[simp] theorem storeCanonical_entryRecord (r : Nat) (s : State) : StoreCanonical (entryRecord r s).2 ↔ StoreCanonical s := by
  unfold entryRecord
  simp

/-- Reading entries one after the other leaves the store. -/
theorem storeCanonical_entryRecords (first : Nat) (l : List Nat) (a : List Byte × State) :
    StoreCanonical (l.foldl (fun (a : List Byte × State) k => ((a.1 ++ (entryRecord (first + k) a.2).1, (entryRecord (first + k) a.2).2))) a).2 ↔ StoreCanonical a.2 := by
  induction l generalizing a with
  | nil => rfl
  | cons k l ih => simp [ih]

@[simp] theorem storeCanonical_doEntryGet (q : Req) (s : State) : StoreCanonical (doEntryGet q s).state ↔ StoreCanonical s := by
  unfold doEntryGet
  simp [storeCanonical_entryRecords]

@[simp] theorem storeCanonical_doInputsGet (q : Req) (s : State) : StoreCanonical (doInputsGet q s).state ↔ StoreCanonical s := Iff.rfl

@[simp] theorem storeCanonical_doCutStatus (q : Req) (s : State) : StoreCanonical (doCutStatus q s).state ↔ StoreCanonical s := Iff.rfl

@[simp] theorem storeCanonical_doCorrRegionSet (q : Req) (s : State) : StoreCanonical (doCorrRegionSet q s).state ↔ StoreCanonical s := by
  unfold doCorrRegionSet
  simp

@[simp] theorem storeCanonical_doCorrRegionGet (q : Req) (s : State) : StoreCanonical (doCorrRegionGet q s).state ↔ StoreCanonical s := Iff.rfl

@[simp] theorem storeCanonical_doCommit (q : Req) (s : State) : StoreCanonical (doCommit q s).state ↔ StoreCanonical s := by
  unfold doCommit
  simp

@[simp] theorem storeCanonical_doSafeAlloc (q : Req) (s : State) : StoreCanonical (doSafeAlloc q s).state ↔ StoreCanonical s := by
  unfold doSafeAlloc
  simp
  split <;> simp

@[simp] theorem storeCanonical_doSafeCommit (q : Req) (s : State) : StoreCanonical (doSafeCommit q s).state ↔ StoreCanonical s := by
  unfold doSafeCommit
  simp

@[simp] theorem storeCanonical_doSafeFree (q : Req) (s : State) : StoreCanonical (doSafeFree q s).state ↔ StoreCanonical s := by
  unfold doSafeFree
  simp

@[simp] theorem storeCanonical_doCorrStatus (q : Req) (s : State) : StoreCanonical (doCorrStatus q s).state ↔ StoreCanonical s := Iff.rfl

/-! The operations of Sys2Proof/Machine/GuardCmds.lean. -/

@[simp] theorem storeCanonical_checkPassword (block : List Byte) (q : Req) (s : State) : StoreCanonical (checkPassword block q s).state ↔ StoreCanonical s := by
  unfold checkPassword
  simp

@[simp] theorem storeCanonical_setPassword (pw : List Byte) (q : Req) (s : State) : StoreCanonical (setPassword pw q s) ↔ StoreCanonical s := by
  unfold setPassword
  simp

@[simp] theorem storeCanonical_guardSetting (q : Req) (s : State) (k : Reply) (h : StoreCanonical k.state ↔ StoreCanonical s) :
    StoreCanonical (guardSetting q s k).state ↔ StoreCanonical s := by
  unfold guardSetting
  simp [h]

@[simp] theorem storeCanonical_logSetting (target : Nat) (q : Req) (old new : List Byte) (s : State) : StoreCanonical (logSetting target q old new s) ↔ StoreCanonical s := by
  unfold logSetting
  simp

@[simp] theorem storeCanonical_doGroupSet (q : Req) (s : State) : StoreCanonical (doGroupSet q s).state ↔ StoreCanonical s := by
  unfold doGroupSet
  split <;> simp

@[simp] theorem storeCanonical_doMonitorSet (q : Req) (s : State) : StoreCanonical (doMonitorSet q s).state ↔ StoreCanonical s := by
  unfold doMonitorSet
  split <;> simp

@[simp] theorem storeCanonical_doUnlock (q : Req) (s : State) : StoreCanonical (doUnlock q s).state ↔ StoreCanonical s := by
  unfold doUnlock
  simp

@[simp] theorem storeCanonical_doLock (q : Req) (s : State) : StoreCanonical (doLock q s).state ↔ StoreCanonical s := by
  unfold doLock
  simp

@[simp] theorem storeCanonical_doPasswordSet (q : Req) (s : State) : StoreCanonical (doPasswordSet q s).state ↔ StoreCanonical s := by
  unfold doPasswordSet
  split <;> simp

@[simp] theorem storeCanonical_doOrder (q : Req) (s : State) : StoreCanonical (doOrder q s).state ↔ StoreCanonical s := by
  unfold doOrder
  simp

@[simp] theorem storeCanonical_doSafetyRelease (q : Req) (s : State) : StoreCanonical (doSafetyRelease q s).state ↔ StoreCanonical s := by
  unfold doSafetyRelease
  simp

@[simp] theorem storeCanonical_armRelease (q : Req) (s : State) : StoreCanonical (armRelease q s) ↔ StoreCanonical s := Iff.rfl

@[simp] theorem storeCanonical_openSession (q : Req) (s : State) : StoreCanonical (openSession q s) ↔ StoreCanonical s := by
  unfold openSession
  simp

@[simp] theorem storeCanonical_afterCheck (w : Waiting) (s : State) : StoreCanonical (afterCheck w s) ↔ StoreCanonical s := by
  unfold afterCheck
  simp
  split <;> simp

@[simp] theorem storeCanonical_endCheck (h : HostId) (s : State) : StoreCanonical (endCheck h s) ↔ StoreCanonical s := by
  unfold endCheck
  split <;> simp

@[simp] theorem storeCanonical_doSafetyStatus (q : Req) (s : State) : StoreCanonical (doSafetyStatus q s).state ↔ StoreCanonical s := Iff.rfl

@[simp] theorem storeCanonical_doSafetyLogRead (q : Req) (s : State) : StoreCanonical (doSafetyLogRead q s).state ↔ StoreCanonical s := by
  unfold doSafetyLogRead
  simp

@[simp] theorem storeCanonical_doLogAck (q : Req) (s : State) : StoreCanonical (doLogAck q s).state ↔ StoreCanonical s := by
  unfold doLogAck
  simp

/-! The operations of Sys2Proof/Machine/LinkCmds.lean. -/

@[simp] theorem storeCanonical_doNodeSet (q : Req) (s : State) : StoreCanonical (doNodeSet q s).state ↔ StoreCanonical s := by
  unfold doNodeSet
  simp

@[simp] theorem storeCanonical_doRouteSet (q : Req) (s : State) : StoreCanonical (doRouteSet q s).state ↔ StoreCanonical s := by
  unfold doRouteSet
  simp

@[simp] theorem storeCanonical_doRouteGet (q : Req) (s : State) : StoreCanonical (doRouteGet q s).state ↔ StoreCanonical s := by
  unfold doRouteGet
  simp

@[simp] theorem storeCanonical_doWindowSet (q : Req) (s : State) : StoreCanonical (doWindowSet q s).state ↔ StoreCanonical s := by
  unfold doWindowSet
  split <;> simp

@[simp] theorem storeCanonical_doWindowGet (q : Req) (s : State) : StoreCanonical (doWindowGet q s).state ↔ StoreCanonical s := Iff.rfl

@[simp] theorem storeCanonical_doSinkSet (q : Req) (s : State) : StoreCanonical (doSinkSet q s).state ↔ StoreCanonical s := by
  unfold doSinkSet
  split <;> simp

@[simp] theorem storeCanonical_doRingSet (q : Req) (s : State) : StoreCanonical (doRingSet q s).state ↔ StoreCanonical s := by
  unfold doRingSet
  simp

@[simp] theorem storeCanonical_doEventRead (q : Req) (s : State) : StoreCanonical (doEventRead q s).state ↔ StoreCanonical s := Iff.rfl

@[simp] theorem storeCanonical_sendOwn (p : Parcel) (s : State) : StoreCanonical (sendOwn p s).1 ↔ StoreCanonical s := by
  unfold sendOwn
  split <;> simp

@[simp] theorem storeCanonical_doRemote (q : Req) (s : State) : StoreCanonical (doRemote q s).state ↔ StoreCanonical s := by
  unfold doRemote
  simp

@[simp] theorem storeCanonical_syncAnswer (src : BitVec 16) (s : State) : StoreCanonical (syncAnswer src s).2 ↔ StoreCanonical s := Iff.rfl

@[simp] theorem storeCanonical_doSync (q : Req) (s : State) : StoreCanonical (doSync q s).state ↔ StoreCanonical s := by
  unfold doSync
  simp

@[simp] theorem storeCanonical_endSync (h : HostId) (s : State) : StoreCanonical (endSync h s) ↔ StoreCanonical s := by
  unfold endSync
  split <;> simp

@[simp] theorem storeCanonical_doLateErrors (q : Req) (s : State) : StoreCanonical (doLateErrors q s).state ↔ StoreCanonical s := Iff.rfl

@[simp] theorem storeCanonical_doTwConfig (q : Req) (s : State) : StoreCanonical (doTwConfig q s).state ↔ StoreCanonical s := by
  unfold doTwConfig
  simp

@[simp] theorem storeCanonical_doTwlConfig (q : Req) (s : State) : StoreCanonical (doTwlConfig q s).state ↔ StoreCanonical s := by
  unfold doTwlConfig
  simp

@[simp] theorem storeCanonical_doTwlRecover (q : Req) (s : State) : StoreCanonical (doTwlRecover q s).state ↔ StoreCanonical s := by
  unfold doTwlRecover
  simp

/-! The operations of Sys2Proof/Machine/SupplyCmds.lean. -/

@[simp] theorem storeCanonical_doStateSet (q : Req) (s : State) : StoreCanonical (doStateSet q s).state ↔ StoreCanonical s := by
  unfold doStateSet
  simp

@[simp] theorem storeCanonical_doRefSelect (q : Req) (s : State) : StoreCanonical (doRefSelect q s).state ↔ StoreCanonical s := by
  unfold doRefSelect
  split <;> simp

@[simp] theorem storeCanonical_doRefoutSet (q : Req) (s : State) : StoreCanonical (doRefoutSet q s).state ↔ StoreCanonical s := by
  unfold doRefoutSet
  split <;> simp

/-! The operations of Sys2Proof/Machine/DiagCmds.lean. -/

@[simp] theorem storeCanonical_onLanes (q : Req) (s : State) (k : GalIx → List LaneIx → Reply) (h : ∀ g l, StoreCanonical (k g l).state ↔ StoreCanonical s) :
    StoreCanonical (onLanes q s k).state ↔ StoreCanonical s := by
  unfold onLanes
  refine storeCanonical_onGal _ _ _ fun g => ?_
  split
  · exact h _ _
  · rfl

@[simp] theorem storeCanonical_takeGallery (g : GalIx) (s : State) : StoreCanonical (takeGallery g s) ↔ StoreCanonical s := by
  unfold takeGallery
  simp

@[simp] theorem storeCanonical_doLoopSet (q : Req) (s : State) : StoreCanonical (doLoopSet q s).state ↔ StoreCanonical s := by
  unfold doLoopSet
  simp

@[simp] theorem storeCanonical_setPattern (q : Req) (g : GalIx) (l : LaneIx) (s : State) : StoreCanonical (setPattern q g l s) ↔ StoreCanonical s := Iff.rfl

@[simp] theorem storeCanonical_sendPatterns (g : GalIx) (t : Tread) (s : State) : StoreCanonical (sendPatterns g t s) ↔ StoreCanonical s := by
  unfold sendPatterns
  simp

@[simp] theorem storeCanonical_doPrbsSet (q : Req) (s : State) : StoreCanonical (doPrbsSet q s).state ↔ StoreCanonical s := by
  unfold doPrbsSet
  refine storeCanonical_onLanes _ _ _ fun g ls => ?_
  split <;> simp

@[simp] theorem storeCanonical_doPrbsGet (q : Req) (s : State) : StoreCanonical (doPrbsGet q s).state ↔ StoreCanonical s := by
  unfold doPrbsGet
  exact storeCanonical_onGal _ _ _ fun g => Iff.rfl

@[simp] theorem storeCanonical_doEyeScan (q : Req) (s : State) : StoreCanonical (doEyeScan q s).state ↔ StoreCanonical s := by
  unfold doEyeScan
  refine storeCanonical_onGal _ _ _ fun g => ?_
  split
  · simp only [state_guardR]
    split
    · split
      · split <;> simp
      · rfl
    · rfl
  · rfl

@[simp] theorem storeCanonical_doLogRead (q : Req) (s : State) : StoreCanonical (doLogRead q s).state ↔ StoreCanonical s := by
  unfold doLogRead
  simp

@[simp] theorem storeCanonical_modLog (f : EventLog → EventLog) (s : State) : StoreCanonical (modLog f s) ↔ StoreCanonical s := Iff.rfl

@[simp] theorem storeCanonical_endStream (s : State) : StoreCanonical (endStream s) ↔ StoreCanonical s := Iff.rfl

@[simp] theorem storeCanonical_doLogStream (q : Req) (s : State) : StoreCanonical (doLogStream q s).state ↔ StoreCanonical s := by
  unfold doLogStream
  simp

/-! The operations of Sys2Proof/Machine/UpdateCmds.lean. -/

@[simp] theorem storeCanonical_modUpd (f : Update → Update) (s : State) : StoreCanonical (modUpd f s) ↔ StoreCanonical s := Iff.rfl

@[simp] theorem storeCanonical_doUpdBegin (q : Req) (s : State) : StoreCanonical (doUpdBegin q s).state ↔ StoreCanonical s := by
  unfold doUpdBegin
  dsimp only
  split <;> simp

@[simp] theorem storeCanonical_doUpdChunk (q : Req) (s : State) : StoreCanonical (doUpdChunk q s).state ↔ StoreCanonical s := by
  unfold doUpdChunk
  dsimp only
  split <;> simp

@[simp] theorem storeCanonical_doUpdVerify (x0 : Req) (s : State) : StoreCanonical (doUpdVerify x0 s).state ↔ StoreCanonical s := by
  unfold doUpdVerify
  simp

@[simp] theorem storeCanonical_answerUpd (op status : Nat) (payload : List Byte) (s : State) : StoreCanonical (answerUpd op status payload s) ↔ StoreCanonical s := by
  unfold answerUpd
  simp

@[simp] theorem storeCanonical_doUpdCommit (x0 : Req) (s : State) : StoreCanonical (doUpdCommit x0 s).state ↔ StoreCanonical s := by
  unfold doUpdCommit
  simp

@[simp] theorem storeCanonical_failCommit (s : State) : StoreCanonical (failCommit s) ↔ StoreCanonical s := Iff.rfl

@[simp] theorem storeCanonical_doUpdActivate (x0 : Req) (s : State) : StoreCanonical (doUpdActivate x0 s).state ↔ StoreCanonical s := by
  unfold doUpdActivate
  simp

@[simp] theorem storeCanonical_doUpdStatus (x0 : Req) (s : State) : StoreCanonical (doUpdStatus x0 s).state ↔ StoreCanonical s := Iff.rfl

/-! The operations of Sys2Proof/Machine/DebugCmds.lean. -/

@[simp] theorem storeCanonical_modDbg (f : Debug → Debug) (s : State) : StoreCanonical (modDbg f s) ↔ StoreCanonical s := Iff.rfl

@[simp] theorem storeCanonical_newNonce (s : State) : StoreCanonical (newNonce s) ↔ StoreCanonical s := Iff.rfl

@[simp] theorem storeCanonical_doNonce (x0 : Req) (s : State) : StoreCanonical (doNonce x0 s).state ↔ StoreCanonical s := Iff.rfl

@[simp] theorem storeCanonical_useToken (nonce : BitVec 256) (level key : Nat) (sig : List Byte) (s : State) : StoreCanonical (useToken nonce level key sig s).2 ↔ StoreCanonical s := by
  unfold useToken
  simp
  split <;> simp

@[simp] theorem storeCanonical_doDebugOpen (q : Req) (s : State) : StoreCanonical (doDebugOpen q s).state ↔ StoreCanonical s := by
  unfold doDebugOpen
  simp
  split <;> simp

@[simp] theorem storeCanonical_lifecycleChanged (old : Nat) (s : State) : StoreCanonical (lifecycleChanged old s) ↔ StoreCanonical s := by
  unfold lifecycleChanged
  simp

@[simp] theorem storeCanonical_secure (key : List Byte) (s : State) : StoreCanonical (secure key s) ↔ StoreCanonical s := by
  unfold secure
  simp

@[simp] theorem storeCanonical_retire (s : State) : StoreCanonical (retire s) ↔ StoreCanonical s := by
  unfold retire
  simp

@[simp] theorem storeCanonical_doLifecycle (q : Req) (s : State) : StoreCanonical (doLifecycle q s).state ↔ StoreCanonical s := by
  unfold doLifecycle
  simp

@[simp] theorem storeCanonical_doFreezeArm (q : Req) (s : State) : StoreCanonical (doFreezeArm q s).state ↔ StoreCanonical s := by
  unfold doFreezeArm
  simp

@[simp] theorem storeCanonical_doFreezeNow (x0 : Req) (s : State) : StoreCanonical (doFreezeNow x0 s).state ↔ StoreCanonical s := Iff.rfl

/-! The operations of Sys2Proof/Machine/Snapshot.lean. -/

@[simp] theorem storeCanonical_atFreeze (s : State) : StoreCanonical (atFreeze s) ↔ StoreCanonical s := by
  unfold atFreeze
  simp

@[simp] theorem storeCanonical_doSnapRead (q : Req) (s : State) : StoreCanonical (doSnapRead q s).state ↔ StoreCanonical s := by
  unfold doSnapRead
  simp

/-- Changes that may be staged leave the store. -/
theorem bodyKeepsStore_stageable : ∀ c ∈ stageable, BodyKeepsStore c := by
  unfold stageable
  simp only [List.forall_mem_cons]
  exact ⟨storeCanonical_doProvision, storeCanonical_doIdle, storeCanonical_doCreditSet, storeCanonical_doEqSet, storeCanonical_doTxSet,
    storeCanonical_doTrainSet, storeCanonical_doModeSet, storeCanonical_doCutRegionSet, storeCanonical_doCorrRegionSet, storeCanonical_doNodeSet,
    storeCanonical_doRouteSet, storeCanonical_doWindowSet, storeCanonical_doSinkSet, storeCanonical_doTwConfig, storeCanonical_doTwlConfig,
    storeCanonical_doRefSelect, storeCanonical_doRefoutSet, fun _ h => absurd h List.not_mem_nil⟩

/-! The operations of Sys2Proof/Machine/Mail.lean. -/

@[simp] theorem storeCanonical_applyStaged (e : Staged) (s : State) : StoreCanonical (applyStaged e s) ↔ StoreCanonical s := by
  unfold applyStaged
  split
  · rename_i c hc
    have hb := bodyKeepsStore_stageable c (List.mem_of_find?_eq_some hc) e.req s
    split <;> simp_all
  · rfl

@[simp] theorem storeCanonical_doLeaseCommit (q : Req) (s : State) : StoreCanonical (doLeaseCommit q s).state ↔ StoreCanonical s := by
  unfold doLeaseCommit
  simp
  split <;> simp

@[simp] theorem storeCanonical_answerBad (counter status op : Nat) (q : Req) (s : State) : StoreCanonical (answerBad counter status op q s) ↔ StoreCanonical s := by
  unfold answerBad
  simp

/-- The own work of every command of the interface leaves the store's bytes and backgrounds: writes reach them through the store's queue alone. -/
theorem bodyKeepsStore_allCmds : ∀ c ∈ allCmds, BodyKeepsStore c := by
  unfold allCmds
  simp only [List.cons_append, List.nil_append, List.forall_mem_cons]
  exact ⟨storeCanonical_doInfo, storeCanonical_doReset, fun _ _ => Iff.rfl, storeCanonical_devCounters _, storeCanonical_doProfileSave,
    storeCanonical_doProfileSelect, storeCanonical_doProfileErase, storeCanonical_doProfileList, storeCanonical_doAcquire, storeCanonical_doRelease,
    storeCanonical_doRenew, storeCanonical_doLeaseCommit, storeCanonical_doDiscard, storeCanonical_doLeaseStatus, storeCanonical_doGalStatus,
    storeCanonical_doProvision, storeCanonical_doGalReset, storeCanonical_doIdle, storeCanonical_doCreditSet, storeCanonical_doCreditGet,
    storeCanonical_doGalCounters, storeCanonical_doEqSet, storeCanonical_doEqGet, storeCanonical_doTxSet, storeCanonical_doLaneCounters,
    storeCanonical_doTrainSet, storeCanonical_doTrainStatus, storeCanonical_doRetrain, storeCanonical_doModeSet, storeCanonical_doRun,
    storeCanonical_doCutRegionSet, storeCanonical_doEntryGet, storeCanonical_doInputsGet, storeCanonical_doCutStatus, storeCanonical_devCounters _,
    storeCanonical_doCorrRegionSet, storeCanonical_doCorrRegionGet, storeCanonical_doCommit, storeCanonical_doSafeAlloc, storeCanonical_doSafeCommit,
    storeCanonical_doSafeFree, storeCanonical_doCorrStatus, storeCanonical_devCounters _, storeCanonical_doGroupSet, storeCanonical_doMonitorSet,
    storeCanonical_doUnlock, storeCanonical_doLock, storeCanonical_doPasswordSet, storeCanonical_doOrder, storeCanonical_doSafetyRelease,
    storeCanonical_doSafetyStatus, storeCanonical_doSafetyLogRead, storeCanonical_doLogAck, storeCanonical_devCounters _, storeCanonical_doNodeSet,
    storeCanonical_doRouteSet, storeCanonical_doRouteGet, storeCanonical_doWindowSet, storeCanonical_doWindowGet, storeCanonical_doSinkSet,
    storeCanonical_doRingSet, storeCanonical_doEventRead, storeCanonical_doRemote, storeCanonical_doSync, storeCanonical_doLateErrors,
    storeCanonical_devCounters _, storeCanonical_doTwConfig, storeCanonical_doTwlConfig, storeCanonical_doTwlRecover, storeCanonical_devCounters _,
    storeCanonical_doStateSet, fun _ _ => Iff.rfl, storeCanonical_doRefSelect, storeCanonical_doRefoutSet, fun _ _ => Iff.rfl,
    storeCanonical_devCounters _, storeCanonical_doLoopSet, storeCanonical_doPrbsSet, storeCanonical_doPrbsGet, storeCanonical_doEyeScan,
    fun _ _ => Iff.rfl, fun _ _ => Iff.rfl, storeCanonical_doLogRead, storeCanonical_doLogStream, storeCanonical_doUpdBegin, storeCanonical_doUpdChunk,
    storeCanonical_doUpdVerify, storeCanonical_doUpdCommit, storeCanonical_doUpdActivate, storeCanonical_doUpdStatus, storeCanonical_doNonce,
    storeCanonical_doDebugOpen, fun _ s => storeCanonical_setLevel (lifeLevel s.otp) false s, storeCanonical_doLifecycle,
    fun q s => storeCanonical_countersReply (devRecords violationRows s) false q s, storeCanonical_doFreezeArm, storeCanonical_doFreezeNow,
    storeCanonical_doSnapRead, fun _ h => absurd h List.not_mem_nil⟩

@[simp] theorem storeCanonical_takeFrame (h : HostId) (f : Submitted) (s : State) : StoreCanonical (takeFrame h f s) ↔ StoreCanonical s := by
  unfold takeFrame
  dsimp only
  split
  · split
    · simp
    · split
      · simp
      · split
        · rename_i c hc
          exact storeCanonical_serve c (bodyKeepsStore_allCmds c (List.mem_of_find?_eq_some hc)) _ _
        · split <;> simp
  · simp

@[simp] theorem wf_dropMark (safe : Bool) (r : Nat) (c : Correction) : (dropMark safe r c).wf = c.wf := rfl

@[simp] theorem storeCanonical_timeoutEffect (w : Waiting) (s : State) : StoreCanonical (timeoutEffect w s) ↔ StoreCanonical s := by
  unfold timeoutEffect
  simp

@[simp] theorem storeCanonical_endWait (h : HostId) (s : State) : StoreCanonical (endWait h s) ↔ StoreCanonical s := by
  unfold endWait
  split <;> simp

@[simp] theorem storeCanonical_lapseBinding (h : HostId) (s : State) : StoreCanonical (lapseBinding h s) ↔ StoreCanonical s := by
  unfold lapseBinding
  split <;> simp

@[simp] theorem storeCanonical_dropOldResponses (h : HostId) (s : State) : StoreCanonical (dropOldResponses h s) ↔ StoreCanonical s := by
  unfold dropOldResponses
  simp

@[simp] theorem storeCanonical_expireLease (d : Nat) (s : State) : StoreCanonical (expireLease d s) ↔ StoreCanonical s := by
  unfold expireLease
  simp

/-! The operations of Sys2Proof/Machine/PlaceCmds.lean. -/

@[simp] theorem storeCanonical_takeQueued (g : GalIx) (p : Parcel) (s : State) : StoreCanonical (takeQueued g p s) ↔ StoreCanonical s := Iff.rfl

@[simp] theorem storeCanonical_takeAnn (g : GalIx) (r : Nat) (withdraw : Bool) (a : AnnRec) (s : State) : StoreCanonical (takeAnn g r withdraw a s) ↔ StoreCanonical s := by
  unfold takeAnn
  simp

@[simp] theorem storeCanonical_disarmGone (r : Nat) (s : State) : StoreCanonical (disarmGone r s) ↔ StoreCanonical s := by
  unfold disarmGone
  simp

/-! The operations of Sys2Proof/Machine/TwoWire.lean. -/

@[simp] theorem storeCanonical_modPortM (f : PortM → PortM) (s : State) : StoreCanonical (modPortM f s) ↔ StoreCanonical s := Iff.rfl

@[simp] theorem storeCanonical_badPec (s : State) : StoreCanonical (badPec s) ↔ StoreCanonical s := Iff.rfl

@[simp] theorem storeCanonical_badProtocol (s : State) : StoreCanonical (badProtocol s) ↔ StoreCanonical s := Iff.rfl

@[simp] theorem storeCanonical_onMailbox (f : State → State) (s : State) (h : ∀ u, StoreCanonical (f u) ↔ StoreCanonical u) :
    StoreCanonical (onMailbox f s) ↔ StoreCanonical s := by
  unfold onMailbox
  split
  · simp
  · split <;> simp [h]

@[simp] theorem storeCanonical_rejectFrag (drop : Bool) (s : State) : StoreCanonical (rejectFrag drop s) ↔ StoreCanonical s := Iff.rfl

@[simp] theorem storeCanonical_putFrag (n : Byte) (body : List Byte) (pec : Option Byte) (s : State) : StoreCanonical (putFrag n body pec s) ↔ StoreCanonical s := by
  unfold putFrag
  simp

@[simp] theorem storeCanonical_sendBlock (sent block : List Byte) (s : State) : StoreCanonical (sendBlock sent block s) ↔ StoreCanonical s := Iff.rfl

@[simp] theorem storeCanonical_ringFrame (s : State) : StoreCanonical (ringFrame s) ↔ StoreCanonical s := by
  unfold ringFrame
  split <;> simp

@[simp] theorem storeCanonical_discardAssembly (s : State) : StoreCanonical (discardAssembly s) ↔ StoreCanonical s := Iff.rfl

@[simp] theorem storeCanonical_releaseTag (tag : Byte) (s : State) : StoreCanonical (releaseTag tag s) ↔ StoreCanonical s := by
  unfold releaseTag
  split <;> simp

@[simp] theorem storeCanonical_abort (action tag : Byte) (pec : Option Byte) (f : State → State) (s : State) (h : StoreCanonical (f s) ↔ StoreCanonical s) :
    StoreCanonical (abort action tag pec f s) ↔ StoreCanonical s := by
  unfold abort
  simp [h]

@[simp] theorem storeCanonical_onStatus (f : State → State) (s : State) (h : StoreCanonical (f s) ↔ StoreCanonical s) :
    StoreCanonical (onStatus f s) ↔ StoreCanonical s := by
  unfold onStatus
  simp [h]

@[simp] theorem storeCanonical_statusWrite (bytes : List Byte) (s : State) : StoreCanonical (statusWrite bytes s) ↔ StoreCanonical s := by
  unfold statusWrite
  split <;> simp

@[simp] theorem storeCanonical_captureBlock (s : State) : StoreCanonical (captureBlock s) ↔ StoreCanonical s := by
  unfold captureBlock
  simp

@[simp] theorem storeCanonical_statusRead (window : List Byte) (x1 : Nat) (x2 : State) : StoreCanonical (statusRead window x1 x2).2 ↔ StoreCanonical x2 := by
  induction x1 generalizing x2 with
  | zero => rfl
  | succ n ih =>
    simp only [statusRead, ih]
    split <;> simp

@[simp] theorem storeCanonical_discardTransaction (inPut : Bool) (s : State) : StoreCanonical (discardTransaction inPut s) ↔ StoreCanonical s := by
  unfold discardTransaction
  simp

@[simp] theorem storeCanonical_hostNotify (won acked : Bool) (s : State) : StoreCanonical (hostNotify won acked s) ↔ StoreCanonical s := by
  unfold hostNotify
  simp

/-! The operations of Sys2Proof/Machine/Tap.lean. -/

@[simp] theorem storeCanonical_shiftOut (n v : Nat) (s : State) : StoreCanonical (shiftOut n v s) ↔ StoreCanonical s := by
  unfold shiftOut
  simp

@[simp] theorem storeCanonical_scanCells (n pins new : Nat) (s : State) : StoreCanonical (scanCells n pins new s) ↔ StoreCanonical s := by
  unfold scanCells
  simp

@[simp] theorem storeCanonical_setCapture (n : Nat) (s : State) : StoreCanonical (setCapture n s) ↔ StoreCanonical s := Iff.rfl

/-! The operations of Sys2Proof/Tests/Slice0.lean. -/

@[simp] theorem storeCanonical_endLostOf (src : BitVec 16) (s : State) : StoreCanonical (endLostOf src s) ↔ StoreCanonical s := Iff.rfl

end Sys2Proof.Machine
end

section
/-! Operations that write the store, clear it or replace it keep its form: a reset, an extent assigned, a write performed, the store lost or erased. -/

namespace Sys2Proof.Machine

theorem StoreCanonical.resetDevice {s : State} (h : StoreCanonical s) (k : ResetKind) (hold : Option ResetHold) : StoreCanonical (resetDevice k hold s) :=
  keptStore_wf k s.corr h

theorem StoreCanonical.commandReset {s : State} (h : StoreCanonical s) : StoreCanonical (commandReset s) := by
  unfold Machine.commandReset
  simp [h.resetDevice]

theorem StoreCanonical.runDue {s : State} (h : StoreCanonical s) (d : Due) : StoreCanonical (runDue d s) := by
  cases d with
  | reset => exact StoreCanonical.commandReset (s := { s with power := { s.power with resetDue := none } }) h
  | release =>
    unfold Machine.runDue
    dsimp only
    split <;> simp [h]
  | _ => simp [Machine.runDue, h]

theorem StoreCanonical.settle {s : State} (h : StoreCanonical s) (t n : Nat) : StoreCanonical (settle t n s) := by
  induction n generalizing s with
  | zero => exact h
  | succ n ih =>
    unfold Machine.settle
    split
    · exact ih (StoreCanonical.runDue (by exact h) _)
    · exact h

theorem StoreCanonical.begin {s : State} (h : StoreCanonical s) (t : Nat) : StoreCanonical (begin t s) :=
  StoreCanonical.settle (s := { s with out := [] }) h t 16

theorem StoreCanonical.storeWrite {s : State} (h : StoreCanonical s) (a : Nat) (bs : List Byte) : StoreCanonical (storeWrite a bs s) := by
  have hput : (putBytes a bs s.corr).wf = true := putBytes_wf a bs s.corr h
  unfold Machine.storeWrite
  dsimp only
  split <;> simp [hput]

theorem StoreCanonical.assignExtent {s : State} (h : StoreCanonical s) (r base units : Nat) (dbuf : Bool) :
    StoreCanonical (assignExtent r base units dbuf s) := by
  unfold Machine.assignExtent
  simp [fillExtent_wf _ _ _ _ h]

theorem StoreCanonical.writeResult {s : State} (h : StoreCanonical s) (r : Nat) (e : Entry) (fresh : Bool) (pins : List Nat) :
    StoreCanonical (writeResult r e fresh pins s) := by
  have ha := h.assignExtent r e.storeBase.toNat e.storeUnits.toNat e.dbuf
  unfold Machine.writeResult
  dsimp only
  split_ifs <;> simp [h, ha]

/-- An operation done for each element keeps the form where each single one does. -/
theorem StoreCanonical.forAll {α : Type u} {f : α → State → State} (hf : ∀ a u, StoreCanonical u → StoreCanonical (f a u)) {s : State} (h : StoreCanonical s)
    (l : List α) : StoreCanonical (forAll l f s) := by
  unfold Machine.forAll
  induction l generalizing s with
  | nil => exact h
  | cons a l ih => exact ih (hf a s h)

theorem StoreCanonical.endRun {s : State} (h : StoreCanonical s) (i : RunInputs) : StoreCanonical (endRun i s) := by
  unfold Machine.endRun
  simp only [storeCanonical_runAgain, storeCanonical_doIf, storeCanonical_raise, storeCanonical_rebuildCopies, storeCanonical_writeEmpty]
  refine StoreCanonical.forAll (fun e u hu => hu.writeResult _ _ _ _) ?_ _
  simp [h]

theorem StoreCanonical.loseStore {s : State} (h : StoreCanonical s) : StoreCanonical (loseStore s) := by
  have hempty : storeForm [] [] = true := rfl
  unfold Machine.loseStore
  split
  · exact h
  · simp [hempty]

theorem StoreCanonical.eraseReturned (s : State) : StoreCanonical (eraseReturned s) :=
  StoreCanonical.resetDevice (s := { s with corr := { s.corr with dir := [], cells := [], fill := [], eccBad := [], queue := [], reader := [] } }) rfl .command none

theorem StoreCanonical.performWrite {s : State} (h : StoreCanonical s) (a : Nat) (bs : List Byte) (posted : Option Nat) (np : Option Asker) :
    StoreCanonical (performWrite a bs posted np s) := by
  have hw := h.storeWrite a bs
  unfold Machine.performWrite
  cases writeRefused s a bs.length <;> cases posted <;> cases np <;> simp [h, hw]

theorem StoreCanonical.storeStep {s : State} (h : StoreCanonical s) : StoreCanonical (storeStep s) := by
  unfold Machine.storeStep
  split
  · exact StoreCanonical.performWrite (by simp [h]) _ _ _ _
  · exact h

theorem StoreCanonical.drainStore {s : State} (h : StoreCanonical s) : StoreCanonical (drainStore s) :=
  StoreCanonical.forAll (f := fun _ => Machine.storeStep) (fun _ _ hu => hu.storeStep) h (List.range s.corr.queue.length)

theorem StoreCanonical.readTarget {s : State} (h : StoreCanonical s) (w : BitVec 128) (x : Access) (ahead : Nat) : StoreCanonical (readTarget w x ahead s) := by
  unfold Machine.readTarget
  dsimp only
  split
  · split <;> simp [h]
  · simp [h]
  · split_ifs
    · simp [h]
    · simp [h]
    · split <;> simp [h.drainStore]
  · simp [h]

theorem StoreCanonical.serveRead {s : State} (h : StoreCanonical s) (p : Parcel) (port ahead arrival : Nat) : StoreCanonical (serveRead p port ahead arrival s) := by
  unfold Machine.serveRead
  dsimp only
  generalize hs' : (if (bufferFor s (accessOf p port arrival).asker.src (accessOf p port arrival).address).isSome then s
    else modBridge (fun k => { k with prefetch := k.prefetch.filter fun y => y.src != (accessOf p port arrival).asker.src }) s) = s'
  have h' : StoreCanonical s' := by
    rw [← hs']
    simp [h]
  split_ifs
  · simp [h']
  · simp [h']
  · split
    · simp [h']
    · split_ifs
      · simp [h']
      · exact h'.readTarget _ _ _

theorem StoreCanonical.writeTarget {s : State} (h : StoreCanonical s) (w : BitVec 128) (x : Access) : StoreCanonical (writeTarget w x s) := by
  have hq : StoreCanonical (Machine.drainStore (modCorr (fun c => { c with queue := c.queue ++ storeWrites w x none (some x.asker) }) (dropBuffers x.address x.count s))) :=
    StoreCanonical.drainStore (by simp [h])
  unfold Machine.writeTarget
  dsimp only
  split
  · split <;> simp [h]
  · simp [h]
  · split_ifs
    · simp [h]
    · simp [h]
    · exact hq
  · simp [h]

theorem StoreCanonical.serveWrite {s : State} (h : StoreCanonical s) (p : Parcel) (port arrival : Nat) : StoreCanonical (serveWrite p port arrival s) := by
  unfold Machine.serveWrite
  dsimp only
  split_ifs
  · simp [h]
  · simp [h]
  · split
    · simp [h]
    · split_ifs
      · simp [h]
      · simp [h]
      · exact h.writeTarget _ _

theorem StoreCanonical.extest {s : State} (h : StoreCanonical s) (n pins new : Nat) : StoreCanonical (extest n pins new s) := by
  have hr := h.resetDevice .pin (some .extest)
  unfold Machine.extest
  dsimp only
  split <;> simp [h, hr]
end Sys2Proof.Machine
end

section
/-! Every command keeps the canonical form of the store. -/

namespace Sys2Proof.Machine

theorem effect_keeps {t : Nat} {ok : State → Bool} {f : State → State} {s u : State} (h : StoreCanonical s) (e : effect t ok f s = .next u)
    (hf : ∀ v, StoreCanonical v → StoreCanonical (f v)) : StoreCanonical u := by
  have hu : finish (if ok (begin t s) then f (begin t s) else begin t s) = u := by injection e
  rw [← hu, storeCanonical_finish]
  split
  · exact hf _ (h.begin t)
  · exact h.begin t

/-- A meaning whose every answer keeps the form. -/
def KeepsStore (a : State → Answer) : Prop := ∀ s u, StoreCanonical s → a s = .next u → StoreCanonical u

theorem effect_leaves {t : Nat} {ok : State → Bool} {f : State → State} {s u : State} (h : StoreCanonical s) (e : effect t ok f s = .next u)
    (hf : ∀ v, StoreCanonical (f v) ↔ StoreCanonical v) : StoreCanonical u := effect_keeps h e fun v => (hf v).2

theorem command_leaves {t : Nat} {c : Cmd} {q : Req} {s u : State} (h : StoreCanonical s) (e : command t c q s = .next u) (hc : BodyKeepsStore c) :
    StoreCanonical u :=
  effect_leaves h e fun _ => (storeCanonical_serve c hc q _).trans Iff.rfl

theorem tap_keeps {t code : Nat} {f : State → State} {s u : State} (h : StoreCanonical s) (e : tap t code f s = .next u)
    (hf : ∀ v, StoreCanonical v → StoreCanonical (f v)) : StoreCanonical u := by
  refine effect_keeps h e fun v hv => ?_
  split_ifs
  · simp [hv]
  · simp [hv]
  · exact hf _ (by simp [hv])

theorem tap_leaves {t code : Nat} {f : State → State} {s u : State} (h : StoreCanonical s) (e : tap t code f s = .next u)
    (hf : ∀ v, StoreCanonical (f v) ↔ StoreCanonical v) : StoreCanonical u := tap_keeps h e fun v => (hf v).2

theorem mbxScan_leaves {t : Nat} {f : State → State} {s u : State} (h : StoreCanonical s) (e : mbxScan t f s = .next u)
    (hf : ∀ v, StoreCanonical (f v) ↔ StoreCanonical v) : StoreCanonical u := tap_leaves h e fun v => by simp [hf]

theorem keepsStore_execDetectProbe (t : Nat) (g : GalIx) (clk : Bool) (found : BitVec 8) : KeepsStore (execDetectProbe t g clk found) := fun _ _ h e => effect_leaves h e fun v => by simp

theorem keepsStore_execClockActivitySeen (t : Nat) (g : GalIx) : KeepsStore (execClockActivitySeen t g) := fun _ _ h e => effect_leaves h e fun v => by simp

theorem keepsStore_execTerminationLost (t : Nat) (g : GalIx) : KeepsStore (execTerminationLost t g) := fun _ _ h e => effect_leaves h e fun v => by simp

theorem keepsStore_execTrainTimerExpiry (t : Nat) (g : GalIx) (rx : Bool) : KeepsStore (execTrainTimerExpiry t g rx) := by
  intro s u h e
  refine effect_leaves h e fun v => ?_
  dsimp only
  split <;> simp

theorem keepsStore_execBackoffExpiry (t : Nat) (g : GalIx) : KeepsStore (execBackoffExpiry t g) := by
  intro s u h e
  refine effect_leaves h e fun v => ?_
  split <;> simp

theorem keepsStore_execCapReceive (t : Nat) (g : GalIx) (lane : LaneIx) (c : Cap) : KeepsStore (execCapReceive t g lane c) := fun _ _ h e => effect_leaves h e fun v => by simp

theorem keepsStore_execLandingReceive (t : Nat) (g : GalIx) (_lane : LaneIx) (l : Landing) : KeepsStore (execLandingReceive t g _lane l) := by
  intro s u h e
  refine effect_leaves h e fun v => ?_
  dsimp only
  (repeat' split) <;> simp

theorem keepsStore_execEqReqReceive (t : Nat) (g : GalIx) (pos : BitVec 3) (count : BitVec 5) (request : BitVec 8) : KeepsStore (execEqReqReceive t g pos count request) := fun _ _ h e => effect_leaves h e fun v => by simp

theorem keepsStore_execEqAckReceive (t : Nat) (g : GalIx) (_lane : LaneIx) (pos : BitVec 3) (count : BitVec 5) (cm2 cm1 cp1 cp2 : BitVec 8) (areas : List Nat) : KeepsStore (execEqAckReceive t g _lane pos count cm2 cm1 cp1 cp2 areas) := by
  intro s u h e
  refine effect_leaves h e fun v => ?_
  dsimp only
  (repeat' split) <;> simp

theorem keepsStore_execQualReceive (t : Nat) (g : GalIx) (_lane : LaneIx) (tread : BitVec 3) (fec : BitVec 1) (countdown : BitVec 16) : KeepsStore (execQualReceive t g _lane tread fec countdown) := fun _ _ h e => effect_leaves h e fun v => by simp

theorem keepsStore_execQualCountdownEnd (t : Nat) (g : GalIx) (rx : Bool) : KeepsStore (execQualCountdownEnd t g rx) := by
  have hpass : ∀ v, StoreCanonical (execQualCountdownEnd.passToPrbs g v) ↔ StoreCanonical v := fun v => by
    unfold execQualCountdownEnd.passToPrbs
    split <;> simp
  intro s u h e
  refine effect_leaves h e fun v => ?_
  dsimp only
  split_ifs
  · simp
  · rfl
  · rfl
  · simp [hpass]
  · split <;> simp [hpass]

theorem keepsStore_execQualifyEnd (t : Nat) (g : GalIx) (results : List LaneQual) : KeepsStore (execQualifyEnd t g results) := fun _ _ h e => effect_leaves h e fun v => by simp

theorem keepsStore_execResultReceive (t : Nat) (g : GalIx) (r : ResultBlk) : KeepsStore (execResultReceive t g r) := by
  intro s u h e
  refine effect_leaves h e fun v => ?_
  dsimp only
  (repeat' split) <;> simp

theorem keepsStore_execStepReceive (t : Nat) (g : GalIx) (b : StepBlk) : KeepsStore (execStepReceive t g b) := by
  intro s u h e
  refine effect_leaves h e fun v => ?_
  dsimp only
  split <;> simp

theorem keepsStore_execStepBoundary (t : Nat) (g : GalIx) (rx : Bool) : KeepsStore (execStepBoundary t g rx) := by
  intro s u h e
  refine effect_leaves h e fun v => ?_
  dsimp only
  (repeat' split) <;> simp

theorem keepsStore_execGuardEnd (t : Nat) (g : GalIx) (rx : Bool) : KeepsStore (execGuardEnd t g rx) := fun _ _ h e => effect_leaves h e fun v => by simp

theorem keepsStore_execActivateSend (t : Nat) (g : GalIx) : KeepsStore (execActivateSend t g) := fun _ _ h e => effect_leaves h e fun v => by simp

theorem keepsStore_execActivateReceive (t : Nat) (g : GalIx) (tread : BitVec 3) (fec : BitVec 1) (active : BitVec 8) (firstSeq : BitVec 10) : KeepsStore (execActivateReceive t g tread fec active firstSeq) := fun _ _ h e => effect_leaves h e fun v => by simp

theorem keepsStore_execRetrainReceive (t : Nat) (g : GalIx) (r : RetrainBlk) : KeepsStore (execRetrainReceive t g r) := fun _ _ h e => effect_leaves h e fun v => by simp

theorem keepsStore_execStepDownWindow (t : Nat) (g : GalIx) (bits : Nat) : KeepsStore (execStepDownWindow t g bits) := fun _ _ h e => effect_leaves h e fun v => by simp

theorem keepsStore_execReclimbTimer (t : Nat) (g : GalIx) : KeepsStore (execReclimbTimer t g) := by
  intro s u h e
  refine effect_leaves h e fun v => ?_
  dsimp only
  split <;> simp

theorem keepsStore_execLossReceive (t : Nat) (g : GalIx) (l : LossBlk) : KeepsStore (execLossReceive t g l) := fun _ _ h e => effect_leaves h e fun v => by simp

theorem keepsStore_execLossReportRepeat (t : Nat) (g : GalIx) : KeepsStore (execLossReportRepeat t g) := fun _ _ h e => effect_leaves h e fun v => by simp

theorem keepsStore_execLossReportRetry (t : Nat) (g : GalIx) : KeepsStore (execLossReportRetry t g) := fun _ _ h e => effect_leaves h e fun v => by simp

theorem keepsStore_execReplayReceive (t : Nat) (g : GalIx) (r : ReplayBlk) : KeepsStore (execReplayReceive t g r) := fun _ _ h e => effect_leaves h e fun v => by simp

theorem keepsStore_execRejoinAttemptStart (t : Nat) (g : GalIx) : KeepsStore (execRejoinAttemptStart t g) := by
  intro s u h e
  refine effect_leaves h e fun v => ?_
  dsimp only
  split <;> simp

theorem keepsStore_execRejoinAttemptLimit (t : Nat) (g : GalIx) : KeepsStore (execRejoinAttemptLimit t g) := fun _ _ h e => effect_leaves h e fun v => by simp

theorem keepsStore_execLaneCheckQualify (t : Nat) (g : GalIx) (pos : BitVec 3) (checkId : BitVec 16) : KeepsStore (execLaneCheckQualify t g pos checkId) := fun _ _ h e => effect_leaves h e fun v => by simp

theorem keepsStore_execLaneCheckReady (t : Nat) (g : GalIx) (pos : BitVec 3) (checkId : BitVec 16) : KeepsStore (execLaneCheckReady t g pos checkId) := fun _ _ h e => effect_leaves h e fun v => by simp

theorem keepsStore_execLaneCheckRetire (t : Nat) (g : GalIx) (pos : BitVec 3) (checkId : BitVec 16) : KeepsStore (execLaneCheckRetire t g pos checkId) := fun _ _ h e => effect_leaves h e fun v => by simp

theorem keepsStore_execSidebandWaitExpiry (t : Nat) (g : GalIx) : KeepsStore (execSidebandWaitExpiry t g) := by
  intro s u h e
  refine effect_leaves h e fun v => ?_
  split <;> simp

theorem keepsStore_execRejoinReceive (t : Nat) (g : GalIx) (r : RejoinBlk) : KeepsStore (execRejoinReceive t g r) := fun _ _ h e => effect_leaves h e fun v => by simp

theorem keepsStore_execCreditAReceive (t : Nat) (g : GalIx) (px pm : BitVec 12) (demand : BitVec 4) : KeepsStore (execCreditAReceive t g px pm demand) := fun _ _ h e => effect_leaves h e fun v => by simp

theorem keepsStore_execCreditBReceive (t : Nat) (g : GalIx) (np cp : BitVec 12) (demand : BitVec 4) : KeepsStore (execCreditBReceive t g np cp demand) := fun _ _ h e => effect_leaves h e fun v => by simp

theorem keepsStore_execInfoReceive (t : Nat) (g : GalIx) (quotaPx reachPx : BitVec 12) : KeepsStore (execInfoReceive t g quotaPx reachPx) := fun _ _ h e => effect_leaves h e fun v => by simp

theorem keepsStore_execProbeReceive (t : Nat) (g : GalIx) (id : BitVec 8) : KeepsStore (execProbeReceive t g id) := fun _ _ h e => effect_leaves h e fun v => by simp

theorem keepsStore_execEchoReceive (t : Nat) (g : GalIx) (id : BitVec 8) : KeepsStore (execEchoReceive t g id) := by
  intro s u h e
  refine effect_leaves h e fun v => ?_
  dsimp only
  split <;> simp

theorem keepsStore_execSentAReceive (t : Nat) (g : GalIx) (px pm : BitVec 20) : KeepsStore (execSentAReceive t g px pm) := fun _ _ h e => effect_leaves h e fun v => by simp

theorem keepsStore_execSentBReceive (t : Nat) (g : GalIx) (np cp : BitVec 20) : KeepsStore (execSentBReceive t g np cp) := fun _ _ h e => effect_leaves h e fun v => by simp

theorem keepsStore_execCreditPendingTimeout (t : Nat) (g : GalIx) : KeepsStore (execCreditPendingTimeout t g) := fun _ _ h e => effect_leaves h e fun v => by simp

theorem keepsStore_execCreditRefresh (t : Nat) (g : GalIx) : KeepsStore (execCreditRefresh t g) := fun _ _ h e => effect_leaves h e fun v => by simp

theorem keepsStore_execSentPeriod (t : Nat) (g : GalIx) : KeepsStore (execSentPeriod t g) := fun _ _ h e => effect_leaves h e fun v => by simp

theorem keepsStore_execProbePeriod (t : Nat) (g : GalIx) : KeepsStore (execProbePeriod t g) := fun _ _ h e => effect_leaves h e fun v => by simp

theorem keepsStore_execClassIdleTimeout (t : Nat) (g : GalIx) (c : Cls) : KeepsStore (execClassIdleTimeout t g c) := fun _ _ h e => effect_leaves h e fun v => by simp

theorem keepsStore_execParcelReceive (t : Nat) (g : GalIx) (p : Parcel) (begun : Bool) (upset : Option Upset) : KeepsStore (execParcelReceive t g p begun upset) := fun _ _ h e => effect_leaves h e fun v => by simp

theorem keepsStore_execCutMarkReceive (t : Nat) (g : GalIx) (c : CutMark) : KeepsStore (execCutMarkReceive t g c) := by
  intro s u h e
  refine effect_leaves h e fun v => ?_
  dsimp only
  split <;> simp

theorem keepsStore_execGapReceive (t : Nat) (g : GalIx) (b : Gap) : KeepsStore (execGapReceive t g b) := by
  intro s u h e
  refine effect_leaves h e fun v => ?_
  dsimp only
  split <;> simp

theorem keepsStore_execHallCellTransfer (t : Nat) (input : Fin 10) (cls : Cls) (met : ReadErrs) : KeepsStore (execHallCellTransfer t input cls met) := by
  intro s u h e
  refine effect_leaves h e fun v => ?_
  split <;> simp

theorem keepsStore_execEventRelease (t : Nat) (port : Fin 10) : KeepsStore (execEventRelease t port) := by
  intro s u h e
  refine effect_leaves h e fun v => ?_
  split <;> simp

theorem keepsStore_execBastingTrainReceive (t : Nat) (g : GalIx) (blocks : Train) (whole : Bool) : KeepsStore (execBastingTrainReceive t g blocks whole) := fun _ _ h e => effect_leaves h e fun v => by simp

theorem keepsStore_execBastingTrainSend (t : Nat) (g : GalIx) : KeepsStore (execBastingTrainSend t g) := fun _ _ h e => effect_leaves h e fun v => by simp

theorem keepsStore_execParcelTransmit (t : Nat) (g : GalIx) (idle : Nat) : KeepsStore (execParcelTransmit t g idle) := fun _ _ h e => effect_leaves h e fun v => by simp

theorem keepsStore_execMessageBudgetWindow (t : Nat) (g : GalIx) : KeepsStore (execMessageBudgetWindow t g) := fun _ _ h e => effect_leaves h e fun v => by simp

theorem keepsStore_execPipeProcessParcel (t : Nat) (single double : List Nat) : KeepsStore (execPipeProcessParcel t single double) := by
  intro s u h e
  refine effect_leaves h e fun v => ?_
  dsimp only
  (repeat' split) <;> simp

theorem keepsStore_execPipeCheckFail (t : Nat) (pipe : Fin 8) (inside : Bool) : KeepsStore (execPipeCheckFail t pipe inside) := by
  intro s u h e
  refine effect_leaves h e fun v => ?_
  have hsubst : ∀ (l : List Nat) (a : List (Nat × Option Nat) × State), StoreCanonical (l.foldl (fun a r => substitute pipe.val r a) a).2 ↔ StoreCanonical a.2 := by
    intro l
    induction l with
    | nil => exact fun _ => Iff.rfl
    | cons r l ih => exact fun a => (ih _).trans (storeCanonical_substitute pipe.val r a)
  simp only [storeCanonical_raise, hsubst]
  split
  · split
    · split <;> simp
    · simp
  · simp

theorem keepsStore_execStoreScrub (t : Nat) (pos : BitVec 26) (single double : List Nat) : KeepsStore (execStoreScrub t pos single double) := fun _ _ h e => effect_leaves h e fun v => by simp

theorem keepsStore_execExtentClearingDone (t : Nat) (region : Region) : KeepsStore (execExtentClearingDone t region) := by
  intro s u h e
  refine effect_leaves h e fun v => ?_
  dsimp only
  (repeat' split) <;> simp

theorem keepsStore_execCatchUpCopyDone (t : Nat) (copied : CatchUp) : KeepsStore (execCatchUpCopyDone t copied) := by
  intro s u h e
  refine effect_keeps h e fun v hv => ?_
  dsimp only
  split
  · have hr : ∀ l, StoreCanonical (readWords 5 l (noteErrors copied.single copied.double v)) := fun l => by simp [hv]
    simp only [storeCanonical_storeUse, storeCanonical_modDir, storeCanonical_modCorr]
    exact copyBytes_wf _ _ _ _ (hr _)
  · exact hv

theorem keepsStore_execStoreLost (t : Nat) : KeepsStore (execStoreLost t) := fun _ _ h e => effect_keeps h e fun _ hv => hv.loseStore

theorem keepsStore_execSafeFrameStart (t : Nat) (region : Region) (g : GalIx) : KeepsStore (execSafeFrameStart t region g) := fun _ _ h e => effect_leaves h e fun v => by simp

theorem keepsStore_execFreshnessTimeout (t : Nat) (region : Region) (g : GalIx) : KeepsStore (execFreshnessTimeout t region g) := by
  intro s u h e
  refine effect_leaves h e fun v => ?_
  dsimp only
  split <;> simp

theorem keepsStore_execLuminanceClear (t : Nat) (region : Region) (g : GalIx) : KeepsStore (execLuminanceClear t region g) := by
  intro s u h e
  refine effect_leaves h e fun v => ?_
  dsimp only
  split <;> simp

theorem keepsStore_execDriverFaultExpiry (t : Nat) (region : Region) (g : GalIx) : KeepsStore (execDriverFaultExpiry t region g) := fun _ _ h e => effect_leaves h e fun v => by simp

theorem keepsStore_execSensorSample (t : Nat) (n : Fin 9) (v : Int) : KeepsStore (execSensorSample t n v) := fun _ _ h e => effect_leaves h e fun v => by simp

theorem keepsStore_execThermalClear (t : Nat) : KeepsStore (execThermalClear t) := by
  intro s u h e
  refine effect_leaves h e fun v => ?_
  split <;> simp

theorem keepsStore_execHallLost (t : Nat) : KeepsStore (execHallLost t) := fun _ _ h e => effect_leaves h e fun v => by simp

theorem keepsStore_execSupplySample (t : Nat) (n : Fin 12) (mv : Nat) : KeepsStore (execSupplySample t n mv) := fun _ _ h e => effect_leaves h e fun v => by simp

theorem keepsStore_execSafeStateEnd (t : Nat) (region : Region) : KeepsStore (execSafeStateEnd t region) := by
  intro s u h e
  refine effect_leaves h e fun v => ?_
  dsimp only
  split <;> simp

theorem keepsStore_execDeviceSafeEnd (t : Nat) : KeepsStore (execDeviceSafeEnd t) := fun _ _ h e => effect_leaves h e fun v => by simp

theorem keepsStore_execLockoutRecordWrite (t : Nat) : KeepsStore (execLockoutRecordWrite t) := by
  intro s u h e
  refine effect_leaves h e fun v => ?_
  split <;> simp

theorem keepsStore_execReleaseCheck (t : Nat) : KeepsStore (execReleaseCheck t) := fun _ _ h e => effect_leaves h e fun v => by simp

theorem keepsStore_execReleaseArmExpiry (t : Nat) : KeepsStore (execReleaseArmExpiry t) := by
  intro s u h e
  refine effect_leaves h e fun v => ?_
  split <;> simp

theorem keepsStore_execLockoutClrNFall (t : Nat) : KeepsStore (execLockoutClrNFall t) := by
  intro s u h e
  refine effect_leaves h e fun v => ?_
  dsimp only
  (repeat' split) <;> simp

theorem keepsStore_execLockoutClrNRise (t : Nat) : KeepsStore (execLockoutClrNRise t) := by
  intro s u h e
  refine effect_leaves h e fun v => ?_
  dsimp only
  (repeat' split) <;> simp

theorem keepsStore_execSessionTimeout (t : Nat) : KeepsStore (execSessionTimeout t) := by
  intro s u h e
  refine effect_leaves h e fun v => ?_
  split <;> simp

theorem keepsStore_execClockSwitchComplete (t : Nat) (island : Fin 22) : KeepsStore (execClockSwitchComplete t island) := by
  intro s u h e
  refine effect_leaves h e fun v => ?_
  split <;> simp

theorem keepsStore_execForcedSwitch (t : Nat) (island : Fin 22) : KeepsStore (execForcedSwitch t island) := by
  intro s u h e
  refine effect_leaves h e fun v => ?_
  split <;> simp

theorem keepsStore_execRefclkLost (t : Nat) (ref : Fin 2) : KeepsStore (execRefclkLost t ref) := fun _ _ h e => effect_leaves h e fun v => by simp

theorem keepsStore_execRefclkRestored (t : Nat) (ref : Fin 3) : KeepsStore (execRefclkRestored t ref) := fun _ _ h e => effect_leaves h e fun v => by simp

theorem keepsStore_execReferenceSwitch (t : Nat) (ref : Fin 3) : KeepsStore (execReferenceSwitch t ref) := fun _ _ h e => effect_leaves h e fun v => by simp

theorem keepsStore_execXinLost (t : Nat) : KeepsStore (execXinLost t) := by
  intro s u h e
  refine effect_leaves h e fun v => ?_
  dsimp only
  (repeat' split) <;> simp

theorem keepsStore_execPllLock (t : Nat) (pll : Fin 4) : KeepsStore (execPllLock t pll) := fun _ _ h e => effect_leaves h e fun v => by simp

theorem keepsStore_execPllLockLoss (t : Nat) (pll : Fin 4) : KeepsStore (execPllLockLoss t pll) := fun _ _ h e => effect_leaves h e fun v => by simp

theorem keepsStore_execGateQuiesceAck (t : Nat) (unit : Fin 24) : KeepsStore (execGateQuiesceAck t unit) := fun _ _ h e => effect_leaves h e fun v => by simp

theorem keepsStore_execForcedGate (t : Nat) (unit : Fin 24) : KeepsStore (execForcedGate t unit) := by
  intro s u h e
  refine effect_leaves h e fun v => ?_
  split <;> simp

theorem keepsStore_execOscWaitEnd (t : Nat) : KeepsStore (execOscWaitEnd t) := fun _ _ h e => effect_leaves h e fun v => by simp

theorem keepsStore_execRefoutLock (t : Nat) (out : Fin 2) : KeepsStore (execRefoutLock t out) := fun _ _ h e => effect_leaves h e fun v => by simp

theorem keepsStore_execMeterGate (t : Nat) (m : Fin 25) (v : BitVec 32) : KeepsStore (execMeterGate t m v) := fun _ _ h e => effect_leaves h e fun v => by simp

theorem keepsStore_execZcalCalibration (t : Nat) (inRange : Bool) : KeepsStore (execZcalCalibration t inRange) := fun _ _ h e => effect_leaves h e fun v => by simp

theorem keepsStore_execPowerOnReset (t : Nat) : KeepsStore (execPowerOnReset t) := by
  intro s u h e
  refine effect_leaves h e fun v => ?_
  dsimp only
  split <;> simp

theorem keepsStore_execRailBelowThreshold (t : Nat) (rail : Fin 5) : KeepsStore (execRailBelowThreshold t rail) := fun _ _ h e => effect_keeps h e fun _ hv => StoreCanonical.resetDevice (by simp [hv]) _ _

theorem keepsStore_execVdramLoss (t : Nat) : KeepsStore (execVdramLoss t) := by
  intro s u h e
  refine effect_keeps h e fun v hv => ?_
  dsimp only
  split
  · exact StoreCanonical.loseStore (by simp [hv])
  · exact rfl

theorem keepsStore_execResetNLow (t hold : Nat) : KeepsStore (execResetNLow t hold) := by
  intro s u h e
  refine effect_keeps h e fun v hv => ?_
  dsimp only
  split
  · exact hv
  · exact hv
  · exact StoreCanonical.resetDevice (by simp [hv]) _ _

theorem keepsStore_execBootSequencerRun (t : Nat) : KeepsStore (execBootSequencerRun t) := by
  intro s u h e
  refine effect_keeps h e fun v hv => ?_
  dsimp only
  split
  · exact StoreCanonical.eraseReturned _
  · simp [hv]

theorem keepsStore_execBootRomSlotCheck (t : Nat) : KeepsStore (execBootRomSlotCheck t) := by
  intro s u h e
  refine effect_leaves h e fun v => ?_
  dsimp only
  (repeat' split) <;> simp

theorem keepsStore_execFirmwareBootComplete (t : Nat) : KeepsStore (execFirmwareBootComplete t) := fun _ _ h e => effect_leaves h e fun v => by simp

theorem keepsStore_execFirmwareReadopt (t : Nat) : KeepsStore (execFirmwareReadopt t) := fun _ _ h e => effect_leaves h e fun v => by simp

theorem keepsStore_execTrialConfirm (t : Nat) : KeepsStore (execTrialConfirm t) := by
  intro s u h e
  refine effect_leaves h e fun v => ?_
  split <;> simp

theorem keepsStore_execReturnedErasure (t : Nat) : KeepsStore (execReturnedErasure t) := fun _ _ h e => effect_keeps h e fun v _ => StoreCanonical.eraseReturned v

theorem keepsStore_execP2DrainEnd (t : Nat) : KeepsStore (execP2DrainEnd t) := by
  intro s u h e
  refine effect_keeps h e fun v hv => ?_
  have hslept : StoreCanonical (resetDevice .p3 none (sleep (endForP3 (answerEntry 0 v)))) := StoreCanonical.resetDevice (by simp [hv]) _ _
  split
  · exact hv
  · dsimp only
    split_ifs <;> simp [hv, hslept]

theorem keepsStore_execWakeNFall (t low : Nat) : KeepsStore (execWakeNFall t low) := fun _ _ h e => effect_leaves h e fun v => by simp

theorem keepsStore_execCutterHoldExpiry (t : Nat) : KeepsStore (execCutterHoldExpiry t) := by
  intro s u h e
  refine effect_leaves h e fun v => ?_
  dsimp only
  (repeat' split) <;> simp

theorem keepsStore_execBrownoutWarning (t : Nat) : KeepsStore (execBrownoutWarning t) := fun _ _ h e => effect_leaves h e fun v => by simp

theorem keepsStore_execBrownoutSustained (t : Nat) : KeepsStore (execBrownoutSustained t) := by
  intro s u h e
  refine effect_leaves h e fun v => ?_
  split <;> simp

theorem keepsStore_execBrownoutEnd (t : Nat) : KeepsStore (execBrownoutEnd t) := by
  intro s u h e
  refine effect_leaves h e fun v => ?_
  split <;> simp

theorem keepsStore_execBridgeRead (t : Nat) (port : Fin 10) (p : Parcel) (ahead : Nat) (single double : List Nat) : KeepsStore (execBridgeRead t port p ahead single double) := fun _ _ h e => effect_keeps h e fun _ hv => StoreCanonical.serveRead (by simp [hv]) _ _ _ _

theorem keepsStore_execBridgeWritePosted (t : Nat) (port : Fin 10) (p : Parcel) : KeepsStore (execBridgeWritePosted t port p) := fun _ _ h e => effect_leaves h e fun v => by simp

theorem keepsStore_execBridgeWriteNonposted (t : Nat) (port : Fin 10) (p : Parcel) : KeepsStore (execBridgeWriteNonposted t port p) := fun _ _ h e => effect_keeps h e fun _ hv => StoreCanonical.serveWrite (by simp [hv]) _ _ _

theorem keepsStore_execCompletionReceive (t : Nat) (port : Fin 10) (p : Parcel) : KeepsStore (execCompletionReceive t port p) := by
  intro s u h e
  refine effect_leaves h e fun v => ?_
  dsimp only
  split <;> simp

theorem keepsStore_execEventRelay (t : Nat) (port : Fin 10) (p : Parcel) : KeepsStore (execEventRelay t port p) := fun _ _ h e => effect_leaves h e fun v => by simp

theorem keepsStore_execPostedWriteComplete (t : Nat) : KeepsStore (execPostedWriteComplete t) := fun _ _ h e => effect_keeps h e fun _ hv => hv.storeStep

theorem keepsStore_execCommitWritesDrained (t : Nat) (region : Region) (safe : Bool) : KeepsStore (execCommitWritesDrained t region safe) := by
  intro s u h e
  refine effect_leaves h e fun v => ?_
  dsimp only
  split <;> simp

theorem keepsStore_execPrefetchExpiry (t : Nat) : KeepsStore (execPrefetchExpiry t) := fun _ _ h e => effect_leaves h e fun v => by simp

theorem keepsStore_execPortlTransaction (t acked : Nat) (data : List Byte) : KeepsStore (execPortlTransaction t acked data) := fun _ _ h e => effect_leaves h e fun v => by simp

theorem keepsStore_execLockedRead (t acked : Nat) (data : List Byte) : KeepsStore (execLockedRead t acked data) := fun _ _ h e => effect_leaves h e fun v => by simp

theorem keepsStore_execUnlockingWrite (t acked : Nat) : KeepsStore (execUnlockingWrite t acked) := fun _ _ h e => effect_leaves h e fun v => by simp

theorem keepsStore_execPortlStretchTimeout (t held hold : Nat) : KeepsStore (execPortlStretchTimeout t held hold) := fun _ _ h e => effect_leaves h e fun v => by simp

theorem keepsStore_execPortlArbitrationLost (t : Nat) : KeepsStore (execPortlArbitrationLost t) := fun _ _ h e => effect_leaves h e fun v => by simp

theorem keepsStore_execPortlSdaStuckDetect (t hold : Nat) : KeepsStore (execPortlSdaStuckDetect t hold) := fun _ _ h e => effect_leaves h e fun v => by simp

theorem keepsStore_execLockedSequenceTimeout (t : Nat) : KeepsStore (execLockedSequenceTimeout t) := by
  intro s u h e
  refine effect_leaves h e fun v => ?_
  split <;> simp

theorem keepsStore_execLockLostStateExpiry (t : Nat) : KeepsStore (execLockLostStateExpiry t) := by
  intro s u h e
  refine effect_leaves h e fun v => ?_
  split <;> simp

theorem keepsStore_execMezzanineWatchdog (t : Nat) : KeepsStore (execMezzanineWatchdog t) := by
  intro s u h e
  refine effect_leaves h e fun v => ?_
  split <;> simp

theorem keepsStore_execPasswordCheckDone (t : Nat) : KeepsStore (execPasswordCheckDone t) := fun _ _ h e => effect_leaves h e fun v => by simp

theorem keepsStore_execBridgeSyncDone (t : Nat) : KeepsStore (execBridgeSyncDone t) := fun _ _ h e => effect_leaves h e fun v => by simp

theorem keepsStore_execEyeScanComplete (t : Nat) (g : GalIx) (lane : LaneIx) (eye : Fin 3) (points : List (BitVec 128)) : KeepsStore (execEyeScanComplete t g lane eye points) := fun _ _ h e => effect_leaves h e fun v => by simp

theorem keepsStore_execLogStreamHolderExpiry (t : Nat) : KeepsStore (execLogStreamHolderExpiry t) := by
  intro s u h e
  refine effect_leaves h e fun v => ?_
  split <;> simp

theorem keepsStore_execLogWriterFlush (t : Nat) : KeepsStore (execLogWriterFlush t) := by
  intro s u h e
  refine effect_leaves h e fun v => ?_
  dsimp only
  split <;> simp

theorem keepsStore_execUpdateVerifyDone (t : Nat) : KeepsStore (execUpdateVerifyDone t) := fun _ _ h e => effect_leaves h e fun v => by simp

theorem keepsStore_execUpdateCommitDone (t : Nat) (same : Bool) : KeepsStore (execUpdateCommitDone t same) := fun _ _ h e => effect_leaves h e fun v => by simp

theorem keepsStore_execFreezeNFall (t highFor : Nat) : KeepsStore (execFreezeNFall t highFor) := fun _ _ h e => effect_leaves h e fun v => by simp

theorem keepsStore_execReceiveCodeword (t : Nat) (g : GalIx) (lane : LaneIx) (bits : BitVec 5440) (reads : List Nat) : KeepsStore (execReceiveCodeword t g lane bits reads) := fun _ _ h e => effect_leaves h e fun v => by simp

theorem keepsStore_execReceiveBlock (t : Nat) (g : GalIx) (lane : LaneIx) (b : Block) (reads : Nat) : KeepsStore (execReceiveBlock t g lane b reads) := fun _ _ h e => effect_leaves h e fun v => by simp

theorem keepsStore_execDeskewMarkerReceive (t : Nat) (g : GalIx) (lane : LaneIx) (seq : BitVec 10) (lanePos : BitVec 6) (sideband : BitVec 16) : KeepsStore (execDeskewMarkerReceive t g lane seq lanePos sideband) := fun _ _ h e => effect_leaves h e fun v => by simp

theorem keepsStore_execDeskewTimeout (t : Nat) (g : GalIx) (lane : LaneIx) : KeepsStore (execDeskewTimeout t g lane) := fun _ _ h e => effect_leaves h e fun v => by simp

theorem keepsStore_execClockLaneLock (t : Nat) (g : GalIx) (ppm : Int) : KeepsStore (execClockLaneLock t g ppm) := fun _ _ h e => effect_leaves h e fun v => by simp

theorem keepsStore_execClockLaneLost (t : Nat) (g : GalIx) : KeepsStore (execClockLaneLost t g) := by
  intro s u h e
  refine effect_leaves h e fun v => ?_
  dsimp only
  (repeat' split) <;> simp

theorem keepsStore_execIdleNoticeReceive (t : Nat) (g : GalIx) (_lane : LaneIx) (last : BitVec 10) (lanePos : BitVec 6) : KeepsStore (execIdleNoticeReceive t g _lane last lanePos) := fun _ _ h e => effect_leaves h e fun v => by simp

theorem keepsStore_execClockStopNoticeReceive (t : Nat) (g : GalIx) (_lane : LaneIx) (seq : BitVec 10) (lanePos : BitVec 6) : KeepsStore (execClockStopNoticeReceive t g _lane seq lanePos) := fun _ _ h e => effect_leaves h e fun v => by simp

theorem keepsStore_execAutoWake (t : Nat) (g : GalIx) : KeepsStore (execAutoWake t g) := fun _ _ h e => effect_leaves h e fun v => by simp

theorem keepsStore_execIdleReturn (t : Nat) (g : GalIx) : KeepsStore (execIdleReturn t g) := by
  intro s u h e
  refine effect_leaves h e fun v => ?_
  dsimp only
  (repeat' split) <;> simp

theorem keepsStore_execTackBlockReceive (t : Nat) (g : GalIx) (lane : LaneIx) (b : Block) : KeepsStore (execTackBlockReceive t g lane b) := fun _ _ h e => effect_leaves h e fun v => by simp

theorem keepsStore_execTackBurstEnd (t : Nat) (g : GalIx) (lane : LaneIx) (drift : Int) : KeepsStore (execTackBurstEnd t g lane drift) := fun _ _ h e => effect_leaves h e fun v => by simp

theorem keepsStore_execClockPreambleEnd (t : Nat) (g : GalIx) (rx relocked : Bool) : KeepsStore (execClockPreambleEnd t g rx relocked) := fun _ _ h e => effect_leaves h e fun v => by simp

theorem keepsStore_execAdaptationWindowEnd (t : Nat) (g : GalIx) (lane : LaneIx) (sums : TapSums) (vga : BitVec 8) (drift : Int) : KeepsStore (execAdaptationWindowEnd t g lane sums vga drift) := by
  intro s u h e
  refine effect_leaves h e fun v => ?_
  dsimp only
  split <;> simp

theorem keepsStore_execDispatchCommand (t : Nat) : KeepsStore (execDispatchCommand t) := by
  intro s u h e
  refine effect_leaves h e fun v => ?_
  split <;> simp

theorem keepsStore_execWaitingCommandTimeout (t : Nat) : KeepsStore (execWaitingCommandTimeout t) := fun _ _ h e => effect_leaves h e fun v => by simp

theorem keepsStore_execApertureBindingLapse (t : Nat) : KeepsStore (execApertureBindingLapse t) := fun _ _ h e => effect_leaves h e fun v => by simp

theorem keepsStore_execResponseExpiry (t : Nat) : KeepsStore (execResponseExpiry t) := fun _ _ h e => effect_leaves h e fun v => by simp

theorem keepsStore_execLeaseExpiry (t : Nat) : KeepsStore (execLeaseExpiry t) := fun _ _ h e => effect_leaves h e fun v => by simp

theorem keepsStore_execMailboxApertureWrite (t : Nat) (g : GalIx) (src : BitVec 16) (off : Nat) (data : List Byte) : KeepsStore (execMailboxApertureWrite t g src off data) := fun _ _ h e => effect_leaves h e fun v => by simp

theorem keepsStore_execMailboxDoorbell (t : Nat) (g : GalIx) (src : BitVec 16) : KeepsStore (execMailboxDoorbell t g src) := fun _ _ h e => effect_leaves h e fun v => by simp

theorem keepsStore_execMailboxRspAck (t : Nat) (g : GalIx) (src : BitVec 16) : KeepsStore (execMailboxRspAck t g src) := fun _ _ h e => effect_leaves h e fun v => by simp

theorem keepsStore_execMailboxDbRefusedClear (t : Nat) (g : GalIx) : KeepsStore (execMailboxDbRefusedClear t g) := fun _ _ h e => effect_leaves h e fun v => by simp

theorem keepsStore_execRegisterWrite (t : Nat) (g : GalIx) (src : BitVec 16) (off : Nat) (b : Byte) : KeepsStore (execRegisterWrite t g src off b) := fun _ _ h e => effect_leaves h e fun v => by simp

theorem keepsStore_execAnnounceReceive (t : Nat) (g : GalIx) (p : Parcel) : KeepsStore (execAnnounceReceive t g p) := by
  intro s u h e
  refine effect_leaves h e fun v => ?_
  dsimp only
  split
  · simp
  · refine (storeCanonical_forAll _ _ _ fun b w => ?_).trans (storeCanonical_takeQueued _ _ _)
    split <;> simp

theorem keepsStore_execClaimReceive (t : Nat) (g : GalIx) (p : Parcel) : KeepsStore (execClaimReceive t g p) := by
  intro s u h e
  refine effect_leaves h e fun v => ?_
  dsimp only
  split
  · simp
  · refine (storeCanonical_forAll _ _ _ fun b w => ?_).trans (storeCanonical_takeQueued _ _ _)
    split <;> simp

theorem keepsStore_execDriverFaultReceive (t : Nat) (g : GalIx) (p : Parcel) : KeepsStore (execDriverFaultReceive t g p) := fun _ _ h e => effect_leaves h e fun v => by simp

theorem keepsStore_execPlacementRunStart (t : Nat) (trig : RunTrigger) : KeepsStore (execPlacementRunStart t trig) := fun _ _ h e => effect_leaves h e fun v => by simp

theorem keepsStore_execPlacementRunDone (t : Nat) : KeepsStore (execPlacementRunDone t) := by
  intro s u h e
  refine effect_keeps h e fun v hv => ?_
  have ha : StoreCanonical (auditAll v) := by simp [hv]
  split
  · exact hv
  · dsimp only
    split
    · simp [hv]
    · exact ha.endRun _

theorem keepsStore_execPendingEntryTimeout (t : Nat) (region : Region) : KeepsStore (execPendingEntryTimeout t region) := by
  intro s u h e
  refine effect_leaves h e fun v => ?_
  split <;> simp

theorem keepsStore_execCutMarkOverdue (t : Nat) (region : Region) : KeepsStore (execCutMarkOverdue t region) := fun _ _ h e => effect_leaves h e fun v => by simp

theorem keepsStore_execRecordExpiry (t : Nat) (region : Region) (g : GalIx) (claimant : Option (BitVec 64)) : KeepsStore (execRecordExpiry t region g claimant) := by
  intro s u h e
  refine effect_leaves h e fun v => ?_
  dsimp only
  (repeat' split) <;> simp

theorem keepsStore_execAnnounceOriginate (t : Nat) (g : GalIx) : KeepsStore (execAnnounceOriginate t g) := fun _ _ h e => effect_leaves h e fun v => by simp

theorem keepsStore_execClaimOriginate (t : Nat) : KeepsStore (execClaimOriginate t) := fun _ _ h e => effect_leaves h e fun v => by simp

theorem keepsStore_execMbxPut (t : Nat) (n : Byte) (body : List Byte) (pec : Option Byte) : KeepsStore (execMbxPut t n body pec) := fun _ _ h e => effect_leaves h e fun v => by simp

theorem keepsStore_execMbxGet (t : Nat) (n frag : Byte) : KeepsStore (execMbxGet t n frag) := fun _ _ h e => effect_leaves h e fun v => by simp

theorem keepsStore_execMbxStatus (t : Nat) : KeepsStore (execMbxStatus t) := fun _ _ h e => effect_leaves h e fun v => by simp

theorem keepsStore_execMbxRing (t : Nat) (pec : Option Byte) : KeepsStore (execMbxRing t pec) := fun _ _ h e => effect_leaves h e fun v => by simp

theorem keepsStore_execMbxAbortDiscard (t : Nat) (tag : Byte) (pec : Option Byte) : KeepsStore (execMbxAbortDiscard t tag pec) := fun _ _ h e => effect_leaves h e fun v => by simp

theorem keepsStore_execMbxAbortRelease (t : Nat) (tag : Byte) (pec : Option Byte) : KeepsStore (execMbxAbortRelease t tag pec) := fun _ _ h e => effect_leaves h e fun v => by simp

theorem keepsStore_execMbxAbortBoth (t : Nat) (tag : Byte) (pec : Option Byte) : KeepsStore (execMbxAbortBoth t tag pec) := fun _ _ h e => effect_leaves h e fun v => by simp

theorem keepsStore_execStatusPointerWrite (t : Nat) (bytes : List Byte) : KeepsStore (execStatusPointerWrite t bytes) := fun _ _ h e => effect_leaves h e fun v => by simp

theorem keepsStore_execSnapSelectWrite (t : Nat) (reg : Fin 3) (bytes : List Byte) : KeepsStore (execSnapSelectWrite t reg bytes) := fun _ _ h e => effect_leaves h e fun v => by simp

theorem keepsStore_execStatusClassRead (t n : Nat) : KeepsStore (execStatusClassRead t n) := fun _ _ h e => effect_leaves h e fun v => by simp

theorem keepsStore_execPortmSclTimeout (t : Nat) (inPut : Bool) : KeepsStore (execPortmSclTimeout t inPut) := fun _ _ h e => effect_leaves h e fun v => by simp

theorem keepsStore_execPortmBusError (t : Nat) (inPut : Bool) : KeepsStore (execPortmBusError t inPut) := fun _ _ h e => effect_leaves h e fun v => by simp

theorem keepsStore_execPortmP2WakeMatch (t : Nat) : KeepsStore (execPortmP2WakeMatch t) := fun _ _ h e => effect_leaves h e fun v => by simp

theorem keepsStore_execPortmP3WakeMatch (t : Nat) : KeepsStore (execPortmP3WakeMatch t) := fun _ _ h e => effect_leaves h e fun v => by simp

theorem keepsStore_execAttentionRelatch (t : Nat) : KeepsStore (execAttentionRelatch t) := fun _ _ h e => effect_leaves h e fun v => by simp

theorem keepsStore_execAttentionSdaLowSend (t idle : Nat) (won : Bool) : KeepsStore (execAttentionSdaLowSend t idle won) := fun _ _ h e => effect_leaves h e fun v => by simp

theorem keepsStore_execAttentionHostNotifySend (t idle : Nat) (won acked : Bool) : KeepsStore (execAttentionHostNotifySend t idle won acked) := fun _ _ h e => effect_leaves h e fun v => by simp

theorem keepsStore_execHostNotifyRetry (t : Nat) (won acked : Bool) : KeepsStore (execHostNotifyRetry t won acked) := by
  intro s u h e
  refine effect_leaves h e fun v => ?_
  split <;> simp

theorem keepsStore_execTapReset (t : Nat) : KeepsStore (execTapReset t) := by
  intro s u h e
  refine effect_leaves h e fun v => ?_
  dsimp only
  (repeat' split) <;> simp

theorem keepsStore_execTapIdcode (t : Nat) : KeepsStore (execTapIdcode t) := fun _ _ h e => tap_leaves h e fun v => by simp

theorem keepsStore_execTapBypass (t : Nat) (code : Byte) : KeepsStore (execTapBypass t code) := fun _ _ h e => effect_leaves h e fun v => by simp

theorem keepsStore_execTapSamplePreload (t n pins new : Nat) : KeepsStore (execTapSamplePreload t n pins new) := fun _ _ h e => tap_leaves h e fun v => by simp

theorem keepsStore_execTapExtest (t n pins new : Nat) : KeepsStore (execTapExtest t n pins new) := fun _ _ h e => tap_keeps h e fun _ hv => hv.extest n pins new

theorem keepsStore_execTapExtestPulse (t n pins new : Nat) : KeepsStore (execTapExtestPulse t n pins new) := fun _ _ h e => tap_keeps h e fun _ hv => hv.extest n pins new

theorem keepsStore_execTapExtestTrain (t n pins new : Nat) : KeepsStore (execTapExtestTrain t n pins new) := fun _ _ h e => tap_keeps h e fun _ hv => hv.extest n pins new

theorem keepsStore_execTapDbgStatus (t : Nat) : KeepsStore (execTapDbgStatus t) := fun _ _ h e => tap_leaves h e fun v => by simp

theorem keepsStore_execTapDbgNonce (t : Nat) : KeepsStore (execTapDbgNonce t) := fun _ _ h e => tap_leaves h e fun v => by simp

theorem keepsStore_execTapDbgToken (t : Nat) (level key : Byte) (sig : List Byte) : KeepsStore (execTapDbgToken t level key sig) := by
  intro s u h e
  refine tap_leaves h e fun v => ?_
  simp
  split <;> simp

theorem keepsStore_execTapMbxNop (t : Nat) : KeepsStore (execTapMbxNop t) := fun _ _ h e => mbxScan_leaves h e fun v => by simp

theorem keepsStore_execTapMbxResetPtr (t : Nat) : KeepsStore (execTapMbxResetPtr t) := fun _ _ h e => mbxScan_leaves h e fun v => by simp

theorem keepsStore_execTapMbxPut (t : Nat) (data : BitVec 32) : KeepsStore (execTapMbxPut t data) := fun _ _ h e => mbxScan_leaves h e fun v => by simp

theorem keepsStore_execTapMbxRing (t : Nat) : KeepsStore (execTapMbxRing t) := fun _ _ h e => mbxScan_leaves h e fun v => by simp

theorem keepsStore_execTapMbxGet (t : Nat) : KeepsStore (execTapMbxGet t) := fun _ _ h e => mbxScan_leaves h e fun v => by simp

theorem keepsStore_execTapMbxAck (t : Nat) : KeepsStore (execTapMbxAck t) := fun _ _ h e => mbxScan_leaves h e fun v => by simp

theorem keepsStore_execTapFreeze (t : Nat) : KeepsStore (execTapFreeze t) := fun _ _ h e => tap_leaves h e fun v => by simp

theorem keepsStore_execTapSnapPublic (t : Nat) : KeepsStore (execTapSnapPublic t) := fun _ _ h e => tap_leaves h e fun v => by simp

theorem keepsStore_execTapSnapFull (t : Nat) : KeepsStore (execTapSnapFull t) := fun _ _ h e => tap_leaves h e fun v => by simp

theorem keepsStore_execTapSramRead (t : Nat) (addr : BitVec 64) : KeepsStore (execTapSramRead t addr) := fun _ _ h e => tap_leaves h e fun v => by simp

theorem keepsStore_execTapMezHalt (t : Nat) : KeepsStore (execTapMezHalt t) := fun _ _ h e => tap_leaves h e fun v => by simp

theorem keepsStore_execTapMezStep (t : Nat) : KeepsStore (execTapMezStep t) := fun _ _ h e => tap_leaves h e fun v => by simp

theorem keepsStore_execTapMezResume (t : Nat) : KeepsStore (execTapMezResume t) := fun _ _ h e => tap_leaves h e fun v => by simp

/-- Every command keeps the store's canonical form, row by row of the table. -/
theorem keepsStore_exec (c : Instr) : KeepsStore (exec c) := by
  cases c with
  | systemInfo t q => exact fun _ _ h e => command_leaves h e storeCanonical_doInfo
  | systemReset t q => exact fun _ _ h e => command_leaves h e storeCanonical_doReset
  | systemStatus t q => exact fun _ _ h e => command_leaves h e (fun _ _ => Iff.rfl)
  | mbxCounters t q => exact fun _ _ h e => command_leaves h e (storeCanonical_devCounters _)
  | profileSave t q => exact fun _ _ h e => command_leaves h e storeCanonical_doProfileSave
  | profileSelect t q => exact fun _ _ h e => command_leaves h e storeCanonical_doProfileSelect
  | profileErase t q => exact fun _ _ h e => command_leaves h e storeCanonical_doProfileErase
  | profileList t q => exact fun _ _ h e => command_leaves h e storeCanonical_doProfileList
  | leaseAcquire t q => exact fun _ _ h e => command_leaves h e storeCanonical_doAcquire
  | leaseRelease t q => exact fun _ _ h e => command_leaves h e storeCanonical_doRelease
  | leaseRenew t q => exact fun _ _ h e => command_leaves h e storeCanonical_doRenew
  | leaseCommit t q => exact fun _ _ h e => command_leaves h e storeCanonical_doLeaseCommit
  | leaseDiscard t q => exact fun _ _ h e => command_leaves h e storeCanonical_doDiscard
  | leaseStatus t q => exact fun _ _ h e => command_leaves h e storeCanonical_doLeaseStatus
  | galleryStatus t q => exact fun _ _ h e => command_leaves h e storeCanonical_doGalStatus
  | galleryProvision t q => exact fun _ _ h e => command_leaves h e storeCanonical_doProvision
  | galleryReset t q => exact fun _ _ h e => command_leaves h e storeCanonical_doGalReset
  | galleryIdle t q => exact fun _ _ h e => command_leaves h e storeCanonical_doIdle
  | galleryCreditSet t q => exact fun _ _ h e => command_leaves h e storeCanonical_doCreditSet
  | galleryCreditGet t q => exact fun _ _ h e => command_leaves h e storeCanonical_doCreditGet
  | galleryCounters t q => exact fun _ _ h e => command_leaves h e storeCanonical_doGalCounters
  | laneEqSet t q => exact fun _ _ h e => command_leaves h e storeCanonical_doEqSet
  | laneEqGet t q => exact fun _ _ h e => command_leaves h e storeCanonical_doEqGet
  | laneTxSet t q => exact fun _ _ h e => command_leaves h e storeCanonical_doTxSet
  | laneCounters t q => exact fun _ _ h e => command_leaves h e storeCanonical_doLaneCounters
  | galleryTrainSet t q => exact fun _ _ h e => command_leaves h e storeCanonical_doTrainSet
  | galleryTrainStatus t q => exact fun _ _ h e => command_leaves h e storeCanonical_doTrainStatus
  | galleryRetrain t q => exact fun _ _ h e => command_leaves h e storeCanonical_doRetrain
  | cutterModeSet t q => exact fun _ _ h e => command_leaves h e storeCanonical_doModeSet
  | cutterRun t q => exact fun _ _ h e => command_leaves h e storeCanonical_doRun
  | cutterRegionSet t q => exact fun _ _ h e => command_leaves h e storeCanonical_doCutRegionSet
  | cutterEntryGet t q => exact fun _ _ h e => command_leaves h e storeCanonical_doEntryGet
  | cutterInputsGet t q => exact fun _ _ h e => command_leaves h e storeCanonical_doInputsGet
  | cutterStatus t q => exact fun _ _ h e => command_leaves h e storeCanonical_doCutStatus
  | cutterCounters t q => exact fun _ _ h e => command_leaves h e (storeCanonical_devCounters _)
  | correctionRegionSet t q => exact fun _ _ h e => command_leaves h e storeCanonical_doCorrRegionSet
  | correctionRegionGet t q => exact fun _ _ h e => command_leaves h e storeCanonical_doCorrRegionGet
  | correctionCommit t q => exact fun _ _ h e => command_leaves h e storeCanonical_doCommit
  | correctionSafeAlloc t q => exact fun _ _ h e => command_leaves h e storeCanonical_doSafeAlloc
  | correctionSafeCommit t q => exact fun _ _ h e => command_leaves h e storeCanonical_doSafeCommit
  | correctionSafeFree t q => exact fun _ _ h e => command_leaves h e storeCanonical_doSafeFree
  | correctionStatus t q => exact fun _ _ h e => command_leaves h e storeCanonical_doCorrStatus
  | correctionCounters t q => exact fun _ _ h e => command_leaves h e (storeCanonical_devCounters _)
  | safetyGroupSet t q => exact fun _ _ h e => command_leaves h e storeCanonical_doGroupSet
  | safetyMonitorSet t q => exact fun _ _ h e => command_leaves h e storeCanonical_doMonitorSet
  | safetyUnlock t q => exact fun _ _ h e => command_leaves h e storeCanonical_doUnlock
  | safetyLock t q => exact fun _ _ h e => command_leaves h e storeCanonical_doLock
  | safetyPasswordSet t q => exact fun _ _ h e => command_leaves h e storeCanonical_doPasswordSet
  | safetyOrder t q => exact fun _ _ h e => command_leaves h e storeCanonical_doOrder
  | safetyRelease t q => exact fun _ _ h e => command_leaves h e storeCanonical_doSafetyRelease
  | safetyStatus t q => exact fun _ _ h e => command_leaves h e storeCanonical_doSafetyStatus
  | safetyLogRead t q => exact fun _ _ h e => command_leaves h e storeCanonical_doSafetyLogRead
  | safetyLogAck t q => exact fun _ _ h e => command_leaves h e storeCanonical_doLogAck
  | safetyCounters t q => exact fun _ _ h e => command_leaves h e (storeCanonical_devCounters _)
  | bridgeNodeSet t q => exact fun _ _ h e => command_leaves h e storeCanonical_doNodeSet
  | routeSet t q => exact fun _ _ h e => command_leaves h e storeCanonical_doRouteSet
  | routeGet t q => exact fun _ _ h e => command_leaves h e storeCanonical_doRouteGet
  | bridgeWindowSet t q => exact fun _ _ h e => command_leaves h e storeCanonical_doWindowSet
  | bridgeWindowGet t q => exact fun _ _ h e => command_leaves h e storeCanonical_doWindowGet
  | eventSinkSet t q => exact fun _ _ h e => command_leaves h e storeCanonical_doSinkSet
  | eventRingSet t q => exact fun _ _ h e => command_leaves h e storeCanonical_doRingSet
  | eventRead t q => exact fun _ _ h e => command_leaves h e storeCanonical_doEventRead
  | bridgeRemote t q => exact fun _ _ h e => command_leaves h e storeCanonical_doRemote
  | bridgeSync t q => exact fun _ _ h e => command_leaves h e storeCanonical_doSync
  | bridgeLateErrors t q => exact fun _ _ h e => command_leaves h e storeCanonical_doLateErrors
  | bridgeCounters t q => exact fun _ _ h e => command_leaves h e (storeCanonical_devCounters _)
  | twConfig t q => exact fun _ _ h e => command_leaves h e storeCanonical_doTwConfig
  | twlConfig t q => exact fun _ _ h e => command_leaves h e storeCanonical_doTwlConfig
  | twlRecover t q => exact fun _ _ h e => command_leaves h e storeCanonical_doTwlRecover
  | twCounters t q => exact fun _ _ h e => command_leaves h e (storeCanonical_devCounters _)
  | powerStateSet t q => exact fun _ _ h e => command_leaves h e storeCanonical_doStateSet
  | powerStatus t q => exact fun _ _ h e => command_leaves h e (fun _ _ => Iff.rfl)
  | clockRefSelect t q => exact fun _ _ h e => command_leaves h e storeCanonical_doRefSelect
  | clockRefoutSet t q => exact fun _ _ h e => command_leaves h e storeCanonical_doRefoutSet
  | clockStatus t q => exact fun _ _ h e => command_leaves h e (fun _ _ => Iff.rfl)
  | powerCounters t q => exact fun _ _ h e => command_leaves h e (storeCanonical_devCounters _)
  | diagLoopSet t q => exact fun _ _ h e => command_leaves h e storeCanonical_doLoopSet
  | diagPrbsSet t q => exact fun _ _ h e => command_leaves h e storeCanonical_doPrbsSet
  | diagPrbsGet t q => exact fun _ _ h e => command_leaves h e storeCanonical_doPrbsGet
  | diagEyeScan t q => exact fun _ _ h e => command_leaves h e storeCanonical_doEyeScan
  | diagCountersClear t q => exact fun _ _ h e => command_leaves h e (fun _ _ => Iff.rfl)
  | sensorRead t q => exact fun _ _ h e => command_leaves h e (fun _ _ => Iff.rfl)
  | logRead t q => exact fun _ _ h e => command_leaves h e storeCanonical_doLogRead
  | logStream t q => exact fun _ _ h e => command_leaves h e storeCanonical_doLogStream
  | updateBegin t q => exact fun _ _ h e => command_leaves h e storeCanonical_doUpdBegin
  | updateChunk t q => exact fun _ _ h e => command_leaves h e storeCanonical_doUpdChunk
  | updateVerify t q => exact fun _ _ h e => command_leaves h e storeCanonical_doUpdVerify
  | updateCommit t q => exact fun _ _ h e => command_leaves h e storeCanonical_doUpdCommit
  | updateActivate t q => exact fun _ _ h e => command_leaves h e storeCanonical_doUpdActivate
  | updateStatus t q => exact fun _ _ h e => command_leaves h e storeCanonical_doUpdStatus
  | debugNonce t q => exact fun _ _ h e => command_leaves h e storeCanonical_doNonce
  | debugOpen t q => exact fun _ _ h e => command_leaves h e storeCanonical_doDebugOpen
  | debugClose t q => exact fun _ _ h e => command_leaves h e (fun _ s => storeCanonical_setLevel (lifeLevel s.otp) false s)
  | securityLifecycleSet t q => exact fun _ _ h e => command_leaves h e storeCanonical_doLifecycle
  | securityViolations t q => exact fun _ _ h e => command_leaves h e (fun q s => storeCanonical_countersReply (devRecords violationRows s) false q s)
  | freezeArm t q => exact fun _ _ h e => command_leaves h e storeCanonical_doFreezeArm
  | freezeNow t q => exact fun _ _ h e => command_leaves h e storeCanonical_doFreezeNow
  | snapshotRead t q => exact fun _ _ h e => command_leaves h e storeCanonical_doSnapRead
  | passwordCheckDone t => exact keepsStore_execPasswordCheckDone t
  | waitingCommandTimeout t => exact keepsStore_execWaitingCommandTimeout t
  | commitWritesDrained t region safe => exact keepsStore_execCommitWritesDrained t region safe
  | bridgeSyncDone t => exact keepsStore_execBridgeSyncDone t
  | mailboxApertureWrite t g src off data => exact keepsStore_execMailboxApertureWrite t g src off data
  | mailboxDoorbell t g src => exact keepsStore_execMailboxDoorbell t g src
  | mailboxRspAck t g src => exact keepsStore_execMailboxRspAck t g src
  | mailboxDbRefusedClear t g => exact keepsStore_execMailboxDbRefusedClear t g
  | registerWrite t g src off b => exact keepsStore_execRegisterWrite t g src off b
  | apertureBindingLapse t => exact keepsStore_execApertureBindingLapse t
  | responseExpiry t => exact keepsStore_execResponseExpiry t
  | dispatchCommand t => exact keepsStore_execDispatchCommand t
  | leaseExpiry t => exact keepsStore_execLeaseExpiry t
  | mbxPut t n body pec => exact keepsStore_execMbxPut t n body pec
  | mbxGet t n frag => exact keepsStore_execMbxGet t n frag
  | mbxStatus t => exact keepsStore_execMbxStatus t
  | mbxRing t pec => exact keepsStore_execMbxRing t pec
  | mbxAbortDiscard t tag pec => exact keepsStore_execMbxAbortDiscard t tag pec
  | mbxAbortRelease t tag pec => exact keepsStore_execMbxAbortRelease t tag pec
  | mbxAbortBoth t tag pec => exact keepsStore_execMbxAbortBoth t tag pec
  | statusPointerWrite t bytes => exact keepsStore_execStatusPointerWrite t bytes
  | snapSelectWrite t reg bytes => exact keepsStore_execSnapSelectWrite t reg bytes
  | statusClassRead t n => exact keepsStore_execStatusClassRead t n
  | portmSclTimeout t inPut => exact keepsStore_execPortmSclTimeout t inPut
  | portmBusError t inPut => exact keepsStore_execPortmBusError t inPut
  | portmP2WakeMatch t => exact keepsStore_execPortmP2WakeMatch t
  | portmP3WakeMatch t => exact keepsStore_execPortmP3WakeMatch t
  | attentionRelatch t => exact keepsStore_execAttentionRelatch t
  | attentionSdaLowSend t idle won => exact keepsStore_execAttentionSdaLowSend t idle won
  | attentionHostNotifySend t idle won acked => exact keepsStore_execAttentionHostNotifySend t idle won acked
  | hostNotifyRetry t won acked => exact keepsStore_execHostNotifyRetry t won acked
  | portlTransaction t acked data => exact keepsStore_execPortlTransaction t acked data
  | portlStretchTimeout t held hold => exact keepsStore_execPortlStretchTimeout t held hold
  | portlArbitrationLost t => exact keepsStore_execPortlArbitrationLost t
  | portlSdaStuckDetect t hold => exact keepsStore_execPortlSdaStuckDetect t hold
  | lockedRead t acked data => exact keepsStore_execLockedRead t acked data
  | unlockingWrite t acked => exact keepsStore_execUnlockingWrite t acked
  | lockedSequenceTimeout t => exact keepsStore_execLockedSequenceTimeout t
  | lockLostStateExpiry t => exact keepsStore_execLockLostStateExpiry t
  | parcelReceive t g p begun upset => exact keepsStore_execParcelReceive t g p begun upset
  | bridgeRead t port p ahead single double => exact keepsStore_execBridgeRead t port p ahead single double
  | bridgeWritePosted t port p => exact keepsStore_execBridgeWritePosted t port p
  | bridgeWriteNonposted t port p => exact keepsStore_execBridgeWriteNonposted t port p
  | completionReceive t port p => exact keepsStore_execCompletionReceive t port p
  | eventRelay t port p => exact keepsStore_execEventRelay t port p
  | announceReceive t g p => exact keepsStore_execAnnounceReceive t g p
  | claimReceive t g p => exact keepsStore_execClaimReceive t g p
  | driverFaultReceive t g p => exact keepsStore_execDriverFaultReceive t g p
  | postedWriteComplete t => exact keepsStore_execPostedWriteComplete t
  | prefetchExpiry t => exact keepsStore_execPrefetchExpiry t
  | eventRelease t port => exact keepsStore_execEventRelease t port
  | hallCellTransfer t input cls met => exact keepsStore_execHallCellTransfer t input cls met
  | parcelTransmit t g idle => exact keepsStore_execParcelTransmit t g idle
  | messageBudgetWindow t g => exact keepsStore_execMessageBudgetWindow t g
  | cutMarkReceive t g c => exact keepsStore_execCutMarkReceive t g c
  | gapReceive t g b => exact keepsStore_execGapReceive t g b
  | bastingTrainReceive t g blocks whole => exact keepsStore_execBastingTrainReceive t g blocks whole
  | bastingTrainSend t g => exact keepsStore_execBastingTrainSend t g
  | creditAReceive t g px pm demand => exact keepsStore_execCreditAReceive t g px pm demand
  | creditBReceive t g np cp demand => exact keepsStore_execCreditBReceive t g np cp demand
  | infoReceive t g quotaPx reachPx => exact keepsStore_execInfoReceive t g quotaPx reachPx
  | probeReceive t g id => exact keepsStore_execProbeReceive t g id
  | echoReceive t g id => exact keepsStore_execEchoReceive t g id
  | sentAReceive t g px pm => exact keepsStore_execSentAReceive t g px pm
  | sentBReceive t g np cp => exact keepsStore_execSentBReceive t g np cp
  | creditPendingTimeout t g => exact keepsStore_execCreditPendingTimeout t g
  | creditRefresh t g => exact keepsStore_execCreditRefresh t g
  | sentPeriod t g => exact keepsStore_execSentPeriod t g
  | probePeriod t g => exact keepsStore_execProbePeriod t g
  | classIdleTimeout t g c => exact keepsStore_execClassIdleTimeout t g c
  | receiveCodeword t g lane bits reads => exact keepsStore_execReceiveCodeword t g lane bits reads
  | receiveBlock t g lane b reads => exact keepsStore_execReceiveBlock t g lane b reads
  | deskewMarkerReceive t g lane seq lanePos sideband => exact keepsStore_execDeskewMarkerReceive t g lane seq lanePos sideband
  | deskewTimeout t g lane => exact keepsStore_execDeskewTimeout t g lane
  | clockLaneLock t g ppm => exact keepsStore_execClockLaneLock t g ppm
  | clockLaneLost t g => exact keepsStore_execClockLaneLost t g
  | idleNoticeReceive t g lane last lanePos => exact keepsStore_execIdleNoticeReceive t g lane last lanePos
  | clockStopNoticeReceive t g lane seq lanePos => exact keepsStore_execClockStopNoticeReceive t g lane seq lanePos
  | autoWake t g => exact keepsStore_execAutoWake t g
  | idleReturn t g => exact keepsStore_execIdleReturn t g
  | tackBlockReceive t g lane b => exact keepsStore_execTackBlockReceive t g lane b
  | tackBurstEnd t g lane drift => exact keepsStore_execTackBurstEnd t g lane drift
  | clockPreambleEnd t g rx relocked => exact keepsStore_execClockPreambleEnd t g rx relocked
  | detectProbe t g clk found => exact keepsStore_execDetectProbe t g clk found
  | clockActivitySeen t g => exact keepsStore_execClockActivitySeen t g
  | terminationLost t g => exact keepsStore_execTerminationLost t g
  | trainTimerExpiry t g rx => exact keepsStore_execTrainTimerExpiry t g rx
  | backoffExpiry t g => exact keepsStore_execBackoffExpiry t g
  | capReceive t g lane c => exact keepsStore_execCapReceive t g lane c
  | landingReceive t g lane l => exact keepsStore_execLandingReceive t g lane l
  | eqReqReceive t g pos count request => exact keepsStore_execEqReqReceive t g pos count request
  | eqAckReceive t g lane pos count cm2 cm1 cp1 cp2 areas => exact keepsStore_execEqAckReceive t g lane pos count cm2 cm1 cp1 cp2 areas
  | qualReceive t g lane tread fec countdown => exact keepsStore_execQualReceive t g lane tread fec countdown
  | qualifyEnd t g results => exact keepsStore_execQualifyEnd t g results
  | resultReceive t g r => exact keepsStore_execResultReceive t g r
  | stepReceive t g b => exact keepsStore_execStepReceive t g b
  | stepBoundary t g rx => exact keepsStore_execStepBoundary t g rx
  | activateSend t g => exact keepsStore_execActivateSend t g
  | activateReceive t g tread fec active firstSeq => exact keepsStore_execActivateReceive t g tread fec active firstSeq
  | retrainReceive t g r => exact keepsStore_execRetrainReceive t g r
  | guardEnd t g rx => exact keepsStore_execGuardEnd t g rx
  | stepDownWindow t g bits => exact keepsStore_execStepDownWindow t g bits
  | reclimbTimer t g => exact keepsStore_execReclimbTimer t g
  | lossReceive t g l => exact keepsStore_execLossReceive t g l
  | lossReportRepeat t g => exact keepsStore_execLossReportRepeat t g
  | lossReportRetry t g => exact keepsStore_execLossReportRetry t g
  | replayReceive t g r => exact keepsStore_execReplayReceive t g r
  | rejoinAttemptStart t g => exact keepsStore_execRejoinAttemptStart t g
  | rejoinAttemptLimit t g => exact keepsStore_execRejoinAttemptLimit t g
  | laneCheckQualify t g pos checkId => exact keepsStore_execLaneCheckQualify t g pos checkId
  | laneCheckReady t g pos checkId => exact keepsStore_execLaneCheckReady t g pos checkId
  | laneCheckRetire t g pos checkId => exact keepsStore_execLaneCheckRetire t g pos checkId
  | sidebandWaitExpiry t g => exact keepsStore_execSidebandWaitExpiry t g
  | rejoinReceive t g r => exact keepsStore_execRejoinReceive t g r
  | placementRunStart t trig => exact keepsStore_execPlacementRunStart t trig
  | placementRunDone t => exact keepsStore_execPlacementRunDone t
  | pendingEntryTimeout t region => exact keepsStore_execPendingEntryTimeout t region
  | cutMarkOverdue t region => exact keepsStore_execCutMarkOverdue t region
  | recordExpiry t region g claimant => exact keepsStore_execRecordExpiry t region g claimant
  | announceOriginate t g => exact keepsStore_execAnnounceOriginate t g
  | claimOriginate t => exact keepsStore_execClaimOriginate t
  | pipeProcessParcel t single double => exact keepsStore_execPipeProcessParcel t single double
  | pipeCheckFail t pipe inside => exact keepsStore_execPipeCheckFail t pipe inside
  | storeScrub t pos single double => exact keepsStore_execStoreScrub t pos single double
  | extentClearingDone t region => exact keepsStore_execExtentClearingDone t region
  | catchUpCopyDone t copied => exact keepsStore_execCatchUpCopyDone t copied
  | storeLost t => exact keepsStore_execStoreLost t
  | safeFrameStart t region g => exact keepsStore_execSafeFrameStart t region g
  | freshnessTimeout t region g => exact keepsStore_execFreshnessTimeout t region g
  | luminanceClear t region g => exact keepsStore_execLuminanceClear t region g
  | driverFaultExpiry t region g => exact keepsStore_execDriverFaultExpiry t region g
  | sensorSample t n v => exact keepsStore_execSensorSample t n v
  | thermalClear t => exact keepsStore_execThermalClear t
  | supplySample t n mv => exact keepsStore_execSupplySample t n mv
  | safeStateEnd t region => exact keepsStore_execSafeStateEnd t region
  | deviceSafeEnd t => exact keepsStore_execDeviceSafeEnd t
  | lockoutRecordWrite t => exact keepsStore_execLockoutRecordWrite t
  | releaseArmExpiry t => exact keepsStore_execReleaseArmExpiry t
  | lockoutClrNFall t => exact keepsStore_execLockoutClrNFall t
  | lockoutClrNRise t => exact keepsStore_execLockoutClrNRise t
  | releaseCheck t => exact keepsStore_execReleaseCheck t
  | sessionTimeout t => exact keepsStore_execSessionTimeout t
  | refclkLost t ref => exact keepsStore_execRefclkLost t ref
  | refclkRestored t ref => exact keepsStore_execRefclkRestored t ref
  | referenceSwitch t ref => exact keepsStore_execReferenceSwitch t ref
  | xinLost t => exact keepsStore_execXinLost t
  | clockSwitchComplete t island => exact keepsStore_execClockSwitchComplete t island
  | forcedSwitch t island => exact keepsStore_execForcedSwitch t island
  | pllLock t pll => exact keepsStore_execPllLock t pll
  | pllLockLoss t pll => exact keepsStore_execPllLockLoss t pll
  | gateQuiesceAck t unit => exact keepsStore_execGateQuiesceAck t unit
  | forcedGate t unit => exact keepsStore_execForcedGate t unit
  | oscWaitEnd t => exact keepsStore_execOscWaitEnd t
  | refoutLock t out => exact keepsStore_execRefoutLock t out
  | meterGate t m v => exact keepsStore_execMeterGate t m v
  | zcalCalibration t inRange => exact keepsStore_execZcalCalibration t inRange
  | powerOnReset t => exact keepsStore_execPowerOnReset t
  | railBelowThreshold t rail => exact keepsStore_execRailBelowThreshold t rail
  | vdramLoss t => exact keepsStore_execVdramLoss t
  | resetNLow t hold => exact keepsStore_execResetNLow t hold
  | wakeNFall t low => exact keepsStore_execWakeNFall t low
  | cutterHoldExpiry t => exact keepsStore_execCutterHoldExpiry t
  | p2DrainEnd t => exact keepsStore_execP2DrainEnd t
  | brownoutWarning t => exact keepsStore_execBrownoutWarning t
  | brownoutEnd t => exact keepsStore_execBrownoutEnd t
  | brownoutSustained t => exact keepsStore_execBrownoutSustained t
  | mezzanineWatchdog t => exact keepsStore_execMezzanineWatchdog t
  | firmwareReadopt t => exact keepsStore_execFirmwareReadopt t
  | bootSequencerRun t => exact keepsStore_execBootSequencerRun t
  | bootRomSlotCheck t => exact keepsStore_execBootRomSlotCheck t
  | firmwareBootComplete t => exact keepsStore_execFirmwareBootComplete t
  | trialConfirm t => exact keepsStore_execTrialConfirm t
  | returnedErasure t => exact keepsStore_execReturnedErasure t
  | freezeNFall t highFor => exact keepsStore_execFreezeNFall t highFor
  | logWriterFlush t => exact keepsStore_execLogWriterFlush t
  | eyeScanComplete t g lane eye points => exact keepsStore_execEyeScanComplete t g lane eye points
  | tapReset t => exact keepsStore_execTapReset t
  | tapIdcode t => exact keepsStore_execTapIdcode t
  | tapSamplePreload t n pins new => exact keepsStore_execTapSamplePreload t n pins new
  | tapExtest t n pins new => exact keepsStore_execTapExtest t n pins new
  | tapExtestPulse t n pins new => exact keepsStore_execTapExtestPulse t n pins new
  | tapExtestTrain t n pins new => exact keepsStore_execTapExtestTrain t n pins new
  | tapDbgStatus t => exact keepsStore_execTapDbgStatus t
  | tapDbgNonce t => exact keepsStore_execTapDbgNonce t
  | tapDbgToken t level key sig => exact keepsStore_execTapDbgToken t level key sig
  | tapMbxNop t => exact keepsStore_execTapMbxNop t
  | tapMbxResetPtr t => exact keepsStore_execTapMbxResetPtr t
  | tapMbxPut t data => exact keepsStore_execTapMbxPut t data
  | tapMbxRing t => exact keepsStore_execTapMbxRing t
  | tapMbxGet t => exact keepsStore_execTapMbxGet t
  | tapMbxAck t => exact keepsStore_execTapMbxAck t
  | tapFreeze t => exact keepsStore_execTapFreeze t
  | tapSnapPublic t => exact keepsStore_execTapSnapPublic t
  | tapSnapFull t => exact keepsStore_execTapSnapFull t
  | tapSramRead t addr => exact keepsStore_execTapSramRead t addr
  | tapMezHalt t => exact keepsStore_execTapMezHalt t
  | tapMezStep t => exact keepsStore_execTapMezStep t
  | tapMezResume t => exact keepsStore_execTapMezResume t
  | tapBypass t code => exact keepsStore_execTapBypass t code
  | hallLost t => exact keepsStore_execHallLost t
  | adaptationWindowEnd t g lane sums vga drift => exact keepsStore_execAdaptationWindowEnd t g lane sums vga drift
  | qualCountdownEnd t g rx => exact keepsStore_execQualCountdownEnd t g rx
  | updateVerifyDone t => exact keepsStore_execUpdateVerifyDone t
  | updateCommitDone t same => exact keepsStore_execUpdateCommitDone t same
  | logStreamHolderExpiry t => exact keepsStore_execLogStreamHolderExpiry t

/-- Settles O5: a step runs one command on the rest of the queue, and every command keeps the form. -/
theorem everyStepKeepsTheStoreCanonical : Obligations.EveryStepKeepsTheStoreCanonical := by
  intro s u h e
  unfold step at e
  split at e
  · injection e with e
    exact e ▸ h
  · refine keepsStore_exec _ _ u ?_ e
    exact h

end Sys2Proof.Machine
end

section
/-! Mailbox commands: what an answer changes, the order of the checks, repeats, dry runs and staging (R345 to R350, R357, R370). -/

namespace Sys2Proof.Machine

/-! A response enters its host's ring; for the service host it raises a cause of attention besides. -/

@[simp] theorem doIf_true (f : State → State) (s : State) : doIf true f s = f s := rfl

@[simp] theorem doIf_false (f : State → State) (s : State) : doIf false f s = s := rfl

theorem ringAt_pushRsp (h : HostId) (src : BitVec 16) (b : List Byte) (s : State) :
    ringAt (pushRsp h src b s) h = { ringAt s h with rsps := (ringAt s h).rsps ++ [{ bytes := b, src, at_ := s.now }] } := by
  have hm : ringAt (pushRsp h src b s) h = ringAt (modRing h (fun r => { r with rsps := r.rsps ++ [{ bytes := b, src, at_ := s.now }] }) s) h := by
    cases h <;> rfl
  rw [hm, ringAt_modRing]

theorem ringAt_pushRsp_ne {h k : HostId} (hk : hostIx k ≠ hostIx h) (src : BitVec 16) (b : List Byte) (s : State) :
    ringAt (pushRsp h src b s) k = ringAt s k := by
  have hm : ringAt (pushRsp h src b s) k = ringAt (modRing h (fun r => { r with rsps := r.rsps ++ [{ bytes := b, src, at_ := s.now }] }) s) k := by
    cases h <;> rfl
  rw [hm, ringAt_modRing_ne _ _ hk]

theorem causes_pushRsp (h : HostId) (src : BitVec 16) (b : List Byte) (s : State) :
    (pushRsp h src b s).portM.causes = if h = .service then s.portM.causes ||| 1#5 else s.portM.causes := by
  cases h <;> rfl

/-- A change of rings and of port M's causes. -/
def RingsAndCauses (s u : State) : Prop := { u with mbx := { u.mbx with rings := s.mbx.rings }, portM := { u.portM with causes := s.portM.causes } } = s

theorem ringsAndCauses_pushRsp (h : HostId) (src : BitVec 16) (b : List Byte) (s : State) : RingsAndCauses s (pushRsp h src b s) := by
  cases h <;> rfl

/-- The response that an answer writes. -/
def response (c : Cmd) (q : Req) (st : Nat) (p : List Byte) (s : State) : Response :=
  { bytes := rspFrame c.op q.tag.toNat 0 st (hostCode q.host) (if c.op = 0x100 ∧ st = 0 ∧ q.dryRun = false then field p 0 4 else q.token.toNat) q.seq.toNat p
    src := q.src, at_ := s.now }

theorem answer_dryRun {c : Cmd} {q : Req} (h : q.dryRun = true) (st : Nat) (p : List Byte) (s : State) :
    answer c q st p s = pushRsp q.host q.src (response c q st p s).bytes s := by
  simp [answer, response, reqRsp, h]

theorem answer_remembered {c : Cmd} {q : Req} (h : q.dryRun = false) (st : Nat) (p : List Byte) (s : State) :
    answer c q st p s = pushRsp q.host q.src (response c q st p s).bytes (modRing q.host (fun r => { r with dup := some (q.seq, response c q st p s) }) s) := by
  simp [answer, response, reqRsp, h]

/-- Settles O11: the response is pushed, and unless the request was a dry run it is remembered first. -/
theorem answeringChangesOneRing : Obligations.AnsweringChangesOneRing := by
  intro c q st p s u token b R
  cases h : q.dryRun with
  | true =>
    have hu : u = pushRsp q.host q.src R.bytes s := by simpa [R, b, token, response] using answer_dryRun h st p s
    rw [hu]
    exact ⟨ringAt_pushRsp .., fun k hk => ringAt_pushRsp_ne hk .., causes_pushRsp .., ringsAndCauses_pushRsp ..⟩
  | false =>
    have hu : u = pushRsp q.host q.src R.bytes (modRing q.host (fun r => { r with dup := some (q.seq, R) }) s) := by
      simpa [R, b, token, response] using answer_remembered h st p s
    rw [hu]
    refine ⟨?ring, fun k hk => ?other, causes_pushRsp .., ?rest⟩
    case ring => rw [ringAt_pushRsp, ringAt_modRing]; rfl
    case other => rw [ringAt_pushRsp_ne hk, ringAt_modRing_ne _ _ hk]
    case rest =>
      cases q.host <;> rfl

/-! The checks, in their order. -/

theorem command_refused_lease {c : Cmd} {t : Nat} {q : Req} {s : State} (h : Fresh t q s) (hl : leaseStep c q (ready c t q s) ≠ 0) :
    command t c q s = .next (finish (answer c q (leaseStep c q (ready c t q s)) [] (countRefusal c (leaseStep c q (ready c t q s)) q (ready c t q s)))) := by
  refine command_fresh h ((serve_fresh h).trans ?_)
  dsimp only
  rw [if_pos hl]

theorem command_refused_shape {c : Cmd} {t : Nat} {q : Req} {s : State} (h : Fresh t q s) (hl : leaseStep c q (ready c t q s) = 0) (hs : shapeStep c q ≠ 0) :
    command t c q s = .next (finish (answer c q (shapeStep c q) [] (ready c t q s))) := by
  refine command_fresh h ((serve_fresh h).trans ?_)
  dsimp only
  rw [if_neg (not_not_intro hl), if_pos hs]

theorem command_checked {c : Cmd} {t : Nat} {q : Req} {s : State} (h : Fresh t q s) (hl : leaseStep c q (ready c t q s) = 0) (hs : shapeStep c q = 0) :
    command t c q s = .next (finish (runCmd c q (ready c t q s))) := by
  refine command_fresh h ((serve_fresh h).trans ?_)
  dsimp only
  rw [if_neg (not_not_intro hl), if_neg (not_not_intro hs)]

/-- The only refusal of the shape is BAD_ARG. -/
theorem shapeStep_eq_badArg {c : Cmd} {q : Req} (h : shapeStep c q ≠ 0) : shapeStep c q = 3 := by
  unfold shapeStep at h ⊢
  split_ifs at h ⊢
  · rfl
  · rfl
  · exact absurd rfl h

/-- A host that holds no lease of the domain it needs fails the lease step. -/
theorem leaseStep_not_owner {c : Cmd} {q : Req} {r : State} {d : Nat} (hc : c.need = .dom d) (hh : q.host ≠ .debug) (hn : needsDomain c q r = true)
    (hl : holds r (holderOf q.host q.src) d = false) : leaseStep c q r = 2 := by
  simp [leaseStep, hh, hc, hn, domainOf, hl]

theorem countRefusal_not_owner {c : Cmd} {q : Req} {r : State} (hn : needsDomain c q r = true) :
    countRefusal c 2 q r = if q.dryRun then r else countDev 0xB01 0 r := by
  simp [countRefusal, hn]

/-- Settles O12: the lease step comes before the shape, and a domain without its lease is NOT_OWNER. -/
theorem checksRefuseInOrder : Obligations.ChecksRefuseInOrder := by
  refine ⟨fun c t q s h => ⟨command_refused_lease h, fun hl hs => ⟨shapeStep_eq_badArg hs, ?shape⟩⟩, fun c t q s d h hc hh hn hl => ?owner⟩
  case shape =>
    rw [command_refused_shape h hl hs, shapeStep_eq_badArg hs]
  case owner =>
    have h2 := leaseStep_not_owner hc hh hn hl
    have h0 : leaseStep c q (ready c t q s) ≠ 0 := by omega
    rw [command_refused_lease h h0, h2, countRefusal_not_owner hn]

/-! Repeats, dry runs and staging. -/

/-- A request whose number is its ring's last is answered from memory. -/
theorem serveFw_repeated {c : Cmd} {q : Req} {s : State} {R : Response} (h : (ringAt s q.host).dup = some (q.seq, R)) : serveFw c q s = answerAgain q R s := by
  simp [serveFw, h]

theorem command_repeated {c : Cmd} {t : Nat} {q : Req} {s : State} {R : Response} (ht : canTake q.host (begin t s) = true) (hf : fwRuns (begin t s) = true)
    (h : (ringAt (begin t s) q.host).dup = some (q.seq, R)) :
    command t c q s = .next (finish (answerAgain q R (taken t s))) := by
  have hrun : fwRuns (taken t s) = true := hf
  have hdup : (ringAt (taken t s) q.host).dup = some (q.seq, R) := h
  have hs : serve c q (taken t s) = answerAgain q R (taken t s) := by
    rw [serve, if_pos hrun, serveFw_repeated hdup]
  exact (effect_acts ht).trans (congrArg (fun u => Host.Outcome.next (finish u)) hs)

theorem runCmd_dryRun {c : Cmd} {q : Req} {s : State} (hs : q.stage = false) (hd : q.dryRun = true) : runCmd c q s = answer c q (c.body q s).status [] s := by
  simp [runCmd, hs, hd]

theorem runCmd_staged {c : Cmd} {q : Req} {s : State} (hs : q.stage = true) : runCmd c q s = stageIt c q s := by
  simp [runCmd, hs]

theorem stageIt_full {c : Cmd} {q : Req} {s : State} (h : 64 ≤ (s.mbx.staged.filter fun x => x.token == q.token).length) : stageIt c q s = answer c q 7 [] s := by
  simp only [stageIt, ge_iff_le, if_pos h]

theorem stageIt_fails {c : Cmd} {q : Req} {s : State} (h : (s.mbx.staged.filter fun x => x.token == q.token).length < 64) (hb : (c.body q s).status ≠ 0) :
    stageIt c q s = answer c q (c.body q s).status [] s := by
  simp only [stageIt, ge_iff_le, if_neg (Nat.not_le.2 h), if_pos hb]

theorem stageIt_holds {c : Cmd} {q : Req} {s : State} (h : (s.mbx.staged.filter fun x => x.token == q.token).length < 64) (hb : (c.body q s).status = 0) :
    stageIt c q s = answer c q 0 [] (if q.dryRun then s else { s with mbx := { s.mbx with staged := s.mbx.staged ++ [{ token := q.token, op := c.op, req := q }] } }) := by
  simp only [stageIt, ge_iff_le, if_neg (Nat.not_le.2 h), if_neg (not_not_intro hb)]
  cases q.dryRun <;> rfl

/-- The rows of the mailbox commands dispatch their commands. -/
theorem exec_mailboxRows : ∀ e ∈ mailboxRows, ∀ (t : Nat) (q : Req) (s : State), exec (e.1 t q) s = command t e.2 q s := by
  unfold mailboxRows
  simp only [List.cons_append, List.nil_append, List.forall_mem_cons]
  repeat refine ⟨fun _ _ _ => rfl, ?_⟩
  exact List.forall_mem_nil _

/-- What a row of a mailbox command gives, its command says. -/
theorem gives_of_row {e : (Nat → Req → Instr) × Cmd} (he : e ∈ mailboxRows) {t : Nat} {q : Req} {s u : State} (h : command t e.2 q s = .next (finish u)) :
    Gives (e.1 t q) s u := (exec_mailboxRows e he t q s).trans h

/-- Settles O13: a repeat is answered from memory, a dry run with its work's status alone, and each row runs, holds or refuses its command. -/
theorem repeatsAndDryRunsChangeNothing : Obligations.RepeatsAndDryRunsChangeNothing := by
  refine ⟨fun c t q s R ht hf hd => command_repeated ht hf hd, fun c t q s h hl hs hst hd => ?dry, ?covered, ?rows⟩
  case dry => rw [command_checked h hl hs, runCmd_dryRun hst hd]
  case covered => decide +kernel
  case rows =>
    intro e he t q s c r
    refine ⟨fun h => ⟨fun st p u hb => ?_, fun limit u hb => ?_⟩, fun h hl hs hst => ?_⟩
    · refine gives_of_row he ((command_runs h).trans ?_)
      dsimp only
      rw [hb]
    · refine gives_of_row he ((command_runs h).trans ?_)
      dsimp only
      rw [hb]
    · have hrun : command t c q s = .next (finish (stageIt c q r)) := by rw [command_checked h hl hs, runCmd_staged hst]
      refine ⟨fun hn => ?_, fun hn hb => ?_, fun hn hb => ?_⟩
      · exact gives_of_row he (by rw [hrun, stageIt_full hn])
      · exact gives_of_row he (by rw [hrun, stageIt_fails hn hb])
      · exact gives_of_row he (by rw [hrun, stageIt_holds hn hb])

end Sys2Proof.Machine
end

section
/-! Commands of the system, of profiles and of leases (R352 to R357, R374, R375, R454, R457, R458). -/

open Sys2Proof

namespace Sys2Proof.Machine

/-- A row of a mailbox command gives the answer of its body, whatever its status. -/
theorem answers_of {i : Instr} {c : Cmd} {t : Nat} {q : Req} {s : State} {st : Nat} {p : List Byte} {u : State} (hi : exec i s = command t c q s)
    (h : Passes c t q s) (hb : c.body q (ready c t q s) = .done st p u) : Gives i s (answer c q st p u) := by
  unfold Gives; rw [hi, command_runs h]; simp only [hb]

/-! Rows of mailbox commands with the body named, so that the command's record is not looked into. -/

theorem replies_by {b : Req → State → Reply} {i : Instr} {c : Cmd} {t : Nat} {q : Req} {s : State} {p : List Byte} {f : State → State}
    (hi : exec i s = command t c q s) (hc : c.body = b) (h : Passes c t q s) (hb : b q (ready c t q s) = .done 0 p (f (ready c t q s))) :
    Replies i c t q s p f := replies_of hi h (by rw [hc, hb])

theorem answers_by {b : Req → State → Reply} {i : Instr} {c : Cmd} {t : Nat} {q : Req} {s : State} {st : Nat} {p : List Byte} {u : State}
    (hi : exec i s = command t c q s) (hc : c.body = b) (h : Passes c t q s) (hb : b q (ready c t q s) = .done st p u) : Gives i s (answer c q st p u) :=
  answers_of hi h (by rw [hc, hb])

theorem refuses_by {b : Req → State → Reply} {i : Instr} {c : Cmd} {t : Nat} {q : Req} {s : State} {st : Nat}
    (hi : exec i s = command t c q s) (hc : c.body = b) (h : Passes c t q s) (hb : b q (ready c t q s) = fail st (ready c t q s)) :
    Gives i s (answer c q st [] (ready c t q s)) := refuses_of hi h (by rw [hc, hb])

theorem waits_by {b : Req → State → Reply} {i : Instr} {c : Cmd} {t : Nat} {q : Req} {s : State} {l : Nat} {f : State → State}
    (hi : exec i s = command t c q s) (hc : c.body = b) (h : Passes c t q s) (hb : b q (ready c t q s) = .wait l (f (ready c t q s))) :
    Waits i c t q s l f := waits_of hi h (by rw [hc, hb])

/-- Settles O14. Each body is run: its guards hold by the hypotheses of the clause, and what it then answers is what the clause says. -/
theorem systemAndProfileCommands : Obligations.SystemAndProfileCommands := by
  unfold Obligations.SystemAndProfileCommands
  refine ⟨fun t q s => ⟨fun h => ?_, fun h => ?_, fun h => ?_, fun h => ?_, fun h => ?_, fun h => ?_⟩,
    fun t q s => ⟨fun h h1 => ?_, fun h h1 h2 => ?_, fun h h1 h2 => ?_, fun h h1 => ?_, fun h h1 h2 => ?_⟩⟩
  · exact replies_of rfl h rfl
  · exact replies_of rfl h rfl
  · exact replies_of rfl h rfl
  · exact replies_of rfl h rfl
  · exact replies_of rfl h rfl
  · exact replies_of rfl h rfl
  · exact replies_of rfl h (guardR_pos (by simp [h1]))
  · exact replies_of rfl h ((guardR_pos (by simp [h1])).trans (guardR_pos (by simp [h2])))
  · exact replies_of rfl h ((guardR_pos (by simp [h1])).trans ((guardR_pos (by rw [h2, Bool.or_true])).trans (by
      rw [if_neg (by omega)]; rfl)))
  · exact replies_of rfl h ((guardR_pos (by simp [h1])).trans ((guardR_pos (by simp [h1])).trans (by rw [if_pos h1]; rfl)))
  · exact replies_of rfl h ((guardR_pos (by simp [h1])).trans (guardR_pos (by simp [h2])))

/-- Settles O15. `lease.acquire` looks for the domains named that others hold: there is none of them where each is free or the caller's, and one where the
hypothesis of the refusal names it. -/
theorem leaseCommands : Obligations.LeaseCommands := by
  unfold Obligations.LeaseCommands
  intro t q s w
  refine ⟨?_, ?_, ?_, ?_, ?_⟩
  · intro h r h1 h2 u
    have hl : ((domains (arg q 0 2 % 0x8000)).filter fun d => (leaseAt r d).holder.isSome && !holds r w d) = [] := by
      refine List.filter_eq_nil_iff.2 fun d hd => ?_
      rcases h2 d hd with e | e <;> simp [e]
    refine replies_of rfl h ((guardR_pos (by simp [h1])).trans (if_neg ?_))
    rw [hl]; decide
  · intro h h1 h2 r l
    have hl : l.isEmpty = false := by
      obtain ⟨d, hd, e1, e2⟩ := h2
      have hm : d ∈ l := List.mem_filter.2 ⟨hd, by simp [r, w, e2, Option.isSome_iff_ne_none, e1]⟩
      simpa using List.ne_nil_of_mem hm
    exact answers_of rfl h ((guardR_pos (by simp [h1])).trans (if_pos (by rw [hl]; rfl)))
  · intro h u
    exact replies_of rfl h rfl
  · intro h h1
    exact replies_of rfl h (guardR_pos (List.all_eq_true.2 h1))
  · intro h st
    exact replies_of rfl h rfl

end Sys2Proof.Machine
end

section
/-! Commands of galleries and lanes (R55 to R65, R72, R157, R200, R376, R377, R389). -/

open Sys2Proof

namespace Sys2Proof.Machine

/-- The quotas that R200 accepts, each between 20 and 1,476 units and 1,536 in all, pass its check. -/
theorem splitOk_of {p : PerClass Nat} (h : ∀ k, 20 ≤ cget p k ∧ cget p k ≤ 1476) (hs : p.px + p.pm + p.np + p.cp = 1536) : splitOk p = true := by
  simp [splitOk, h, hs]

/-- The presets that `lane.tx_set` leaves: of six, those its bytes name, and 0xFF keeps one. -/
def presetsSet (q : Req) (old : List Nat) : List Nat :=
  (List.range 6).map fun k => if arg q (8 + k) 1 = 0xFF then old.getD k 0 else arg q (8 + k) 1

theorem getD_presetsSet (q : Req) (old : List Nat) {k : Nat} (hk : k < 6) :
    (presetsSet q old).getD k 0 = if arg q (8 + k) 1 = 0xFF then old.getD k 0 else arg q (8 + k) 1 := by
  simp [presetsSet, hk]

/-- `lane.tx_set` of valid values sets the presets, and the lane it names. -/
theorem doTxSet_valid {q : Req} {s : State} {g : GalIx} (hg : arg q 0 1 = g.val) (h : txArgs q = true) :
    doTxSet q s = okay [] (s |> modSet g (fun x => { x with presets := presetsSet q x.presets })
      |> doIf (arg q 1 1 != 0xFF) (modLaneSet g (laneOf (arg q 1 1)) fun x =>
          { x with coef := if bitOf (arg q 2 1) 0 then some (reqCoef q) else none, swing := BitVec.ofNat 8 (arg q 3 1) })) :=
  (onGal_pos hg).trans (guardR_pos h)

/-- Settles O17. Each command runs on the gallery that byte 0 names; its check of the values holds by the hypotheses of the clause. -/
theorem gallerySettingCommands : Obligations.GallerySettingCommands := by
  unfold Obligations.GallerySettingCommands
  intro t q s g hg
  refine ⟨?_, ?_, ?_, ?_, ?_, ?_, ?_⟩
  · intro h h1
    exact replies_of rfl h (show doProvision q _ = _ from (onGal_pos hg).trans (guardR_pos (by simp [h1])))
  · intro h r h1 h2 h3
    exact replies_of rfl h (show doIdle q _ = _ from (onGal_pos hg).trans ((guardR_pos h1).trans (guardR_pos (by simp only [r] at h2 h3; simp [h2, h3]))))
  · intro h h1 h2 h3
    exact replies_of rfl h (show doCreditSet q _ = _ from (onGal_pos hg).trans (guardR_pos (by rw [splitOk_of h2 h3]; simp [h1])))
  · intro h h1
    exact replies_of rfl h (show doEqSet q _ = _ from (onGal_pos hg).trans (guardR_pos h1))
  · intro h h1 h2
    refine ⟨presetsSet q, replies_of rfl h ((doTxSet_valid hg h1).trans ?_), fun old k => getD_presetsSet q old⟩
    rw [show (arg q 1 1 != 0xFF) = true by simp [h2], doIf_true]; rfl
  · intro h h1 h2
    refine ⟨presetsSet q, replies_of rfl h ((doTxSet_valid hg h1).trans ?_), fun old k => getD_presetsSet q old⟩
    rw [h2]; rfl
  · intro h h1 h2 h3 h4
    exact replies_of rfl h (show doTrainSet q _ = _ from (onGal_pos hg).trans (guardR_pos (by simp [h1, h2, h3, h4])))

end Sys2Proof.Machine
end

section
open Sys2Proof
namespace Sys2Proof.Machine

/-- What every step of a loop keeps, the loop keeps. -/
theorem forAll_keeps {α : Type u} {P : State → Prop} {f : α → State → State} (hf : ∀ a u, P u → P (f a u)) (l : List α) {s : State} (h : P s) :
    P (forAll l f s) := by
  unfold forAll
  induction l generalizing s with
  | nil => exact h
  | cons a l ih => exact ih (hf a s h)

@[simp] theorem galAt_modClocks (f : ClockUnit → ClockUnit) (s : State) (g : GalIx) : galAt (modClocks f s) g = galAt s g := rfl

@[simp] theorem galAt_emit (o : Output) (s : State) (g : GalIx) : galAt (emit o s) g = galAt s g := rfl

@[simp] theorem galAt_countDev (id inst : Nat) (s : State) (g : GalIx) : galAt (countDev id inst s) g = galAt s g := rfl

@[simp] theorem galAt_closeGate (u : Nat) (s : State) (g : GalIx) : galAt (closeGate u s) g = galAt s g := rfl

@[simp] theorem galAt_openGate (u : Nat) (s : State) (g : GalIx) : galAt (openGate u s) g = galAt s g := rfl

@[simp] theorem galAt_requestGate (u : Nat) (s : State) (g : GalIx) : galAt (requestGate u s) g = galAt s g := by
  unfold requestGate
  split
  · rfl
  · split <;> rfl

theorem galAt_countDevs {α : Type u} (l : List α) (id : Nat) (s : State) (g : GalIx) : galAt (l.foldl (fun s _ => countDev id 0 s) s) g = galAt s g := by
  induction l generalizing s with
  | nil => rfl
  | cons a l ih => rw [List.foldl_cons, ih, galAt_countDev]

theorem galAt_doIf_countDevs {α : Type u} (c : Bool) (l : List α) (id : Nat) (s : State) (g : GalIx) :
    galAt (doIf c (fun s => l.foldl (fun s _ => countDev id 0 s) s) s) g = galAt s g := by
  cases c
  · rfl
  · exact galAt_countDevs l id s g

@[simp] theorem galAt_doIf_openGate (c : Bool) (u : Nat) (s : State) (g : GalIx) : galAt (doIf c (openGate u) s) g = galAt s g := by
  cases c <;> rfl

/-- A gallery that is out of service: OFF, both directions in RESET, and nothing queued. -/
def IsOff (G : Gal) : Prop :=
  G.off = true ∧ G.rx.ts = .reset ∧ G.tx.ts = .reset ∧ G.egress = ⟨[], [], [], []⟩ ∧ G.bobbin = ⟨[], [], [], []⟩

/-- What a change of one gallery, or of another, leaves of a gallery that is out of service. -/
theorem isOff_modGal {g h : GalIx} {f : Gal → Gal} (hf : ∀ G, IsOff G → IsOff (f G)) {s : State} (hs : IsOff (galAt s g)) : IsOff (galAt (modGal h f s) g) := by
  by_cases e : g = h
  · subst e; rw [galAt_modGal]; exact hf _ hs
  · rwa [galAt_modGal_ne s f e]

/-- A gallery out of service has no parcel that could lose a target. -/
theorem isOff_dropTargets {g h : GalIx} {s : State} (hs : IsOff (galAt s g)) : IsOff (galAt (dropTargets h s) g) := by
  unfold dropTargets
  dsimp only
  generalize 0x43B = n
  rw [galAt_countDevs]
  unfold galAt
  dsimp only
  rw [← galAt]
  refine forAll_keeps (P := fun u => IsOff (galAt u g)) (fun k u hu => forAll_keeps (P := fun u => IsOff (galAt u g)) (fun c u hu => ?_) _ hu) _ hs
  rw [galAt_doIf_countDevs]
  unfold dropStored
  refine isOff_modGal (fun G hG => ?_) ?_
  · obtain ⟨h1, h2, h3, h4, h5⟩ := hG
    exact ⟨h1, h2, h3, h4, h5⟩
  by_cases e : g = k
  · subst e
    obtain ⟨h1, h2, h3, h4, h5⟩ := hu
    rw [galAt_modGal]
    refine ⟨h1, h2, h3, h4, ?_⟩
    rw [h5, show u.gals[g].bobbin = ⟨[], [], [], []⟩ from h5]
    cases c <;> rfl
  · rwa [galAt_modGal_ne _ _ e]

theorem resetGallery_unprovisioned {g : GalIx} {r : State} (h : (galSet r g).prov = false) : IsOff (galAt (resetGallery g r) g) := by
  unfold resetGallery
  simp only [h, Bool.false_eq_true, if_false, galAt_requestGate]
  refine isOff_dropTargets ?_
  rw [galAt_modGal]
  exact ⟨rfl, by simp, by simp, by simp, by simp⟩

/-- The report of a gallery that is not sending changes its capacities and raises nothing (R211). -/
theorem galAt_reportCapacity_idle {g : GalIx} {s : State} (h : (galAt s g).tx.ts ≠ .active) :
    galAt (reportCapacity g s) g = { galAt s g with capTx := txCapacity (galAt s g), capRx := rxCapacity (galAt s g), throttled := false } := by
  have ht : throttledNow (galAt s g) = false := by simp [throttledNow, h]
  unfold reportCapacity reportAs
  simp [ht]

/-- A gallery that trains from DETECT, with nothing queued. -/
def IsInDetect (G : Gal) : Prop :=
  G.off = false ∧ G.rx.ts = .detect ∧ G.tx.ts = .detect ∧ G.egress = ⟨[], [], [], []⟩ ∧ G.bobbin = ⟨[], [], [], []⟩

theorem isInDetect_enterDetect {g : GalIx} {s : State} (ho : (galAt s g).off = false) (he : (galAt s g).egress = ⟨[], [], [], []⟩)
    (hb : (galAt s g).bobbin = ⟨[], [], [], []⟩) : IsInDetect (galAt (enterDetect g s) g) := by
  unfold enterDetect
  rw [galAt_reportCapacity_idle (by simp), galAt_modGal]
  exact ⟨ho, rfl, rfl, he, hb⟩

theorem resetGallery_provisioned {g : GalIx} {r : State} (h : (galSet r g).prov = true) (hw : r.clocks.sides[sideOf g].waiting = false) :
    IsInDetect (galAt (resetGallery g r) g) := by
  unfold resetGallery
  simp only [h, hw, Bool.false_eq_true, if_false, if_true]
  unfold releaseGallery
  refine isInDetect_enterDetect ?_ ?_ ?_ <;> rw [galAt_modClocks, galAt_modGal] <;> simp

/-- `gallery.reset` that is not kept off the caller's own path (R389). -/
theorem doGalReset_acts {q : Req} {r : State} {g : GalIx} (hg : arg q 0 1 = g.val) (h : (!(pathGal q == some g.val) || bitOf (arg q 1 1) 0) = true) :
    doGalReset q r = okay [] (resetGallery g (doIf (pathGal q == some g.val)
      (endLeases (fun l => l.holder == some (holderOf q.host q.src) && l.gallery == some g.val) (some 2)) r)) :=
  (onGal_pos hg).trans (guardR_pos h)

theorem doGalReset_refused {q : Req} {r : State} {g : GalIx} (hg : arg q 0 1 = g.val) (h : (!(pathGal q == some g.val) || bitOf (arg q 1 1) 0) = false) :
    doGalReset q r = fail 0x0A r :=
  (onGal_pos hg).trans (guardR_neg h)

/-- `gallery.retrain` on a gallery in service with valid arguments: FULL, or STEP of one direction (R147). -/
theorem doRetrain_inService {q : Req} {r : State} {g : GalIx} (hg : arg q 0 1 = g.val) (ha : arg q 1 1 ≤ 1 ∧ arg q 2 1 ≤ 1 ∧ arg q 3 1 ≤ 5)
    (hs : (galAt r g).off = false ∧ (galAt r g).lost = none ∧ (galAt r g).held = false) :
    doRetrain q r =
      if arg q 1 1 = 0 then okay [] (orderFull g r)
      else if arg q 2 1 = 1 then
        guardR ((galAt r g).tx.ts == .active) 0x0A r <| guardR (arg q 3 1 ≤ ((galAt r g).tx.target.getD 5).val) 3 r <| okay [] (orderStep g (arg q 3 1) r)
      else
        guardR ((galAt r g).rx.ts == .active) 0x0A r <| guardR (arg q 3 1 ≤ ((galAt r g).rx.target.getD 5).val) 3 r <|
          okay [] (requestStep g (arg q 3 1) 2 r) := by
  obtain ⟨a1, a2, a3⟩ := ha
  obtain ⟨s1, s2, s3⟩ := hs
  unfold doRetrain
  rw [onGal_pos hg, guardR_pos (by simp [a1, a2, a3]), guardR_pos (by simp [s1, s2, s3])]
  by_cases h2 : arg q 2 1 = 1 <;> simp [h2]

theorem doRetrain_outOfService {q : Req} {r : State} {g : GalIx} (hg : arg q 0 1 = g.val) (ha : arg q 1 1 ≤ 1 ∧ arg q 2 1 ≤ 1 ∧ arg q 3 1 ≤ 5)
    (hs : (galAt r g).off = true ∨ (galAt r g).lost.isSome = true ∨ (galAt r g).held = true) : doRetrain q r = fail 0x0A r := by
  obtain ⟨a1, a2, a3⟩ := ha
  unfold doRetrain
  rw [onGal_pos hg, guardR_pos (by simp [a1, a2, a3]), guardR_neg]
  rcases hs with h | h | h
  · simp [h]
  · simp [Option.isSome_iff_ne_none.1 h]
  · simp [h]

/-- Settles O18. The reports answer with the gallery as it stands. A reset ends in `releaseGallery` or out of service, whatever queues there were; `gallery.retrain`
is taken apart by whether the gallery is in service. -/
theorem galleryReportsAndActions : Obligations.GalleryReportsAndActions := by
  unfold Obligations.GalleryReportsAndActions
  refine ⟨fun t q s g hg => ⟨?_, ?_, ?_, ?_⟩, fun t q s g hg => ⟨?_, ?_, ?_, ?_, ?_, ?_⟩⟩
  · intro h G
    exact replies_of rfl h (show doGalStatus q _ = _ from onGal_pos hg)
  · intro h G x
    exact replies_of rfl h (show doCreditGet q _ = _ from onGal_pos hg)
  · intro h h1 l x v
    exact replies_of rfl h (show doEqGet q _ = _ from (onGal_pos hg).trans (guardR_pos (by simp [h1])))
  · intro h G N
    exact replies_of rfl h (show doTrainStatus q _ = _ from onGal_pos hg)
  · intro h h1
    refine replies_of rfl h ((doGalReset_acts hg (by simp [h1])).trans ?_)
    rw [show (pathGal q == some g.val) = false by simpa using h1]; rfl
  · intro h h1 h2
    refine replies_of rfl h ((doGalReset_acts hg (by simp [h2])).trans ?_)
    rw [show (pathGal q == some g.val) = true by simpa using h1]; rfl
  · intro h h1 h2
    exact refuses_of rfl h (doGalReset_refused hg (by simp [h1, h2]))
  · intro r h
    exact resetGallery_unprovisioned h
  · intro r h hw
    exact resetGallery_provisioned h hw
  · intro h G a1 a2 a3
    refine ⟨fun s1 s2 s3 => ?_, fun hs => refuses_of rfl h (doRetrain_outOfService hg ⟨a1, a2, a3⟩ hs)⟩
    have hb := doRetrain_inService hg ⟨a1, a2, a3⟩ ⟨s1, s2, s3⟩
    refine ⟨fun k => ?_, fun k d ht hl => ?_, fun k d ht hl => ?_, fun k hn => ?_⟩
    · exact replies_of rfl h (hb.trans (if_pos k))
    · exact replies_of rfl h (hb.trans (by rw [if_neg (by omega), if_pos d, guardR_pos (by simpa using ht), guardR_pos (by simpa using hl)]; rfl))
    · exact replies_of rfl h (hb.trans (by rw [if_neg (by omega), if_neg (by omega), guardR_pos (by simpa using ht), guardR_pos (by simpa using hl)]; rfl))
    · refine refuses_of rfl h (hb.trans ?_)
      rw [if_neg (by omega)]
      split
      · rename_i d
        rw [if_pos d] at hn
        exact guardR_neg (by simpa using hn)
      · rename_i d
        rw [if_neg d] at hn
        exact guardR_neg (by simpa using hn)

end Sys2Proof.Machine
end

section
/-! Commands of the Cutter, of corrections and of safe images (R232 to R248, R263 to R275, R378, R379, R533). -/

open Sys2Proof

namespace Sys2Proof.Machine

theorem notStraight_pos {s : State} {k : Reply} (h : straightOnly s = false) : notStraight s k = k := guardR_pos (by simp [h])

theorem changeMode_same {m : CutMode} {s : State} (h : m = s.live.cutMode) : changeMode m s = s := by
  subst h; exact if_pos rfl

theorem changeMode_manual (s : State) : changeMode .manual s = modLive (fun v => { v with cutMode := .manual }) s := ite_self _

theorem changeMode_automatic {s : State} (h : s.live.cutMode ≠ .automatic) :
    changeMode .automatic s = startRun (modLive (fun v => { v with cutMode := .automatic }) s) := if_neg h

theorem changeMode_off {s : State} (h : s.live.cutMode ≠ .off) : changeMode .off s = modeOff (modLive (fun v => { v with cutMode := .off }) s) := if_neg h

/-- `cutter.mode_set` where placement may change and the firmware of the Cutter is served (R246). -/
theorem doModeSet_allowed {q : Req} {r : State} (hs : straightOnly r = false) (hg : gateOn r 17 = true) (ha : arg q 0 1 ≤ 2) :
    doModeSet q r = okay [] (changeMode (cutModeOf (arg q 0 1)) r) := by
  unfold doModeSet
  rw [guardR_pos (by simp [ha]), notStraight_pos hs, guardR_pos hg]

/-- `cutter.run` where placement may change and the Cutter is clocked (R233). -/
theorem doRun_allowed {q : Req} {r : State} (hs : straightOnly r = false) (hg : gateOn r 17 = true) :
    doRun q r = guardR (mayRun r) 0x0A r (okay [] (startRun r)) := by
  unfold doRun
  rw [notStraight_pos hs, guardR_pos hg]

/-- `cutter.region_set` of valid values, where placement may change (R232). -/
theorem doCutRegionSet_allowed {q : Req} {r : State} (hk : regionSetOk q = true) (hs : straightOnly r = false) :
    doCutRegionSet q r = okay [] (
      let u := modLive (fun v => { v with regions := mset {} v.regions (regionArg q 0) (regionSetOf q) }) r
      if r.live.cutMode = .automatic ∧ regionSetOf q ≠ mget {} r.live.regions (regionArg q 0) then startRun u else u) := by
  unfold doCutRegionSet
  dsimp only
  rw [guardR_pos hk, notStraight_pos hs]

/-- Settles O19. With its guards passed, `cutter.mode_set` is `changeMode`, which is taken by the mode asked for. -/
theorem cutterCommands : Obligations.CutterCommands := by
  unfold Obligations.CutterCommands
  intro t q s
  refine ⟨?_, ?_, ?_, ?_, ?_, ?_⟩
  · intro h r hs hg ha
    have hb := doModeSet_allowed hs hg ha
    refine ⟨fun hm => ?_, fun hm => ?_, fun hm hn => ?_, fun hm hn => ?_⟩
    · exact replies_of rfl h (hb.trans (by rw [changeMode_same hm]; rfl))
    · exact replies_of rfl h (hb.trans (by rw [hm, show cutModeOf 2 = .manual from rfl, changeMode_manual]; rfl))
    · exact replies_of rfl h (hb.trans (by rw [hm, show cutModeOf 1 = .automatic from rfl, changeMode_automatic hn]; rfl))
    · exact replies_of rfl h (hb.trans (by rw [hm, show cutModeOf 0 = .off from rfl, changeMode_off hn]; rfl))
  · intro h r hs hg
    have hb := doRun_allowed (q := q) hs hg
    exact ⟨fun hm => replies_of rfl h (hb.trans (guardR_pos hm)), fun hm => refuses_of rfl h (hb.trans (guardR_neg hm))⟩
  · intro h r put hk hs
    have hb := doCutRegionSet_allowed hk hs
    refine ⟨fun hm => replies_of rfl h (hb.trans (congrArg (okay []) (if_neg ?_))), fun hm hn => replies_of rfl h (hb.trans (congrArg (okay []) (if_pos ⟨hm, hn⟩)))⟩
    rintro ⟨h1, h2⟩
    exact hm.elim (fun e => e h1) h2
  · intro h h1 h2 h3 x
    exact replies_of rfl h (guardR_pos (show (decide (1 ≤ arg q 2 2) && decide (arg q 2 2 ≤ 27) && decide (arg q 0 2 % 4096 + arg q 2 2 ≤ 4096)) = true by
      simp [h1, h2, h3]))
  · intro h r n x groups
    exact replies_of rfl h rfl
  · intro h r c
    exact replies_of rfl h rfl

/-- What `correction.safe_alloc` answers for region `n` and an image of so many units, by the extent found for it (R272). -/
def safeAllocated (q : Req) (n units : Nat) (r : State) : Option Nat → Reply
  | none => fail 7 r
  | some b => okay (by16 b ++ by16 units) (r
      |> modDir n (fun d => { d with sBase := b, sUnits := units, sW := arg q 2 2, sH := arg q 4 2, sState := .allocated })
      |> raiseRegion 0x0501 (BitVec.ofNat 12 n) (by16 n ++ by8 1 ++ by8 0 ++ by16 b ++ by16 units))

theorem doSafeAlloc_allowed {q : Req} {r : State} {n units : Nat} (hq : regionArg q 0 = n) (hu : safeUnits (arg q 2 2) (arg q 4 2) = units)
    (h1 : arg q 2 2 ≠ 0) (h2 : arg q 4 2 ≠ 0) (hs : straightOnly r = false) (hl : r.corr.storeLost = false) (hr : r.cutter.running = none)
    (hn : (dirOf r n).sState = .none) : doSafeAlloc q r = safeAllocated q n units r (bestFit (heldMask r ||| newMask r) units) := by
  unfold doSafeAlloc
  dsimp only
  rw [hq, hu, guardR_pos (by simp [h1, h2]), notStraight_pos hs, guardR_pos (by simp [hl]), guardR_pos (by simp [hr]), guardR_pos (beq_iff_eq.2 hn)]
  unfold safeAllocated
  cases bestFit (heldMask r ||| newMask r) units <;> rfl

/-- Settles O20. Each command runs past its guards, which the hypotheses of its clause name in the command's order. -/
theorem correctionCommands : Obligations.CorrectionCommands := by
  unfold Obligations.CorrectionCommands
  intro t q s n
  refine ⟨?_, ?_, ?_, ?_, ?_, ?_, ?_⟩
  · intro h h1 hs
    exact replies_of rfl h ((guardR_pos (by simp [h1])).trans (notStraight_pos hs))
  · intro h d
    exact replies_of rfl h rfl
  · intro h r hs hl he hm hp hc
    refine waits_of rfl h ((notStraight_pos hs).trans ((guardR_pos (by simp only [r] at hl; simp [hl])).trans ((guardR_pos he).trans ((guardR_pos hm).trans
      (guardR_pos ?_)))))
    simp only [r, n] at hp hc
    simp [regionArg, hp, hc]
  · intro h r units h1 h2 hs hl hr hn
    have hb := doSafeAlloc_allowed (q := q) (n := n) (units := units) rfl rfl h1 h2 hs hl hr hn
    refine ⟨fun b e => ?_, fun e => ?_⟩
    · rw [e] at hb
      exact replies_of rfl h (show doSafeAlloc q _ = _ from hb)
    · rw [e] at hb
      exact refuses_of rfl h (show doSafeAlloc q _ = _ from hb)
  · intro h r hs hl hn
    exact waits_of rfl h ((notStraight_pos hs).trans ((guardR_pos (by simp only [r] at hl; simp [hl])).trans (guardR_pos (bne_iff_ne.2 hn))))
  · intro h hs hn
    exact replies_of rfl h ((notStraight_pos hs).trans (guardR_pos (bne_iff_ne.2 hn)))
  · intro h r
    exact replies_of rfl h rfl

end Sys2Proof.Machine
end

section
/-! `lease.commit`, and the commands of safety (R279, R280, R290 to R302, R357, R373, R380, R461). -/

open Sys2Proof

namespace Sys2Proof.Machine

/-! ## lease.commit (R357) -/

/-- The first staged change whose checks fail, with its place and status. -/
def firstFailing (r : State) (l : List Staged) : Option (Nat × Nat) :=
  ((List.range l.length).zip (l.map (recheck r))).find? fun e => e.2 ≠ 0

theorem firstFailing_none {r : State} {l : List Staged} (h : ∀ e ∈ l, recheck r e = 0) : firstFailing r l = none := by
  refine List.find?_eq_none.2 fun e he => ?_
  obtain ⟨x, hx, hr⟩ := List.mem_map.1 (List.of_mem_zip he).2
  simp [← hr, h x hx]

theorem firstFailing_some {r : State} {l : List Staged} {i : Nat} {e : Staged} (he : l[i]? = some e) (hf : recheck r e ≠ 0)
    (hp : ∀ j f, j < i → l[j]? = some f → recheck r f = 0) : firstFailing r l = some (i, recheck r e) := by
  obtain ⟨hi, hx⟩ := List.getElem?_eq_some_iff.1 he
  refine List.find?_eq_some_iff_getElem.2 ⟨by simpa using hf, i, by simpa using hi, by simp [hx], fun j hj => ?_⟩
  have hjl : j < l.length := by omega
  simp [hp j l[j] hj (List.getElem?_eq_getElem hjl)]

theorem doLeaseCommit_eq {q : Req} {r : State} {l : List Staged} (h : stagedOf q.token r = l) :
    doLeaseCommit q r = match firstFailing r l with
      | some (i, st) => .done st (by8 i ++ by8 st) r
      | none => okay (by8 l.length) (dropStaged q.token (forAll l applyStaged r)) := by
  subst h; rfl

/-- Settles O22. Every staged change is checked against the state before all of them; the first that fails is found by its place. -/
theorem leaseCommitIsAllOrNothing : Obligations.LeaseCommitIsAllOrNothing := by
  unfold Obligations.LeaseCommitIsAllOrNothing
  intro t q s h r l
  have hb := doLeaseCommit_eq (q := q) (r := r) (l := l) rfl
  refine ⟨fun ha => ?_, fun i e he hf hp => ?_⟩
  · rw [firstFailing_none ha] at hb
    exact replies_of (f := fun r => dropStaged q.token (forAll l applyStaged r)) rfl h (show doLeaseCommit q _ = _ from hb)
  · rw [firstFailing_some he hf hp] at hb
    exact answers_of rfl h (show doLeaseCommit q _ = _ from hb)

/-! ## Settings and orders of safety -/

theorem guardSetting_pos {q : Req} {s : State} {k : Reply} (hi : inSession q s = true) (hb : s.power.brownout = none) (hl : logFull s = false) :
    guardSetting q s k = k := by
  unfold guardSetting
  rw [guardR_pos hi, guardR_pos (by simp [hb]), guardR_pos (by simp [hl])]

theorem doGroupSet_allowed {q : Req} {r : State} {l : List Nat} (hn : regionsNamed q = some l) (hg : arg q 0 1 < 16) (hi : inSession q r = true)
    (hb : r.power.brownout = none) (hl : logFull r = false)
    (hr : ∀ n ∈ l, (groupOf r n).val = arg q 0 1 ∨ mget? r.safety.grpLock (groupOf r n).val = none) :
    doGroupSet q r =
      let u := modSafety (fun f => { f with record := { f.record with groupOf := l.foldl (fun m n => mset 0 m n (arg q 0 1)) f.record.groupOf } }) r
      okay [] (logSetting (targetGroup (arg q 0 1)) q (mapValue r) (mapValue u) u) := by
  unfold doGroupSet
  rw [hn]
  dsimp only
  rw [guardR_pos (by simp [hg]), guardSetting_pos hi hb hl, guardR_pos (by simpa using hr)]

/-- A `safety.order` whose arguments hold is carried out and logged where its guards pass (R290). -/
theorem doOrder_allowed {q : Req} {r : State} (ha : orderArgs q = true) (h1 : arg q 0 1 = 1 → r.safety.record.pwHash.isSome = true)
    (h2 : arg q 0 1 = 2 → (arg q 1 1 ≠ 2 ∨ faultPersists r = false) ∧ logFull r = false) : doOrder q r = okay [] (runOrder q r) := by
  unfold doOrder
  dsimp only
  rw [guardR_pos ha, guardR_pos, guardR_pos, guardR_pos]
  · by_cases e : arg q 0 1 = 2
    · simp [h2 e]
    · simp [e]
  · by_cases e : arg q 0 1 = 2
    · simpa [e] using (h2 e).1
    · simp [e]
  · by_cases e : arg q 0 1 = 1
    · simp [h1 e]
    · simp [e]

theorem doOrder_denied {q : Req} {r : State} (ha : orderArgs q = true) (h1 : arg q 0 1 = 1) (h2 : r.safety.record.pwHash = none) :
    doOrder q r = fail 6 r := by
  unfold doOrder
  dsimp only
  rw [guardR_pos ha, guardR_neg (by simp [h1, h2])]

theorem doOrder_faultPersists {q : Req} {r : State} (ha : orderArgs q = true) (h1 : arg q 0 1 = 2) (h2 : arg q 1 1 = 2) (h3 : faultPersists r = true) :
    doOrder q r = fail 0x0A r := by
  unfold doOrder
  dsimp only
  rw [guardR_pos ha, guardR_pos (by simp [h1]), guardR_neg (by simp [h1, h2, h3])]

/-- Settles O23. The guards of a setting hold by the session, the supply and the log; an order runs by its action. -/
theorem safetySettingCommands : Obligations.SafetySettingCommands := by
  unfold Obligations.SafetySettingCommands
  intro t q s free
  refine ⟨?_, ?_, ?_, ?_, ?_⟩
  · intro h r l hn hg hf hr
    obtain ⟨hi, hb, hl⟩ := hf
    exact replies_of rfl h (show doGroupSet q _ = _ from doGroupSet_allowed hn hg hi hb hl hr)
  · intro h ha hf
    obtain ⟨hi, hb, hl⟩ := hf
    refine ⟨fun hg => ?_, fun hg => ?_⟩
    · exact replies_of rfl h ((guardR_pos ha).trans ((guardSetting_pos hi hb hl).trans (dif_pos hg)))
    · exact replies_of rfl h ((guardR_pos ha).trans ((guardSetting_pos hi hb hl).trans (dif_neg (by omega))))
  · intro h
    exact replies_of rfl h rfl
  · intro h hn
    exact replies_of rfl h (guardR_pos (by simp [hn]))
  · intro h ha r scope n done
    refine ⟨fun h0 => ?_, fun h1 hp => ?_, fun h1 hp => ?_, fun h2 hs hl => ?_, fun h2 hs hp => ?_⟩
    · refine replies_of rfl h ((doOrder_allowed ha (by omega) (by omega)).trans ?_)
      unfold runOrder; rw [h0]; rfl
    · refine replies_of rfl h ((doOrder_allowed ha (fun _ => hp) (by omega)).trans ?_)
      unfold runOrder; rw [h1]; rfl
    · exact refuses_of rfl h (doOrder_denied ha h1 hp)
    · refine replies_of rfl h ((doOrder_allowed ha (by omega) (fun _ => ⟨hs, hl⟩)).trans ?_)
      unfold runOrder; rw [h2]; rfl
    · exact refuses_of rfl h (doOrder_faultPersists ha h2 hs hp)

/-! ## Passwords and reports of safety -/

theorem getD_slice (bs : List Byte) (off : Nat) {n k : Nat} (hk : k < n) : (slice bs off n).getD k 0 = bs.getD (off + k) 0 := by
  simp [slice, hk]

/-- A slice of a slice that lies within it. -/
theorem slice_slice (bs : List Byte) (off : Nat) {n a m : Nat} (h : a + m ≤ n) : slice (slice bs off n) a m = slice bs (off + a) m := by
  refine List.map_congr_left fun k hk => ?_
  have := List.mem_range.1 hk
  rw [getD_slice bs off (by omega), Nat.add_assoc]

theorem arg_one (q : Req) (off : Nat) : arg q off 1 = byteAt q.payload off := by
  simp [arg, field, slice, leNat, byteAt]

/-- The password of a block in a payload, where its length byte lies in its range (R373). -/
theorem passwordIn_block {q : Req} {off : Nat} (h1 : 8 ≤ arg q off 1) (h2 : arg q off 1 ≤ 32) :
    passwordIn (slice q.payload off 36) = some (slice q.payload (off + 1) (arg q off 1)) := by
  have hn : byteAt (slice q.payload off 36) 0 = arg q off 1 := by
    rw [arg_one, byteAt, getD_slice _ _ (by decide)]; rfl
  unfold passwordIn
  simp only [hn]
  rw [if_pos ⟨h1, h2⟩, slice_slice _ _ (by omega)]

/-- The check of a password starts where one is set, none runs and the block is well formed. -/
theorem checkPassword_starts {q : Req} {r : State} (h1 : 8 ≤ arg q 0 1) (h2 : arg q 0 1 ≤ 32) (hp : r.safety.record.pwHash.isSome = true)
    (hc : r.safety.checking = none) :
    checkPassword (slice q.payload 0 36) q r = .wait 200000000 (modSafety (fun f => { f with checking := some (hostIx q.host).val }) r) := by
  unfold checkPassword
  rw [passwordIn_block h1 h2, guardR_pos Option.isSome_some, guardR_pos hp, guardR_pos (by simp [hc])]

theorem checkPassword_denied {q : Req} {r : State} (h1 : 8 ≤ arg q 0 1) (h2 : arg q 0 1 ≤ 32) (hp : r.safety.record.pwHash = none) :
    checkPassword (slice q.payload 0 36) q r = fail 6 r := by
  unfold checkPassword
  rw [passwordIn_block h1 h2, guardR_pos Option.isSome_some, guardR_neg (by simp [hp])]

theorem doPasswordSet_allowed {q : Req} {r : State} (hb : r.power.brownout = none) (hl : logFull r = false) (h1 : 8 ≤ arg q 36 1) (h2 : arg q 36 1 ≤ 32) :
    doPasswordSet q r = if r.safety.record.pwHash.isNone then okay [] (setPassword (slice q.payload 37 (arg q 36 1)) q r)
      else checkPassword (slice q.payload 0 36) q r := by
  unfold doPasswordSet
  rw [passwordIn_block h1 h2]
  dsimp only
  rw [guardR_pos (by simp [hb]), guardR_pos (by simp [hl])]

theorem doSafetyRelease_formed {q : Req} {r : State} (h1 : 8 ≤ arg q 0 1) (h2 : arg q 0 1 ≤ 32) (hs : arg q 36 1 ≤ 2)
    (hg : arg q 36 1 = 0 → arg q 37 1 < 16) :
    doSafetyRelease q r = guardR r.safety.record.pwHash.isSome 6 r (guardR (lockIn r (arg q 36 1) (arg q 37 1)) 0x0A r (guardR (!logFull r) 7 r
      (checkPassword (slice q.payload 0 36) q r))) := by
  unfold doSafetyRelease
  dsimp only
  refine guardR_pos ?_
  rw [passwordIn_block h1 h2]
  by_cases e : arg q 36 1 = 0
  · simp [e, hg e]
  · simp [e, hs]

/-- Settles O24. The block of a password lies in the payload as its length byte says; the check then starts or is denied by what is set. -/
theorem passwordAndReportCommandsOfSafety : Obligations.PasswordAndReportCommandsOfSafety := by
  unfold Obligations.PasswordAndReportCommandsOfSafety
  constructor
  · intro t q s start may
    refine ⟨?_, ?_, ?_, ?_⟩
    · rintro h ⟨hp, hc, h1, h2⟩
      exact waits_of rfl h (show doUnlock q _ = _ from checkPassword_starts h1 h2 hp hc)
    · intro h hp h1 h2
      exact refuses_of rfl h (show doUnlock q _ = _ from checkPassword_denied h1 h2 hp)
    · intro h r hb hl k1 k2
      have hd := doPasswordSet_allowed hb hl k1 k2
      refine ⟨?_, fun hp => ?_⟩
      · rintro ⟨hp, hc, h1, h2⟩
        rw [if_neg (by simpa using Option.isSome_iff_ne_none.1 hp), checkPassword_starts h1 h2 hp hc] at hd
        exact waits_of rfl h (show doPasswordSet q _ = _ from hd)
      · rw [if_pos (by simp [hp])] at hd
        exact replies_of rfl h (show doPasswordSet q _ = _ from hd)
    · intro h r h1 h2 hs hg
      have hd := doSafetyRelease_formed (r := r) h1 h2 hs hg
      refine ⟨?_, fun hp => ?_⟩
      · rintro ⟨hp, hc, -, -⟩ hk hl
        rw [guardR_pos hp, guardR_pos hk, guardR_pos (by simp [hl]), checkPassword_starts h1 h2 hp hc] at hd
        exact waits_of rfl h (show doSafetyRelease q _ = _ from hd)
      · rw [guardR_neg (by simp [hp])] at hd
        exact refuses_of rfl h (show doSafetyRelease q _ = _ from hd)
  · intro t q s
    refine ⟨?_, ?_⟩
    · intro h r safe l
      exact replies_of rfl h rfl
    · intro h h1 h2 f l
      exact replies_of rfl h (guardR_pos (by simp [h1, h2]))

end Sys2Proof.Machine
end

section
/-! Commands of the bridge, of events and of the two-wire ports (R307 to R328, R335, R351, R381, R382, R416 to R425). -/

open Sys2Proof

namespace Sys2Proof.Machine

theorem doWindowSet_window {q : Req} {r : State} (h : arg q 0 1 < 16) :
    doWindowSet q r = guardR (windowOk (windowOf q) && (2 ≤ arg q 0 1 || noFilter (windowOf q) == noFilter r.live.windows[arg q 0 1])) 3 r
      (okay [] (modLive (fun v => { v with windows := v.windows.set (arg q 0 1) (windowOf q) h }) r)) := dif_pos h

theorem doSinkSet_sink {q : Req} {r : State} (h : arg q 0 1 < 4) :
    doSinkSet q r = guardR (arg q 1 1 ≤ 1 && arg q 2 1 ≤ 4 && arg q 4 2 != 0 && arg q 4 2 != 0xFFFF) 3 r
      (okay [] (modLive (fun v =>
        { v with sinks := v.sinks.set (arg q 0 1) { enable := arg q 1 1 == 1, minSev := arg q 2 1, node := BitVec.ofNat 16 (arg q 4 2) } h }) r)) := dif_pos h

/-- Settles O25. Each command runs past the check of its values; windows and sinks are taken by the bound of their number. -/
theorem bridgeSettingCommands : Obligations.BridgeSettingCommands := by
  unfold Obligations.BridgeSettingCommands
  intro t q s
  refine ⟨?_, ?_, ?_, ?_, ?_, ?_, ?_, ?_⟩
  · intro h hn
    exact replies_of rfl h (guardR_pos (bne_iff_ne.2 hn))
  · intro h hn ho
    exact replies_of rfl h (guardR_pos (by simp [hn, ho]))
  · intro hn h hw hf
    exact replies_of rfl h (show doWindowSet q _ = _ from (doWindowSet_window hn).trans (guardR_pos (by simpa [hw] using hf)))
  · intro hn h h1 h2 h3 h4
    exact replies_of rfl h (show doSinkSet q _ = _ from (doSinkSet_sink hn).trans (guardR_pos (by simp [h1, h2, h3, h4])))
  · intro h hn
    exact replies_of rfl h (guardR_pos (by simp [hn]))
  · intro h h1 h2 h3 h4 put
    have hb : ∀ r, doTwConfig q r = okay [] (doIf (put r).portL.lock.isNone (modPortL fun p => { p with filter := arg q 3 1 }) (put r)) :=
      fun r => guardR_pos (by simp [h1, h2, h3, h4])
    refine ⟨fun hl => replies_of rfl h (show doTwConfig q _ = _ from (hb _).trans ?_), fun hl => replies_of rfl h (show doTwConfig q _ = _ from (hb _).trans ?_)⟩
    · rw [show (put (ready cmdTwConfig t q s)).portL.lock.isNone = false by simp [put, Option.isSome_iff_ne_none, hl]]; rfl
    · rw [show (put (ready cmdTwConfig t q s)).portL.lock.isNone = true by simp [put, hl]]; rfl
  · intro h h1 h2 h3
    exact replies_of rfl h (guardR_pos (by simp [h1, h2, h3]))
  · intro h r
    refine ⟨fun hg hl => ?_, fun hg => ?_, fun hg hl => ?_⟩
    · exact replies_of rfl h ((guardR_pos hg).trans (guardR_pos (Option.isNone_iff_eq_none.2 hl)))
    · exact refuses_of rfl h (guardR_neg hg)
    · exact refuses_of rfl h ((guardR_pos hg).trans (guardR_neg (by simpa [Option.isSome_iff_ne_none] using hl)))

/-- `bridge.remote` with valid values sends its request, with the limit it names in force (R325). -/
theorem doRemote_allowed {q : Req} {r : State} (ha : remoteArgs q = true) (hg : gateOn r 22 = true) (hr : r.bridge.remote = none) :
    doRemote q r =
      let u := if arg q 4 4 = 0 then r else modLive (fun v => { v with remoteTimeout := arg q 4 4 }) r
      let x := sendOwn (remoteParcel q u) u
      if !x.2 then okay (remotePayload 9 []) x.1
      else if bitOf (arg q 3 1) 0 then okay (remotePayload 0 []) x.1
      else .wait (u.live.remoteTimeout * 100000) (modBridge (fun b =>
        { b with remote := some { tag := b.remoteTag, ring := (hostIx q.host).val, read := arg q 2 1 == 1, count := arg q 14 2, got := [] },
                 remoteTag := (b.remoteTag + 1) % 64 }) x.1) := by
  unfold doRemote
  rw [guardR_pos ha, guardR_pos hg, guardR_pos (by simp [hr])]

/-- Settles O26. The reports are read off the state; a remote access ends by whether its request could be sent and is posted, a sync by the posted writes that are out. -/
theorem bridgeReportCommands : Obligations.BridgeReportCommands := by
  unfold Obligations.BridgeReportCommands
  intro t q s
  refine ⟨?_, ?_, ?_, ?_, ?_, ?_⟩
  · intro h h1 h2 h3 r
    exact replies_of rfl h (guardR_pos (by simp [h1, h2, h3]))
  · intro h
    exact replies_of rfl h rfl
  · intro h l
    exact replies_of rfl h rfl
  · intro h l
    exact replies_of rfl h rfl
  · intro h r ha hg hr limit x
    have hb := doRemote_allowed ha hg hr
    dsimp only at hb
    refine ⟨fun hx => ?_, fun hx hp => ?_, fun hx hp => ?_⟩
    · exact replies_of rfl h (show doRemote q _ = _ from hb.trans (if_pos (by simpa using hx)))
    · exact replies_of rfl h (show doRemote q _ = _ from hb.trans ((if_neg (by simpa using hx)).trans (if_pos hp)))
    · exact waits_of rfl h (show doRemote q _ = _ from hb.trans ((if_neg (by simpa using hx)).trans (if_neg (by simpa using hp))))
  · intro h r
    refine ⟨fun hw => ?_, fun hw => ?_⟩
    · exact replies_of rfl h (show doSync q _ = _ from if_neg (by simpa using hw))
    · exact waits_of rfl h (show doSync q _ = _ from if_pos hw)

end Sys2Proof.Machine
end

section
/-! Commands of power, clocks and diagnostics, and of sensors, the log and updates (R374, R383 to R387, R447, R461). -/

open Sys2Proof

namespace Sys2Proof.Machine

theorem doRefSelect_side {q : Req} {r : State} (h : arg q 0 1 < 2) :
    doRefSelect q r = guardR (refAllowed r (arg q 1 1) && (arg q 2 1 == 0xFF || refAllowed r (arg q 2 1)) && arg q 2 1 != arg q 1 1) 3 r
      (okay [] (modLive (fun v => { v with
        refPrimary := v.refPrimary.set (arg q 0 1) (refOf (arg q 1 1)) h,
        refBackup := v.refBackup.set (arg q 0 1) (if arg q 2 1 = 0xFF then none else some (refOf (arg q 2 1))) h }) r)) := dif_pos h

theorem doRefoutSet_output {q : Req} {r : State} (h : arg q 0 1 < 2) :
    doRefoutSet q r = guardR (arg q 1 1 ≤ 1 && arg q 2 1 ≤ 8 && 25 ≤ arg q 3 1 && arg q 3 1 ≤ 65) 3 r
      (okay [] (driveRefout (modLive (fun v => { v with
        refoutOn := v.refoutOn.set (arg q 0 1) (arg q 1 1 == 1) h,
        refoutDepth := v.refoutDepth.set (arg q 0 1) (BitVec.ofNat 4 (arg q 2 1)) h,
        refoutRate := v.refoutRate.set (arg q 0 1) (BitVec.ofNat 8 (arg q 3 1)) h }) r))) := dif_pos h

theorem onLanes_named {q : Req} {r : State} {g : GalIx} {ls : List LaneIx} (hg : arg q 0 1 = g.val) (hl : lanesNamed q = some ls)
    (k : GalIx → List LaneIx → Reply) : onLanes q r k = k g ls := by
  unfold onLanes
  rw [onGal_pos hg, hl]

/-- The loops of some lanes of a gallery, as `diag.loop_set` sets them. -/
def setLoops (g : GalIx) (ls : List LaneIx) (n : Nat) (s : State) : State := forAll ls (fun l => modLane g l fun L => { L with loop := n }) s

theorem doLoopSet_named {q : Req} {r : State} {g : GalIx} {ls : List LaneIx} (hg : arg q 0 1 = g.val) (hl : lanesNamed q = some ls) (ha : arg q 2 1 ≤ 3) :
    doLoopSet q r = guardR ((galAt r g).lost.isSome || (bitOf (arg q 3 1) 0 && galActive r g)) 0x0A r
      (okay [] (setLoops g ls (arg q 2 1) (doIf (galAt r g).lost.isNone (takeGallery g) r))) :=
  (onLanes_named hg hl _).trans (guardR_pos (by simp [ha]))

theorem doPrbsSet_named {q : Req} {r : State} {g : GalIx} {ls : List LaneIx} (hg : arg q 0 1 = g.val) (hl : lanesNamed q = some ls) (ht : arg q 4 1 < 6)
    (hp : arg q 3 1 ≤ 7) (hs : suits (arg q 3 1) (arg q 4 1) = true) :
    doPrbsSet q r = guardR (galAt r g).lost.isSome 0x0A r (okay [] (sendPatterns g ⟨arg q 4 1, ht⟩ (forAll ls (setPattern q g) r))) :=
  (onLanes_named hg hl _).trans ((dif_pos ht).trans (guardR_pos (by simp [hp, hs])))

/-- `diag.eye_scan` of a lane, for an eye that its gallery's tread has (R386). -/
theorem doEyeScan_lane {q : Req} {r : State} {g : GalIx} {l : LaneIx} (hg : arg q 0 1 = g.val) (hl : arg q 1 1 = l.val)
    (he : arg q 2 1 = 0 ∨ 4 ≤ ((galAt r g).rx.tread.getD 0).val ∧ arg q 2 1 ≤ 2) (hh : arg q 3 1 ≤ 1) :
    doEyeScan q r = guardR (laneLocked (laneAt r g l)) 0x0A r (match mget? (laneAt r g l).eyes (arg q 2 1) with
      | some e => okay (by8 (phaseRun e).2 ++ by8 (voltRun e).2 ++ by8 (midpoint r.free (phaseRun e)) ++ by8 (midpoint (r.free + 1) (voltRun e)) ++
          by32 (min ((r.now - e.at_) / 1000000) (2 ^ 32 - 1)) ++
          (List.range 32).flatMap fun k => leBytes 16 (e.points.getD (32 * arg q 3 1 + k) 0#128).toNat) { r with free := r.free + 2 }
      | none => fail 0x0A r) := by
  have hlt : arg q 1 1 < 8 := by omega
  have hx : (⟨arg q 1 1, hlt⟩ : LaneIx) = l := Fin.ext hl
  unfold doEyeScan
  rw [onGal_pos hg, dif_pos hlt]
  simp only [hx]
  exact guardR_pos (by simpa [hh] using he)

/-- Settles O27. Each command is run on the side, the output, the lanes or the eye that its bytes name. -/
theorem powerAndDiagnosticCommands : Obligations.PowerAndDiagnosticCommands := by
  unfold Obligations.PowerAndDiagnosticCommands
  constructor
  · intro t q s
    refine ⟨?_, ?_, ?_⟩
    · intro h ha
      exact ⟨fun hm => waits_of rfl h ((guardR_pos (by simpa using ha)).trans (guardR_pos hm)),
        fun hm => refuses_of rfl h ((guardR_pos (by simpa using ha)).trans (guardR_neg hm))⟩
    · intro hs h hp hb hn
      exact replies_of rfl h (show doRefSelect q _ = _ from (doRefSelect_side hs).trans (guardR_pos (by
        simp only [hp, Bool.true_and, Bool.and_eq_true, Bool.or_eq_true, beq_iff_eq, bne_iff_ne]
        exact ⟨hb.symm, Ne.symm hn⟩)))
    · intro hs h h1 h2 h3 h4
      exact replies_of rfl h (show doRefoutSet q _ = _ from (doRefoutSet_output hs).trans (guardR_pos (by simp [h1, h2, h3, h4])))
  · intro t q s g ls hg hl
    refine ⟨?_, ?_, ?_, ?_⟩
    · intro h ha r put
      have hb := doLoopSet_named (r := r) hg hl ha
      refine ⟨fun hx => ?_, fun hx ht hc => ?_, fun hx ht => ?_⟩
      · refine replies_of rfl h (show doLoopSet q r = _ from hb.trans ((guardR_pos (by simp [hx])).trans ?_))
        rw [show (galAt r g).lost.isNone = false by simpa [Option.isSome_iff_ne_none] using hx]; rfl
      · refine replies_of rfl h (show doLoopSet q r = _ from hb.trans ((guardR_pos (by simp [ht, hc])).trans ?_))
        rw [show (galAt r g).lost.isNone = true by simp [hx]]; rfl
      · refine refuses_of rfl h (show doLoopSet q r = _ from hb.trans (guardR_neg ?_))
        rcases ht with e | e <;> simp [hx, e]
    · intro ht h hp hs r
      have hb := doPrbsSet_named (r := r) hg hl ht hp hs
      exact ⟨fun hx => replies_of rfl h (show doPrbsSet q r = _ from hb.trans (guardR_pos hx)),
        fun hx => refuses_of rfl h (show doPrbsSet q r = _ from hb.trans (guardR_neg (by simp [hx])))⟩
    · intro h
      exact replies_of rfl h (show doPrbsGet q _ = _ from onGal_pos hg)
    · intro l h r L h1 h2 h3
      have hb := doEyeScan_lane (r := r) hg h1 h2 h3
      refine ⟨fun hk e he => ?_, fun hk => ?_⟩
      · rw [guardR_pos hk, he] at hb
        exact replies_of rfl h (show doEyeScan q r = _ from hb)
      · refine refuses_of rfl h (show doEyeScan q r = _ from hb.trans ?_)
        rcases hk with e | e
        · exact guardR_neg e
        · rw [e]; exact ite_self _

end Sys2Proof.Machine
end

section
/-! Commands of sensors, the log and updates, and of security, debug and snapshots (R374, R384 to R388, R461, R478, R495 to R500). -/

open Sys2Proof

namespace Sys2Proof.Machine

/-! ## Sensors, the log and updates -/

/-- Whether the log's stream belongs to another holder than the caller. -/
def streamTaken (q : Req) (r : State) : Bool :=
  match r.log.stream with
  | some h => holderOf h.host h.src != holderOf q.host q.src
  | none => false

theorem streamTaken_false {q : Req} {r : State} (h : r.log.stream = none ∨ ∃ h, r.log.stream = some h ∧ holderOf h.host h.src = holderOf q.host q.src) :
    streamTaken q r = false := by
  unfold streamTaken
  rcases h with e | ⟨h, e, hw⟩
  · rw [e]
  · rw [e]; simp [hw]

theorem streamTaken_true {q : Req} {r : State} {h : StreamHold} (e : r.log.stream = some h) (hw : holderOf h.host h.src ≠ holderOf q.host q.src) :
    streamTaken q r = true := by
  unfold streamTaken
  rw [e]; simp [hw]

/-- `log.stream` with a valid action: BUSY while another holder has the stream, else the action is carried out (R387). -/
theorem doLogStream_valid {q : Req} {r : State} (ha : arg q 0 1 = 0 ∨ arg q 0 1 = 1 ∧ arg q 1 1 ≤ 4 ∨ arg q 0 1 = 2) :
    doLogStream q r = guardR (!streamTaken q r) 1 r (
      if arg q 0 1 = 0 then okay [] (endStream r)
      else if arg q 0 1 = 1 then
        okay [] (modLog (fun f => { f with stream := some { host := q.host, src := q.src, minSev := arg q 1 1, lastRead := r.now } }) (endStream r))
      else okay (by8 (r.log.ring12.take 31).length ++ List.replicate 3 0#8 ++ (r.log.ring12.take 31).flatMap logBytes)
        (modLog (fun f => { f with ring12 := f.ring12.drop 31, stream := f.stream.map fun h => { h with lastRead := r.now } }) r)) := by
  unfold doLogStream
  refine guardR_pos ?_
  rcases ha with e | ⟨e, e'⟩ | e
  · simp [e]
  · simp [e, e']
  · simp [e]

theorem doUpdBegin_valid {q : Req} {r : State} (h1 : arg q 0 4 % 4 = 0) (h2 : arg q 0 4 ≤ 1572864) :
    doUpdBegin q r = okay (by8 (updateTarget r)) (
      let u := modUpd (fun _ => { state := .receiving, target := updateTarget r, length := arg q 0 4 }) r
      if r.power.brownout.isSome then modUpd (fun u => { u with eraseDue := true }) u else eraseSlot u) := by
  unfold doUpdBegin
  dsimp only
  rw [guardR_pos (by simp [h1]), guardR_pos (by simp [h2])]
  rfl

theorem doUpdChunk_valid {q : Req} {r : State} (h1 : arg q 0 4 % 4 = 0) (h2 : r.upd.state = .receiving ∨ r.upd.state = .verified)
    (h3 : committing r = false) (h4 : arg q 0 4 + (q.payload.drop 4).length ≤ r.upd.length) :
    doUpdChunk q r = guardR (r.power.brownout.isNone || r.upd.chunks.length < 4) 1 r (okay [] (
      let u := modUpd (fun u => { u with state := .receiving }) r
      if r.power.brownout.isSome then modUpd (fun u => { u with chunks := u.chunks ++ [(arg q 0 4, q.payload.drop 4)] }) u
      else putChunk (arg q 0 4) (q.payload.drop 4) u)) := by
  unfold doUpdChunk
  dsimp only
  rw [guardR_pos (by simp [h1]), guardR_pos (by rw [h3]; simpa using h2), guardR_pos (by simpa using h4)]
  rfl

theorem doUpdVerify_whole {q : Req} {r : State} (h1 : r.upd.state = .receiving ∨ r.upd.state = .verified) (h2 : committing r = false)
    (h3 : r.upd.bytes.length = r.upd.length) (h4 : r.upd.chunks = []) : doUpdVerify q r = .wait 1000000000 r := by
  have hw : wholeImage r.upd = true := by
    unfold wholeImage
    rw [h3, h4]
    simp
  refine guardR_pos ?_
  rw [h2, hw]
  simpa using h1

/-- Settles O28. The reports are read off the state; a stream command is taken by whose the stream is, an update command by the supply. -/
theorem sensorLogAndUpdateCommands : Obligations.SensorLogAndUpdateCommands := by
  unfold Obligations.SensorLogAndUpdateCommands
  constructor
  · intro t q s
    refine ⟨?_, ?_, ?_⟩
    · intro h d
      exact replies_of rfl h rfl
    · intro h h1 h2 f l
      exact replies_of rfl h (guardR_pos (by simp [h1, h2]))
    · intro h r
      refine ⟨fun ho => ⟨fun ha => ?_, fun ha hm => ?_, fun ha => ?_⟩, fun o he hw ha => ?_⟩
      · refine replies_by (b := doLogStream) rfl rfl h ((doLogStream_valid (.inl ha)).trans ((guardR_pos ?_).trans (if_pos ha)))
        rw [streamTaken_false ho]; rfl
      · refine replies_by (b := doLogStream) rfl rfl h ((doLogStream_valid (.inr (.inl ⟨ha, hm⟩))).trans ((guardR_pos ?_).trans
          ((if_neg (by omega)).trans (if_pos ha))))
        rw [streamTaken_false ho]; rfl
      · refine replies_by (b := doLogStream) rfl rfl h ((doLogStream_valid (.inr (.inr ha))).trans ((guardR_pos ?_).trans
          ((if_neg (by omega)).trans (if_neg (by omega)))))
        rw [streamTaken_false ho]; rfl
      · refine refuses_by (b := doLogStream) rfl rfl h ((doLogStream_valid ha).trans (guardR_neg ?_))
        rw [streamTaken_true he hw]; rfl
  · intro t q s
    refine ⟨?_, ?_, ?_, ?_, ?_, ?_⟩
    · intro h h1 h2 r put
      have hb := doUpdBegin_valid (r := r) h1 h2
      refine ⟨fun hx => ?_, fun hx => ?_⟩
      · rw [if_neg (by simp [hx])] at hb
        exact replies_by (b := doUpdBegin) rfl rfl h hb
      · rw [if_pos hx] at hb
        exact replies_by (b := doUpdBegin) rfl rfl h hb
    · intro h r h1 h2 h3 h4 put
      have hb := doUpdChunk_valid h1 h2 h3 h4
      refine ⟨fun hx => ?_, fun hx hl => ?_, fun hx hl => ?_⟩
      · rw [guardR_pos (by simp [hx]), if_neg (by simp [hx])] at hb
        exact replies_by (b := doUpdChunk) rfl rfl h hb
      · rw [guardR_pos (by simp [hl]), if_pos hx] at hb
        exact replies_by (b := doUpdChunk) rfl rfl h hb
      · rw [guardR_neg (by rw [Option.isNone_eq_false_iff.2 hx]; simp [hl])] at hb
        exact refuses_by (b := doUpdChunk) rfl rfl h hb
    · intro h r h1 h2 h3 h4
      exact waits_by (b := doUpdVerify) rfl rfl h (doUpdVerify_whole h1 h2 h3 h4)
    · intro h r h1 h2 h3
      refine waits_by (f := modFwSlot r.upd.target fun x => { x with state := .committing }) (b := doUpdCommit) rfl rfl h ((guardR_pos ?_).trans (guardR_pos ?_))
      · rw [h1, h2]; rfl
      · rw [h3]; rfl
    · intro h r n h1
      refine ⟨r.now + Config.restartDelay r.free % 1000001, by omega, by omega, ?_⟩
      exact replies_by (b := doUpdActivate) rfl rfl h (guardR_pos (by rw [h1]; rfl))
    · intro h r level
      exact replies_of rfl h rfl

/-! ## Security, debug and snapshots -/

theorem useToken_good {n : BitVec 256} {level key : Nat} {sig : List Byte} {r : State} (h : tokenOk r n level key sig = true) :
    useToken n level key sig r =
      (true, raise 0x0D01 (by8 level ++ by8 key) (setLevel level true (modDbg (fun d => { d with nonce := none, last := 1 }) r))) := by
  simp [useToken, h]

theorem useToken_bad {n : BitVec 256} {level key : Nat} {sig : List Byte} {r : State} (h : tokenOk r n level key sig = false) :
    useToken n level key sig r = (false, countDev 0xB02 0 (modDbg (fun d => { d with nonce := none, last := 2 }) r)) := by
  simp [useToken, h]

theorem doDebugOpen_valid {q : Req} {r : State} (h1 : arg q 0 1 = 1 ∨ arg q 0 1 = 2) (h2 : arg q 1 1 ≤ 1) :
    doDebugOpen q r = if lifecycle r.otp = 0 then okay (by8 2) r else match r.dbg.nonce with
      | none => fail 0x0A r
      | some n =>
        let x := useToken n (arg q 0 1) (arg q 1 1) (slice q.payload 4 96) r
        if x.1 then okay (by8 x.2.dbg.level) x.2 else fail 6 x.2 :=
  guardR_pos (by simpa [h2] using h1)

theorem doDebugOpen_good {q : Req} {r v : State} {n : BitVec 256} (h1 : arg q 0 1 = 1 ∨ arg q 0 1 = 2) (h2 : arg q 1 1 ≤ 1) (h3 : lifecycle r.otp ≠ 0)
    (h4 : r.dbg.nonce = some n) (hk : tokenOk r n (arg q 0 1) (arg q 1 1) (slice q.payload 4 96) = true)
    (hv : raise 0x0D01 (by8 (arg q 0 1) ++ by8 (arg q 1 1)) (setLevel (arg q 0 1) true (modDbg (fun d => { d with nonce := none, last := 1 }) r)) = v) :
    doDebugOpen q r = okay (by8 v.dbg.level) v := by
  rw [doDebugOpen_valid h1 h2, if_neg h3, h4]
  dsimp only
  rw [useToken_good hk, hv, if_pos rfl]

theorem doDebugOpen_bad {q : Req} {r : State} {n : BitVec 256} (h1 : arg q 0 1 = 1 ∨ arg q 0 1 = 2) (h2 : arg q 1 1 ≤ 1) (h3 : lifecycle r.otp ≠ 0)
    (h4 : r.dbg.nonce = some n) (hk : tokenOk r n (arg q 0 1) (arg q 1 1) (slice q.payload 4 96) = false) :
    doDebugOpen q r = fail 6 (countDev 0xB02 0 (modDbg (fun d => { d with nonce := none, last := 2 }) r)) := by
  rw [doDebugOpen_valid h1 h2, if_neg h3, h4]
  dsimp only
  rw [useToken_bad hk]
  exact if_neg Bool.false_ne_true

theorem doLifecycle_secure {q : Req} {r : State} (h1 : arg q 52 4 = r.otp.serial.toNat % 2 ^ 32) (h2 : r.power.brownout = none) (h3 : arg q 0 1 = 1)
    (h4 : lifecycle r.otp = 0) : doLifecycle q r = okay [] (secure (slice q.payload 4 48) r) := by
  unfold doLifecycle
  dsimp only
  rw [guardR_pos (by simp [h1, h3]), guardR_pos (by simp [h3, h4]), guardR_pos (by simp [h2]), if_pos h3]

theorem doLifecycle_retire {q : Req} {r : State} (h1 : arg q 52 4 = r.otp.serial.toNat % 2 ^ 32) (h2 : r.power.brownout = none) (h3 : arg q 0 1 = 2)
    (h4 : beNat (slice q.payload 4 48) = 0) (h5 : lifecycle r.otp ≠ 2) : doLifecycle q r = okay [] (retire r) := by
  unfold doLifecycle
  dsimp only
  rw [guardR_pos (by simp [h1, h3, h4]), guardR_pos (by simp [h3, h5]), guardR_pos (by simp [h2]), if_neg (by omega)]

/-- Settles O29. `debug.open` is taken by the lifecycle, the nonce and the token; the others run past their guards. -/
theorem securityCommands : Obligations.SecurityCommands := by
  unfold Obligations.SecurityCommands
  intro t q s
  refine ⟨?_, ?_, ?_, ?_, ?_, ?_, ?_⟩
  · intro h r
    exact replies_of rfl h rfl
  · intro h h1 h2 r
    have hb := doDebugOpen_valid (r := r) h1 h2
    refine ⟨?_, ?_, ?_⟩
    · intro hl
      exact replies_by (b := doDebugOpen) rfl rfl h (hb.trans (if_pos hl))
    · intro hl hn
      rw [if_neg hl, hn] at hb
      exact refuses_by (b := doDebugOpen) rfl rfl h hb
    · intro n hl hn u v
      exact ⟨fun hk => replies_by (b := doDebugOpen) rfl rfl h (doDebugOpen_good (v := v) h1 h2 hl hn hk rfl),
        fun hk => answers_by (b := doDebugOpen) rfl rfl h (doDebugOpen_bad h1 h2 hl hn hk)⟩
  · intro h
    exact replies_of rfl h rfl
  · intro h r h1 h2
    exact ⟨fun h3 h4 => replies_by (b := doLifecycle) rfl rfl h (doLifecycle_secure h1 h2 h3 h4),
      fun h3 h4 h5 => replies_by (b := doLifecycle) rfl rfl h (doLifecycle_retire h1 h2 h3 h4 h5)⟩
  · intro h
    refine ⟨fun h1 h2 => ?_, fun h1 => ?_⟩
    · exact replies_by (b := doFreezeArm) rfl rfl h ((guardR_pos (by simp [h1, h2])).trans (by rw [if_neg (by omega)]; rfl))
    · exact replies_by (b := doFreezeArm) rfl rfl h ((guardR_pos (by simp [h1])).trans (by rw [if_pos h1]; rfl))
  · intro h
    exact ⟨(ready cmdFreezeNow t q s).now + Config.freezeDelay (ready cmdFreezeNow t q s).free % 10001, by omega, by omega, replies_of rfl h rfl⟩
  · intro h r n ring hn hs
    exact replies_by (b := doSnapRead) rfl rfl h ((guardR_pos (by simpa using hn)).trans (guardR_pos (by simpa using hs)))

end Sys2Proof.Machine
end

section
/-! The rows whose meaning is an effect: how to come from a row to the function it carries out. -/

open Sys2Proof

namespace Sys2Proof.Machine

/-- A row gives what its function makes of the state the command begins with, where its guard is met. -/
theorem gives_at {i : Instr} {t : Nat} {ok : State → Bool} {f : State → State} {s a u : State} {A : Answer} (hi : exec i s = A)
    (hA : A = effect t ok f s) (ha : begin t s = a) (hok : ok a = true) (hf : f a = u) : Gives i s u :=
  gives_of_effect (hi.trans hA) (by rw [ha]; exact hok) (by rw [ha]; exact hf)

/-- A row whose guard is not met only lets time pass. -/
theorem gives_rests {i : Instr} {t : Nat} {ok : State → Bool} {f : State → State} {s a : State} {A : Answer} (hi : exec i s = A)
    (hA : A = effect t ok f s) (ha : begin t s = a) (hok : ok a = false) : Gives i s a := by
  unfold Gives
  rw [hi, hA, effect_rests (by rw [ha]; exact hok), ha]

/-- A row that leaves the state alone whether its guard is met or not. -/
theorem gives_same {i : Instr} {t : Nat} {ok : State → Bool} {f : State → State} {s a : State} {A : Answer} (hi : exec i s = A)
    (hA : A = effect t ok f s) (ha : begin t s = a) (hf : ok a = true → f a = a) : Gives i s a := by
  cases hok : ok a with
  | true => exact gives_at hi hA ha hok (hf hok)
  | false => exact gives_rests hi hA ha hok

/-! ## Blocks and codewords (R110, R113, R485) -/

/-- A block on a gallery that runs at a tread without FEC is received. -/
theorem gives_receiveBlock {t : Nat} {g : GalIx} {l : LaneIx} {b : Block} {reads : Nat} {s a u : State} (ha : begin t s = a) (hr : hopRuns a g = true)
    (hu : underTest a g = false) (hf : (galAt a g).rx.fec = false) (h : receiveBlk g l b reads a = u) : Gives (.receiveBlock t g l b reads) s u :=
  gives_at (A := execReceiveBlock t g l b reads s) rfl rfl ha (by simp [hr, hu, hf]) (by simp only [hu]; exact h)

theorem gives_receiveCodeword {t : Nat} {g : GalIx} {l : LaneIx} {w : BitVec 5440} {reads : List Nat} {s a u : State} (ha : begin t s = a)
    (hr : hopRuns a g = true) (hu : underTest a g = false) (hf : (galAt a g).rx.fec = true) (h : receiveCw g l w reads a = u) :
    Gives (.receiveCodeword t g l w reads) s (tryRejoin g u) :=
  gives_at (A := execReceiveCodeword t g l w reads s) rfl rfl ha (by simp [hr, hu, hf]) (by simp only [hu]; exact congrArg (tryRejoin g) h)


theorem modGal_congr {g : GalIx} {f f' : Gal → Gal} {s : State} (h : f (galAt s g) = f' (galAt s g)) : modGal g f s = modGal g f' s := by
  have h' : f s.gals[g] = f' s.gals[g] := h
  simp only [modGal, h']

/-- A change of a lane matters by what it makes of that lane alone. -/
theorem modLane_congr {g : GalIx} {l : LaneIx} {f f' : Lane → Lane} {s : State} (h : f (laneAt s g l) = f' (laneAt s g l)) :
    modLane g l f s = modLane g l f' s :=
  modGal_congr (by have h' : f (galAt s g).lanes[l] = f' (galAt s g).lanes[l] := h; simp only [h'])

/-- A gallery whose bits go to its checkers hands over a block as it comes. -/
theorem gives_testBlock {t : Nat} {g : GalIx} {l : LaneIx} {b : Block} {reads : Nat} {s a : State} (ha : begin t s = a) (hu : underTest a g = true) :
    Gives (.receiveBlock t g l b reads) s (testBlock g l b a) :=
  gives_at (A := execReceiveBlock t g l b reads s) rfl rfl ha (by simp [hu]) (by simp only [hu, ↓reduceIte])

theorem gives_testCodeword {t : Nat} {g : GalIx} {l : LaneIx} {w : BitVec 5440} {reads : List Nat} {s a : State} (ha : begin t s = a)
    (hu : underTest a g = true) : Gives (.receiveCodeword t g l w reads) s (testCodeword g l w a) :=
  gives_at (A := execReceiveCodeword t g l w reads s) rfl rfl ha (by simp [hu]) (by simp only [hu, ↓reduceIte])

/-- Settles O30. The receiver is run by the lock of its lane: hunting, a candidate, or locked, and there by the faults, the marker and the slot. -/
theorem blocksAndCodewordsGiveLock : Obligations.BlocksAndCodewordsGiveLock := by
  unfold Obligations.BlocksAndCodewordsGiveLock
  constructor
  · intro t g l b0 reads s
    generalize ha : begin t s = a
    dsimp only
    refine ⟨?_, ?_, fun hu => gives_testBlock ha hu⟩
    · intro hr hu hf hL
      refine ⟨fun hv => gives_receiveBlock ha hr hu hf ?_, fun hv hn => gives_receiveBlock ha hr hu hf ?_, fun hv hn => gives_receiveBlock ha hr hu hf ?_⟩
      · simp only [receiveBlk, hL, hv, Bool.not_false, ↓reduceIte]
      · simp only [receiveBlk, hL, hv, hn, Bool.not_true, Bool.false_eq_true, ↓reduceIte]
        exact modLane_congr rfl
      · simp only [receiveBlk, hL, hv, Nat.not_lt.2 hn, Bool.not_true, Bool.false_eq_true, ↓reduceIte]
        exact modLane_congr rfl
    · intro hr hu hf hL
      refine ⟨fun hb => ?_, fun hb hm => ⟨fun h hk => ?_, fun hk => ?_⟩, fun hb hm hs => ⟨fun q p v hk => ?_, fun hk => ?_⟩, fun hb hm hs => ⟨fun hp => ?_, fun hp => ?_⟩⟩ <;>
        refine gives_receiveBlock ha hr hu hf ?_
      · simp only [receiveBlk, hL, hb, ↓reduceIte]
      · simp only [receiveBlk, hL, Nat.not_le.2 hb, hm, hk, ↓reduceIte, Bool.not_false]
      · simp only [receiveBlk, hL, Nat.not_le.2 hb, hm, ↓reduceIte, Bool.not_false]
      · simp only [receiveBlk, hL, Nat.not_le.2 hb, hm, hs, hk, ↓reduceIte, Bool.not_true, Bool.false_eq_true]
      · simp only [receiveBlk, hL, Nat.not_le.2 hb, hm, hs, ↓reduceIte, Bool.not_true, Bool.false_eq_true]
      · simp only [receiveBlk, hL, Nat.not_le.2 hb, hm, hs, hp, ↓reduceIte, Bool.not_true, Bool.false_eq_true]
      · simp only [receiveBlk, hL, Nat.not_le.2 hb, hm, hs, hp, ↓reduceIte, Bool.not_true, Bool.false_eq_true]
  · intro t g l w0 reads s
    generalize ha : begin t s = a
    dsimp only
    refine ⟨fun hr hu hf => ⟨fun hL hm => ?_, fun hL hm => ?_, fun n hL hm => ?_, fun n hL hm hn => ?_, fun n hL hm hn => ?_, fun hL hm => ⟨fun hw => ?_, fun v hw => ?_⟩,
      fun hL hm => ⟨fun hn => ?_, fun hn hw => ?_, fun hn hw => ?_⟩⟩, fun hu => gives_testCodeword ha hu, fun hu hl hts sums vga drift => ?_⟩
    · exact gives_receiveCodeword ha hr hu hf (by simp only [receiveCw, hL, hm, ↓reduceIte])
    · exact gives_receiveCodeword ha hr hu hf (by simp only [receiveCw, hL, hm, Bool.false_eq_true, ↓reduceIte])
    · exact gives_receiveCodeword ha hr hu hf (by simp only [receiveCw, hL, hm, Bool.not_false, ↓reduceIte])
    · exact gives_receiveCodeword ha hr hu hf (by simp only [receiveCw, hL, hm, Bool.not_true, Bool.false_eq_true, ↓reduceIte, Nat.add_lt_add_right hn 1])
    · exact gives_receiveCodeword ha hr hu hf (by simp only [receiveCw, hL, hm, Bool.not_true, Bool.false_eq_true, ↓reduceIte, if_neg (show ¬ n + 1 < 3 by omega)])
    · exact gives_receiveCodeword ha hr hu hf (by simp only [receiveCw, hL, hm, hw, ↓reduceIte])
    · exact gives_receiveCodeword ha hr hu hf (by simp only [receiveCw, hL, hm, hw, ↓reduceIte])
    · exact gives_receiveCodeword ha hr hu hf (by simp only [receiveCw, hL, hm, Bool.false_eq_true, ↓reduceIte, if_pos (show (laneAt a g l).mkMiss + 1 ≥ 4 by omega)])
    · exact gives_receiveCodeword ha hr hu hf (by simp only [receiveCw, hL, hm, hw, Option.isSome_none, Bool.false_eq_true, ↓reduceIte, if_neg (show ¬ (laneAt a g l).mkMiss + 1 ≥ 4 by omega)])
    · exact gives_receiveCodeword ha hr hu hf (by simp only [receiveCw, hL, hm, hw, Bool.false_eq_true, ↓reduceIte, if_neg (show ¬ (laneAt a g l).mkMiss + 1 ≥ 4 by omega)])
    · refine gives_at (A := execAdaptationWindowEnd t g l sums vga drift s) rfl rfl ha (by simp [adapting, hu, hl]) ?_
      have he : equalising (galAt a g) (posOf (galAt a g) l) = false := by simp [equalising, hts]
      simp only [he, hts, beq_eq_false_iff_ne.2 (show TrainState.lost ≠ .active by decide), Bool.false_and]

end Sys2Proof.Machine
end

section
/-! Deskew markers and deskew (R111, R116, R137). -/

open Sys2Proof

namespace Sys2Proof.Machine

theorem galAt_modRx (g : GalIx) (f : RxDir → RxDir) (s : State) : galAt (modRx g f s) g = { galAt s g with rx := f (galAt s g).rx } := galAt_modGal s g _

theorem galAt_modTx (g : GalIx) (f : TxDir → TxDir) (s : State) : galAt (modTx g f s) g = { galAt s g with tx := f (galAt s g).tx } := galAt_modGal s g _

@[simp] theorem laneAt_modRx (g : GalIx) (l : LaneIx) (f : RxDir → RxDir) (s : State) : laneAt (modRx g f s) g l = laneAt s g l := by
  unfold laneAt; rw [galAt_modRx]

/-- A hop-control block taken from those kept leaves the lanes. -/
@[simp] theorem laneAt_takeHop (g : GalIx) (l : LaneIx) (h : Hop) (s : State) : laneAt (takeHop g h s) g l = laneAt s g l := laneAt_modRx g l _ s

@[simp] theorem lane_takeHop (g : GalIx) (l : LaneIx) (h : Hop) (s : State) : (galAt (takeHop g h s) g).lanes[l] = laneAt s g l := laneAt_takeHop g l h s

@[simp] theorem fec_takeHop (g : GalIx) (h : Hop) (s : State) : (galAt (takeHop g h s) g).rx.fec = (galAt s g).rx.fec := by
  unfold takeHop; rw [galAt_modRx]

theorem gives_deskewMarker {t : Nat} {g : GalIx} {l : LaneIx} {seq : BitVec 10} {pos : BitVec 6} {sb : BitVec 16} {s a u : State} (ha : begin t s = a)
    (hr : hopRuns a g = true) (h : takeMarker g l seq.toNat pos sb (takeHop g (.marker seq pos sb) a) = u) :
    Gives (.deskewMarkerReceive t g l seq pos sb) s (walkOn g (tryRejoin g u)) :=
  gives_at (A := execDeskewMarkerReceive t g l seq pos sb s) rfl rfl ha hr (congrArg (fun u => walkOn g (tryRejoin g u)) h)

/-- Whether a lane's deskew failure is due now: in an ACTIVE direction it lags behind another that is far ahead, in REPORT it has not failed yet (R116, R137). -/
def deskewFails (a : State) (g : GalIx) (l : LaneIx) : Bool :=
  let G := galAt a g
  let k := (G.rx.walkSeq, G.rx.walkSlot)
  (G.rx.ts == .active && ((setAt G.rx k.1).getLsbD (posOf G l) && (slotAt G.lanes[l] k).isNone) &&
      allLanes.any fun o => ((G.lanes[o].deskew.filter fun e => keyGe (e.1, e.2.1) k).length > 128 : Bool)) ||
    (G.rx.ts == .report && G.rx.pass.getLsbD (posOf G l))

theorem gives_deskewTimeout_fails {t : Nat} {g : GalIx} {l : LaneIx} {s a : State} (ha : begin t s = a) (hr : hopRuns a g = true) (h : deskewFails a g l = true) :
    Gives (.deskewTimeout t g l) s (a |> countLane 0x30C g l |> laneFail g l 0x7 |> walkOn g) :=
  gives_at (A := execDeskewTimeout t g l s) rfl rfl ha hr (if_pos h)

theorem gives_deskewTimeout_rests {t : Nat} {g : GalIx} {l : LaneIx} {s a : State} (ha : begin t s = a) (hr : hopRuns a g = true) (h : deskewFails a g l = false) :
    Gives (.deskewTimeout t g l) s a :=
  gives_at (A := execDeskewTimeout t g l s) rfl rfl ha hr (if_neg (Bool.eq_false_iff.1 h))

/-- Settles O31. A marker is taken by the lock of its lane and by whether it is the one expected; deskew fails where `deskewFails` says so, and else nothing changes. -/
theorem deskewMarkersAlignLanes : Obligations.DeskewMarkersAlignLanes := by
  unfold Obligations.DeskewMarkersAlignLanes
  intro t g l seq pos sb s
  generalize ha : begin t s = a
  dsimp only
  intro hr
  refine ⟨⟨fun hf => ?_, fun hf hm hb => ?_, fun hf hm hb => ?_, fun hf hm => ⟨fun he => ?_, fun he hs => ?_, fun he hs => ?_⟩⟩,
    fun ht hp hs hx => ?_, fun ht hp => ?_, fun ht hn => ?_, fun ht hp => ?_⟩
  · exact gives_deskewMarker ha hr (by simp only [takeMarker, fec_takeHop, hf, ↓reduceIte])
  · exact gives_deskewMarker ha hr (by simp only [takeMarker, fec_takeHop, lane_takeHop, hf, hm, hb, Bool.false_eq_true, ↓reduceIte])
  · exact gives_deskewMarker ha hr (by simp only [takeMarker, fec_takeHop, lane_takeHop, hf, hm, hb, Bool.false_eq_true, reduceCtorEq, ↓reduceIte])
  · exact gives_deskewMarker ha hr (by simp only [takeMarker, fec_takeHop, lane_takeHop, hf, hm, he, Bool.false_eq_true, ↓reduceIte])
  · exact gives_deskewMarker ha hr (by
      simp only [takeMarker, fec_takeHop, lane_takeHop, hf, hm, he, Bool.false_eq_true, ↓reduceIte, if_neg (show ¬ (laneAt a g l).seqErr + 1 ≥ 2 by omega)])
  · exact gives_deskewMarker ha hr (by
      simp only [takeMarker, fec_takeHop, lane_takeHop, hf, hm, he, Bool.false_eq_true, ↓reduceIte, if_pos (show (laneAt a g l).seqErr + 1 ≥ 2 by omega)])
  · obtain ⟨o, ho⟩ := hx
    refine gives_deskewTimeout_fails ha hr ?_
    have hany : (allLanes.any fun o => (((galAt a g).lanes[o].deskew.filter fun e => keyGe (e.1, e.2.1) ((galAt a g).rx.walkSeq, (galAt a g).rx.walkSlot)).length > 128 : Bool)) = true :=
      List.any_eq_true.2 ⟨o, List.mem_finRange o, decide_eq_true ho⟩
    have hs' : slotAt (galAt a g).lanes[l] ((galAt a g).rx.walkSeq, (galAt a g).rx.walkSlot) = none := hs
    simp only [deskewFails, hany, ht, hp, hs', Option.isNone_none, beq_self_eq_true, Bool.true_and, Bool.true_or]
  · exact gives_deskewTimeout_fails ha hr (by simp only [deskewFails, ht, hp, beq_self_eq_true, Bool.and_true, Bool.or_true])
  · refine gives_deskewTimeout_rests ha hr ?_
    simp only [deskewFails, ht]
    rcases hn with h | h | h
    · simp [h]
    · have hs' : (slotAt (galAt a g).lanes[l] ((galAt a g).rx.walkSeq, (galAt a g).rx.walkSlot)).isNone = false :=
        Option.isNone_eq_false_iff.2 (Option.isSome_iff_ne_none.2 h)
      rw [hs']
      simp
    · have hany : (allLanes.any fun o => (((galAt a g).lanes[o].deskew.filter fun e => keyGe (e.1, e.2.1) ((galAt a g).rx.walkSeq, (galAt a g).rx.walkSlot)).length > 128 : Bool)) = false :=
        List.any_eq_false.2 fun o _ ho => h ⟨o, of_decide_eq_true ho⟩
      rw [hany]
      simp
  · exact gives_deskewTimeout_rests ha hr (by simp [deskewFails, ht, hp])

end Sys2Proof.Machine
end

section
/-! The clock lane, idle and wake of lanes, tack bursts (R51, R52, R72 to R78, R95). -/

open Sys2Proof

namespace Sys2Proof.Machine

/-! ## Taking up what a notice says -/

/-- A hop-control block taken from those kept changes a gallery in nothing else. -/
theorem galAt_takeHop (g : GalIx) (h : Hop) (s : State) :
    galAt (takeHop g h s) g = { galAt s g with rx := { (galAt s g).rx with hopIn := (galAt s g).rx.hopIn.eraseP fun e => e.2.2 = h } } :=
  galAt_modRx g _ s

@[simp] theorem ts_takeHop (g : GalIx) (h : Hop) (s : State) : (galAt (takeHop g h s) g).rx.ts = (galAt s g).rx.ts := by rw [galAt_takeHop]

@[simp] theorem physOf_takeHop (g : GalIx) (h : Hop) (s : State) (p : Nat) : physOf (galAt (takeHop g h s) g) p = physOf (galAt s g) p := by
  rw [galAt_takeHop]; rfl

@[simp] theorem held_takeHop (g : GalIx) (h : Hop) (s : State) : (galAt (takeHop g h s) g).rx.held = (galAt s g).rx.held := by rw [galAt_takeHop]

@[simp] theorem walkSeq_takeHop (g : GalIx) (h : Hop) (s : State) : (galAt (takeHop g h s) g).rx.walkSeq = (galAt s g).rx.walkSeq := by rw [galAt_takeHop]

@[simp] theorem jumps_takeHop (g : GalIx) (h : Hop) (s : State) : (galAt (takeHop g h s) g).rx.jumps = (galAt s g).rx.jumps := by rw [galAt_takeHop]

/-- What an idle notice makes of the state, by the lane it names (R73, R74, R178, R179). -/
def afterIdleNotice (g : GalIx) (last : BitVec 10) (pos : BitVec 6) (a : State) : State :=
  let b := takeHop g (.idleNotice last pos) a
  let p := (pos.extractLsb' 0 3).toNat
  let k := physOf (galAt a g) p
  let L := laneAt a g k
  let missed := L.failed && ((galAt a g).rx.held || !keyGe (last.toNat, 0) ((galAt a g).rx.walkSeq, 0) ||
    (galAt a g).rx.jumps.any fun j => !keyGe (last.toNat, 0) (j.restart, 0))
  if (galAt a g).rx.ts = .active ∧ (!L.rxIdle ∨ L.failed) then
    let keep := L.failed && !missed
    b |> modLane g k (fun L => { L with idleNote := some last.toNat, rxIdle := true, failed := keep, nextTry := none })
      |> doIf missed (modRx g fun r => { r with darnTimes := (r.darnTimes.reverse.eraseP fun e => e.2 == p).reverse })
      |> doIf L.failed (modRx g fun r => if r.attempt.pos = p then { r with attempt := {}, prbsOn := false } else r)
      |> doIf (!L.failed) (rxChange g (last.toNat + 1) (· &&& ~~~bit8 p))
      |> walkOn g
  else b

theorem gives_idleNotice {t : Nat} {g : GalIx} {l : LaneIx} {last : BitVec 10} {pos : BitVec 6} {s a u : State} (ha : begin t s = a) (hr : hopRuns a g = true)
    (h : afterIdleNotice g last pos a = u) : Gives (.idleNoticeReceive t g l last pos) s u := by
  refine gives_at (A := execIdleNoticeReceive t g l last pos s) rfl rfl ha hr (Eq.trans ?_ h)
  simp only [afterIdleNotice, lane_takeHop, ts_takeHop, physOf_takeHop, held_takeHop, walkSeq_takeHop, jumps_takeHop]
  refine if_congr Iff.rfl ?_ rfl
  refine congrArg (fun v => walkOn g (doIf _ _ (doIf _ _ (doIf _ _ v)))) (modLane_congr ?_)
  rw [laneAt_takeHop]

/-! ## Tack bursts (R77, R95) -/

/-- Whether a tack block continues the burst of a lane: it names the boundary announced and one block less (R95). -/
def continues (T : TackState) (q n : Nat) : Prop := T.rejoinSeq.getD q = q ∧ (T.rejoinSeq = none ∨ n + 1 = T.remaining)

/-- The burst of a lane after a block that continues it. -/
def tackNext (T : TackState) (q n : Nat) : TackState :=
  { running := true, rejoinSeq := some q, remaining := n, seen := T.seen + 1, good := if T.seen + 1 > 32 then T.good + 1 else 0, confirmed := T.confirmed }

/-- A tack block as a lane descrambles it. -/
def tackBlock (G : Gal) (L : Lane) (b0 : Block) : BitVec 58 × Block :=
  descrambleBlk L.scram (if L.inverted then invertBits (isPam (G.rx.tread.getD 0)) 66 b0 else b0)

theorem takeTack_continues {g : GalIx} {l : LaneIx} {b0 : Block} {a : State} {q n : Nat} (ht : tackOf (tackBlock (galAt a g) (laneAt a g l) b0).2 = some (q, n))
    (hn : continues (laneAt a g l).tack q n) :
    takeTack g l b0 a =
      let d := tackBlock (galAt a g) (laneAt a g l) b0
      let T := (laneAt a g l).tack
      let now := !T.confirmed && decide ((tackNext T q n).good ≥ 32)
      let z := lastBefore (galAt a g).rx.fec q
      a |> modLane g l (fun L => { L with scram := d.1, tack := { tackNext T q n with confirmed := T.confirmed || now } })
        |> doIf (blkKind d.2 == .badLocal) (countLane 0x303 g l)
        |> doIf now (fun s => s
          |> modLane g l (fun L => { L with rxIdle := false, idleNote := none, failed := false, nextTry := none, expectSeq := some q, seqErr := 0
                                            cw := .locked, block := .locked, mkLock := true, mkMiss := 0, mkGap := 0, rxSlot := 0, rxSeq := z.1, seam := 16
                                            badPeriod := false, startSeq := none, withheld := none, deskew := [], lastGood := z.1, lastSlot := z.2 })
          |> rxChange g q (· ||| bit8 (posOf (galAt a g) l))
          |> doIf (setAt (galAt a g).rx (galAt a g).rx.walkSeq == 0#8 && (nextChange (galAt a g).rx (galAt a g).rx.walkSeq).isNone)
              (fun s => s |> walkTo g (q, firstSlot (galAt a g).rx.fec) |> enterPeriod g)) := by
  obtain ⟨h1, h2⟩ := hn
  have ht' : tackOf (descrambleBlk (galAt a g).lanes[l].scram (if (galAt a g).lanes[l].inverted then invertBits (isPam ((galAt a g).rx.tread.getD 0)) 66 b0 else b0)).2 =
    some (q, n) := ht
  have hc : (galAt a g).lanes[l].tack.rejoinSeq.getD q = q ∧ ((galAt a g).lanes[l].tack.rejoinSeq.isNone ∨ n + 1 = (galAt a g).lanes[l].tack.remaining) :=
    ⟨h1, h2.imp_left Option.isNone_iff_eq_none.2⟩
  unfold takeTack
  simp only [ht', if_pos hc, Option.getD_some]
  rfl

theorem takeTack_breaks {g : GalIx} {l : LaneIx} {b0 : Block} {a : State}
    (ht : ∀ q n, tackOf (tackBlock (galAt a g) (laneAt a g l) b0).2 = some (q, n) → ¬ continues (laneAt a g l).tack q n) :
    takeTack g l b0 a =
      let d := tackBlock (galAt a g) (laneAt a g l) b0
      let T := (laneAt a g l).tack
      a |> modLane g l (fun L => { L with scram := d.1, tack := { T with running := true, seen := T.seen + 1, good := 0 } })
        |> doIf (blkKind d.2 == .badLocal) (countLane 0x303 g l) := by
  unfold tackBlock at *
  unfold laneAt at *
  unfold takeTack
  cases hx : tackOf (descrambleBlk (galAt a g).lanes[l].scram
      (if (galAt a g).lanes[l].inverted then invertBits (isPam ((galAt a g).rx.tread.getD 0)) 66 b0 else b0)).2 with
  | none =>
    simp only [hx, show decide (0 ≥ 32) = false from rfl, Bool.and_false, doIf_false, Bool.or_false]
  | some e =>
    obtain ⟨q, n⟩ := e
    have hn : ¬ ((galAt a g).lanes[l].tack.rejoinSeq.getD q = q ∧
        ((galAt a g).lanes[l].tack.rejoinSeq.isNone ∨ n + 1 = (galAt a g).lanes[l].tack.remaining)) :=
      fun ⟨h1, h2⟩ => ht q n hx ⟨h1, h2.imp_left Option.isNone_iff_eq_none.1⟩
    simp only [hx, if_neg hn, show decide (0 ≥ 32) = false from rfl, Bool.and_false, doIf_false, Bool.or_false]

/-- The end of a burst that ran without confirming its lane: the wake failed (R77). -/
theorem endTack_unconfirmed {g : GalIx} {l : LaneIx} {drift : Int} {a : State} (hr : (laneAt a g l).tack.running = true)
    (hc : (laneAt a g l).tack.confirmed = false) :
    endTack g l drift a =
      let L := laneAt a g l
      let q := L.tack.rejoinSeq.getD (galAt a g).rx.walkSeq
      let z := lastBefore (galAt a g).rx.fec q
      let limit := if ((galAt a g).rx.tread.map isPam).getD false then 264 else 528
      modLane g l (fun L => { L with tack := {}, live := if L.tack.running then trackPhase limit drift L.live else L.live }) a
        |> raise 0x0206 (by8 g.val ++ by8 l.val ++ by16 q)
        |> modLane g l (fun L => { L with rxIdle := false, idleNote := none, failed := false, lastGood := z.1, lastSlot := z.2 })
        |> laneFail g l 0x8
        |> doIf L.failed (failedRejoin g (posOf (galAt a g) l) 1) :=
  if_neg (by
    have hr' : (galAt a g).lanes[l].tack.running = true := hr
    have hc' : (galAt a g).lanes[l].tack.confirmed = false := hc
    rw [hr', hc']; decide)

/-- Settles O32. Each row is the function of its definition; the notice, the tack block and the end of a burst are taken by the lane they meet. -/
theorem clockLaneIdleAndWake : Obligations.ClockLaneIdleAndWake := by
  unfold Obligations.ClockLaneIdleAndWake
  constructor
  · intro t g s
    generalize ha : begin t s = a
    dsimp only
    intro hr
    refine ⟨fun ppm => ⟨fun ht h1 h2 => ?_, fun ht h => ?_, fun ht hs => ?_, fun ht hs => ?_⟩,
      ⟨fun hs => ?_, fun hs => ⟨fun ht => ?_, fun ht => ?_, fun ht => ?_, fun h1 h2 h3 h4 => ?_⟩⟩,
      fun l seq pos => ⟨fun ht => ?_, fun ht => ?_⟩, ⟨fun ht hs => ⟨?_, ?_⟩, fun h ok => ?_⟩, fun ok => ⟨fun hp hn => ?_, fun h => ?_⟩⟩
    · exact gives_at (A := execClockLaneLock t g ppm s) rfl rfl ha hr ((if_pos ht).trans (if_pos ⟨h1, h2⟩))
    · exact gives_at (A := execClockLaneLock t g ppm s) rfl rfl ha hr ((if_pos ht).trans (if_neg (by omega)))
    · exact gives_at (A := execClockLaneLock t g ppm s) rfl rfl ha hr ((if_neg ht).trans (if_pos hs))
    · exact gives_at (A := execClockLaneLock t g ppm s) rfl rfl ha hr ((if_neg ht).trans (if_neg (by simp [hs])))
    · exact gives_at (A := execClockLaneLost t g s) rfl rfl ha hr (if_pos hs)
    · refine gives_at (A := execClockLaneLost t g s) rfl rfl ha hr ?_
      rcases ht with ht | ht <;> simp only [hs, ht, Bool.false_eq_true, ↓reduceIte]
    · exact gives_at (A := execClockLaneLost t g s) rfl rfl ha hr (by simp only [hs, ht, Bool.false_eq_true, ↓reduceIte])
    · exact gives_at (A := execClockLaneLost t g s) rfl rfl ha hr (by simp only [hs, ht, Bool.false_eq_true, ↓reduceIte])
    · exact gives_at (A := execClockLaneLost t g s) rfl rfl ha hr (by simp only [hs, Bool.false_eq_true, ↓reduceIte])
    · exact gives_at (A := execClockStopNoticeReceive t g l seq pos s) rfl rfl ha hr (if_pos ((ts_takeHop ..).trans ht))
    · exact gives_at (A := execClockStopNoticeReceive t g l seq pos s) rfl rfl ha hr (if_neg (by rw [ts_takeHop]; exact ht))
    · exact gives_at (A := execClockPreambleEnd t g true true s) rfl rfl ha hr (by simp only [ht, hs, and_self, ↓reduceIte])
    · exact gives_at (A := execClockPreambleEnd t g true false s) rfl rfl ha hr (by simp only [ht, hs, and_self, Bool.false_eq_true, ↓reduceIte])
    · refine gives_at (A := execClockPreambleEnd t g true ok s) rfl rfl ha hr ((if_pos rfl).trans (if_neg ?_))
      rintro ⟨h1, h2⟩
      rcases h with h | h
      · exact h h1
      · rw [h] at h2; exact Bool.false_ne_true h2
    · exact gives_at (A := execClockPreambleEnd t g false ok s) rfl rfl ha hr ((if_neg Bool.false_ne_true).trans (if_pos ⟨hp, hn⟩))
    · refine gives_at (A := execClockPreambleEnd t g false ok s) rfl rfl ha hr ((if_neg Bool.false_ne_true).trans (if_neg ?_))
      rintro ⟨h1, h2⟩
      rcases h with h | h
      · rw [h] at h1; exact Bool.false_ne_true h1
      · omega
  · intro t g l s
    generalize ha : begin t s = a
    dsimp only
    intro hr
    refine ⟨fun last pos => ⟨fun ht hf hi => ?_, fun ht hf hm => ?_, fun ht hf hm => ?_, fun h => ?_⟩, fun h1 h2 h3 h4 => ?_, fun h => ?_,
      fun hs hw => ⟨fun he => ?_, fun e he hn => ?_, fun e he hn => ?_⟩, fun h => ?_,
      fun ht b0 => ⟨fun q n hq hn => ⟨fun h => ?_, fun hc h => ?_⟩, fun h => ?_⟩, fun ht drift => ⟨fun h => ?_, fun hr' hc => ⟨fun hf => ?_, fun hf => ?_⟩⟩⟩
    · exact gives_idleNotice ha hr (by
        simp only [afterIdleNotice, ht, hf, hi, Bool.false_and, Bool.not_false, Bool.false_eq_true, or_false, and_self, ↓reduceIte, doIf_true, doIf_false])
    · refine gives_idleNotice ha hr ?_
      simp only [afterIdleNotice, ht, hf, hm, Bool.true_and, Bool.and_true, Bool.not_false, Bool.not_true, or_true, and_self, ↓reduceIte, doIf_true, doIf_false]
    · exact gives_idleNotice ha hr (by
        simp only [afterIdleNotice, ht, hf, hm, Bool.true_and, Bool.and_false, Bool.not_true, or_true, and_self, ↓reduceIte, doIf_true, doIf_false])
    · refine gives_idleNotice ha hr (if_neg ?_)
      rintro ⟨h1, h2⟩
      rcases h with h | ⟨h3, h4⟩
      · exact h h1
      · rw [h3, h4] at h2; simp at h2
    · exact gives_at (A := execAutoWake t g s) rfl rfl ha hr (if_pos ⟨h1, h2, h3, by simp [h4]⟩)
    · refine gives_at (A := execAutoWake t g s) rfl rfl ha hr (if_neg ?_)
      rintro ⟨h1, h2, h3, h4⟩
      rcases h with h | h | h | h
      · exact h h1
      · exact h h2
      · rw [h] at h3; exact Bool.false_ne_true h3
      · rw [h] at h4; exact Bool.false_ne_true h4
    · exact gives_at (A := execIdleReturn t g s) rfl rfl ha hr (by
        simp only [hs, hw, he, Bool.not_true, Bool.false_eq_true, or_self, ↓reduceIte])
    · exact gives_at (A := execIdleReturn t g s) rfl rfl ha hr (by
        simp only [hs, hw, he, hn, Bool.not_true, Bool.false_eq_true, or_self, ↓reduceIte])
    · exact gives_at (A := execIdleReturn t g s) rfl rfl ha hr (by
        simp only [hs, hw, he, Nat.not_le.2 hn, Bool.not_true, Bool.false_eq_true, or_self, ↓reduceIte])
    · exact gives_at (A := execIdleReturn t g s) rfl rfl ha hr (if_pos (h.imp_left (by simp [·])))
    · refine gives_at (A := execTackBlockReceive t g l b0 s) rfl rfl ha (by simp [hr, ht]) ((takeTack_continues hq hn).trans ?_)
      have hnow : (!(laneAt a g l).tack.confirmed && decide ((tackNext (laneAt a g l).tack q n).good ≥ 32)) = false := by
        rcases h with h | h
        · rw [h]; rfl
        · rw [decide_eq_false (show ¬ (tackNext (laneAt a g l).tack q n).good ≥ 32 from Nat.not_le.2 h), Bool.and_false]
      simp only [hnow, doIf_false, Bool.or_false]
      rfl
    · refine gives_at (A := execTackBlockReceive t g l b0 s) rfl rfl ha (by simp [hr, ht]) ((takeTack_continues hq hn).trans ?_)
      have hnow : (!(laneAt a g l).tack.confirmed && decide ((tackNext (laneAt a g l).tack q n).good ≥ 32)) = true := by
        rw [hc, decide_eq_true (show (tackNext (laneAt a g l).tack q n).good ≥ 32 from h)]; rfl
      simp only [hnow, doIf_true, Bool.or_true]
      rfl
    · exact gives_at (A := execTackBlockReceive t g l b0 s) rfl rfl ha (by simp [hr, ht]) (takeTack_breaks h)
    · refine gives_at (A := execTackBurstEnd t g l drift s) rfl rfl ha (by simp [hr, ht]) (congrArg (walkOn g) ?_)
      exact if_pos (h.imp_left (by simp [laneAt]))
    · refine gives_at (A := execTackBurstEnd t g l drift s) rfl rfl ha (by simp [hr, ht]) (congrArg (walkOn g) ?_)
      refine (endTack_unconfirmed hr' hc).trans ?_
      simp only [hf, doIf_false]
      rfl
    · refine gives_at (A := execTackBurstEnd t g l drift s) rfl rfl ha (by simp [hr, ht]) (congrArg (walkOn g) ?_)
      refine (endTack_unconfirmed hr' hc).trans ?_
      simp only [hf, doIf_true]
      rfl

end Sys2Proof.Machine
end

section
/-! Detection, the timers of training, exchange and equalisation (R60, R121 to R135, R174). -/

open Sys2Proof

namespace Sys2Proof.Machine

/-! ## Leaving DETECT and running out of time -/

/-- What a change of lanes leaves: the time, the settings and the transmit direction. -/
theorem forAll_modLane_leaves (g : GalIx) (f : LaneIx → Lane → Lane) (l : List LaneIx) (a : State) :
    (forAll l (fun k => modLane g k (f k)) a).now = a.now ∧ (forAll l (fun k => modLane g k (f k)) a).live = a.live ∧
      (galAt (forAll l (fun k => modLane g k (f k)) a) g).tx = (galAt a g).tx :=
  forAll_keeps (f := fun k => modLane g k (f k)) (P := fun u => u.now = a.now ∧ u.live = a.live ∧ (galAt u g).tx = (galAt a g).tx)
    (fun k u h => ⟨h.1, h.2.1, (by dsimp only [modLane]; rw [galAt_modGal]; exact h.2.2)⟩) l ⟨rfl, rfl, rfl⟩

/-- The terminations that a probe found. -/
def noteTerminations (g : GalIx) (found : BitVec 8) (a : State) : State := forAll allLanes (fun l => modLane g l fun L => { L with termination := found.getLsbD l.val }) a

theorem noteTerminations_leaves (g : GalIx) (found : BitVec 8) (a : State) :
    (noteTerminations g found a).now = a.now ∧ (noteTerminations g found a).live = a.live ∧ (galAt (noteTerminations g found a) g).tx = (galAt a g).tx :=
  forAll_modLane_leaves g (fun l L => { L with termination := found.getLsbD l.val }) allLanes a

/-- What a probe in DETECT makes of the state (R122, R123). -/
theorem gives_detectProbe {t : Nat} {g : GalIx} {clk : Bool} {found : BitVec 8} {s a u : State} (ha : begin t s = a) (hr : hopRuns a g = true)
    (ht : (galAt a g).tx.ts = .detect)
    (h : (if !(galAt a g).tx.started ∧ clk ∧ popcount found ≥ 2 then noteTerminations g found a
         |> latchRx g |> latchTx g
         |> modTx g (fun x => { x with started := true, at_ := a.now, clkIdle := false })
         |> modRx g (fun r => { r with at_ := a.now })
         |> forAll allLanes (fun l => modLane g l fun L =>
             { L with coef := ((galSet a g).lanes[l].coef).getD (preset 0), txIdle := !found.getLsbD l.val || L.retired || L.retiredTx })
         |> emit (.sendAt g 0) |> startPeriod g |> leaveDetect g
       else if (galAt a g).tx.started ∧ !clk then silence g (noteTerminations g found a) else noteTerminations g found a) = u) :
    Gives (.detectProbe t g clk found) s u := by
  refine gives_at (A := execDetectProbe t g clk found s) rfl rfl ha (by simp [hr, ht]) (Eq.trans ?_ h)
  obtain ⟨h1, h2, h3⟩ := noteTerminations_leaves g found a
  have h4 : galSet (noteTerminations g found a) g = galSet a g := by unfold galSet; rw [h2]
  unfold noteTerminations at *
  simp only [h1, h3, h4]

/-- What a state of training that has run out of time makes of the state (R121). -/
def timedOut (g : GalIx) (rx : Bool) (ts : TrainState) (a : State) : State :=
  if ts = .equalise then
    if rx then a |> forceDone g |> tryQual g
    else a |> forAll (positions (galAt a g).tx.lanes) (fun p => modLane g (laneOf p) fun L => { L with txDone := true }) |> tryQual g
  else if rx ∧ ts = .align then endAlign g a
  else if !rx ∧ (ts = .clock ∨ ts = .align) ∧ !(fromDetect (galAt a g) ∧ (galAt a g).farCap.isNone) then
    modTx g (fun x => { x with ts := if ts = .clock then .align else .equalise, at_ := a.now }) a
  else failAttempt g (expiryReason ts) false a

theorem gives_timer_due {t : Nat} {g : GalIx} {rx : Bool} {ts : TrainState} {m : Nat} {s a u : State} (ha : begin t s = a) (hr : hopRuns a g = true)
    (hts : (if rx then (galAt a g).rx.ts else (galAt a g).tx.ts) = ts) (hd : ts = .detect → (galAt a g).tx.started = true)
    (hm : stateMax ts (if rx then (galAt a g).rx.tread.getD 0 else (galAt a g).tx.tread.getD 0) = some m)
    (hle : (if rx then (galAt a g).rx.at_ else (galAt a g).tx.at_) + m ≤ a.now) (h : timedOut g rx ts a = u) : Gives (.trainTimerExpiry t g rx) s u := by
  refine gives_at (A := execTrainTimerExpiry t g rx s) rfl rfl ha hr (Eq.trans ?_ h)
  have hn : ¬ (a.now < (if rx then (galAt a g).rx.at_ else (galAt a g).tx.at_) + m ∨ ts = .detect ∧ (!(galAt a g).tx.started) = true) := by
    rintro (h1 | ⟨h1, h2⟩)
    · omega
    · simp [hd h1] at h2
  simp only [hts, hm, if_neg hn]
  rfl

theorem gives_timer_early {t : Nat} {g : GalIx} {rx : Bool} {s a : State} (ha : begin t s = a) (hr : hopRuns a g = true)
    (h : ∀ m, stateMax (if rx then (galAt a g).rx.ts else (galAt a g).tx.ts) (if rx then (galAt a g).rx.tread.getD 0 else (galAt a g).tx.tread.getD 0) = some m →
      a.now < (if rx then (galAt a g).rx.at_ else (galAt a g).tx.at_) + m ∨
        (if rx then (galAt a g).rx.ts else (galAt a g).tx.ts) = .detect ∧ (galAt a g).tx.started = false) : Gives (.trainTimerExpiry t g rx) s a := by
  refine gives_at (A := execTrainTimerExpiry t g rx s) rfl rfl ha hr ?_
  dsimp only
  split
  · rfl
  · rename_i m hm
    exact if_pos ((h m hm).imp_right (And.imp_right (by simp [·])))

/-! ## EXCHANGE and EQUALISE -/

@[simp] theorem tx_takeHop (g : GalIx) (h : Hop) (s : State) : (galAt (takeHop g h s) g).tx = (galAt s g).tx := by rw [galAt_takeHop]

@[simp] theorem setTx_takeHop (g : GalIx) (h : Hop) (s : State) : (galAt (takeHop g h s) g).setTx = (galAt s g).setTx := by rw [galAt_takeHop]

@[simp] theorem setRx_takeHop (g : GalIx) (h : Hop) (s : State) : (galAt (takeHop g h s) g).setRx = (galAt s g).setRx := by rw [galAt_takeHop]

@[simp] theorem farCap_takeHop (g : GalIx) (h : Hop) (s : State) : (galAt (takeHop g h s) g).farCap = (galAt s g).farCap := by rw [galAt_takeHop]

@[simp] theorem farLanding_takeHop (g : GalIx) (h : Hop) (s : State) : (galAt (takeHop g h s) g).farLanding = (galAt s g).farLanding := by rw [galAt_takeHop]

@[simp] theorem attempt_takeHop (g : GalIx) (h : Hop) (s : State) : (galAt (takeHop g h s) g).rx.attempt = (galAt s g).rx.attempt := by rw [galAt_takeHop]

@[simp] theorem tread_takeHop (g : GalIx) (h : Hop) (s : State) : (galAt (takeHop g h s) g).rx.tread = (galAt s g).rx.tread := by rw [galAt_takeHop]

@[simp] theorem now_takeHop (g : GalIx) (h : Hop) (s : State) : (takeHop g h s).now = s.now := rfl

/-- Whether a transmitter takes requests for a lane: it equalises or is led to it, or the lane retrains in the background (R134). -/
def takesRequests (G : Gal) (L : Lane) : Bool :=
  G.tx.ts == .clock || G.tx.ts == .align || G.tx.ts == .equalise || (G.tx.ts == .active && L.txFailed)

/-- The coefficients that a request leaves a lane with (R65, R134). -/
def coefAfter (G : Gal) (k : LaneIx) (L : Lane) (n : BitVec 5) (q : BitVec 8) : Coef :=
  if n.toNat = L.reqCount then L.coef else ((G.setTx.lanes[k]).coef).getD (requested L (mget? L.txSaved (G.tx.tread.getD 0).val) q.toNat)

/-- A request is answered with the coefficients now sent (R134). -/
def answerRequest (g : GalIx) (pos : BitVec 3) (n : BitVec 5) (q : BitVec 8) (c : Coef) (u : State) : State :=
  u |> modLane g (laneOf pos.toNat) (fun L => { L with coef := c, reqCount := n.toNat, txDone := L.txDone || q == 0x1F#8 })
    |> sendRep g (.lane (laneOf pos.toNat).val) 64 none (.eqAck pos n (ibyte c.cm2) (ibyte c.cm1) (ibyte c.cp1) (ibyte c.cp2))
    |> tryQual g

theorem gives_eqReq {t : Nat} {g : GalIx} {pos : BitVec 3} {n : BitVec 5} {q : BitVec 8} {s a b : State} {c : Coef} (ha : begin t s = a) (hr : hopRuns a g = true)
    (hk : takesRequests (galAt a g) (laneAt a g (laneOf pos.toNat)) = true)
    (hb : (if ((galAt a g).tx.ts = .clock ∨ (galAt a g).tx.ts = .align) ∧ (galAt a g).tx.mode ≠ .back then
      modTx g (fun x => { x with ts := .equalise, at_ := a.now }) (takeHop g (.eqReq pos n q) a) else takeHop g (.eqReq pos n q) a) = b)
    (hc : coefAfter (galAt a g) (laneOf pos.toNat) (laneAt a g (laneOf pos.toNat)) n q = c) :
    Gives (.eqReqReceive t g pos n q) s (answerRequest g pos n q c b) := by
  subst hb hc
  unfold takesRequests at hk
  refine gives_at (A := execEqReqReceive t g pos n q s) rfl rfl ha hr ?_
  simp only [tx_takeHop, lane_takeHop, setTx_takeHop, now_takeHop, hk, ↓reduceIte]
  rfl

theorem gives_eqReq_ignored {t : Nat} {g : GalIx} {pos : BitVec 3} {n : BitVec 5} {q : BitVec 8} {s a : State} (ha : begin t s = a) (hr : hopRuns a g = true)
    (hk : takesRequests (galAt a g) (laneAt a g (laneOf pos.toNat)) = false) : Gives (.eqReqReceive t g pos n q) s (takeHop g (.eqReq pos n q) a) := by
  unfold takesRequests at hk
  refine gives_at (A := execEqReqReceive t g pos n q s) rfl rfl ha hr ?_
  simp only [tx_takeHop, lane_takeHop, hk, Bool.false_eq_true, ↓reduceIte]

/-- The three ways in which a request is taken: repeated, with fixed coefficients, and with what it asks for. -/
theorem gives_eqReq_applies {t : Nat} {g : GalIx} {pos : BitVec 3} {n : BitVec 5} {q : BitVec 8} {s a b : State} (ha : begin t s = a) (hr : hopRuns a g = true)
    (hk : takesRequests (galAt a g) (laneAt a g (laneOf pos.toNat)) = true)
    (hb : (if ((galAt a g).tx.ts = .clock ∨ (galAt a g).tx.ts = .align) ∧ (galAt a g).tx.mode ≠ .back then
      modTx g (fun x => { x with ts := .equalise, at_ := a.now }) (takeHop g (.eqReq pos n q) a) else takeHop g (.eqReq pos n q) a) = b) :
    let L := laneAt a g (laneOf pos.toNat)
    (n.toNat = L.reqCount → Gives (.eqReqReceive t g pos n q) s (answerRequest g pos n q L.coef b)) ∧
    (∀ c, n.toNat ≠ L.reqCount → ((galAt a g).setTx.lanes[laneOf pos.toNat]).coef = some c → Gives (.eqReqReceive t g pos n q) s (answerRequest g pos n q c b)) ∧
    (n.toNat ≠ L.reqCount → ((galAt a g).setTx.lanes[laneOf pos.toNat]).coef = none →
      Gives (.eqReqReceive t g pos n q) s (answerRequest g pos n q (requested L (mget? L.txSaved ((galAt a g).tx.tread.getD 0).val) q.toNat) b)) := by
  intro L
  refine ⟨fun hn => gives_eqReq ha hr hk hb (if_pos hn), fun c hn hc => gives_eqReq ha hr hk hb ((if_neg hn).trans ?_),
    fun hn hc => gives_eqReq ha hr hk hb ((if_neg hn).trans ?_)⟩
  · rw [hc]; rfl
  · rw [hc]; rfl

/-- Whether a receiver equalises the lane at a position: in EQUALISE, or in step 2 of a background attempt on it. -/
def equalisesAt (G : Gal) (pos : BitVec 3) : Bool :=
  G.rx.ts == .equalise || (G.rx.ts == .active && G.rx.attempt.step == 2 && G.rx.attempt.pos == pos.toNat)

theorem equalisesAt_iff {G : Gal} {pos : BitVec 3} :
    equalisesAt G pos = true ↔ G.rx.ts = .equalise ∨ G.rx.ts = .active ∧ G.rx.attempt.step = 2 ∧ G.rx.attempt.pos = pos.toNat := by
  simp [equalisesAt, and_assoc]

/-- The search of a lane after the answer it awaited (R133). -/
def afterAnswer (g : GalIx) (pos : BitVec 3) (c : Coef) (areas : List Nat) (G : Gal) (L : Lane) (b : State) : State :=
  match equalisesAt G pos, L.search with
  | false, _ | _, .idle | _, .done | _, .adapt .. => b
  | _, .last k _ => endSearch g pos.toNat k b
  | _, _ =>
    let r := searchStep L c (G.rx.tread.getD 0) (G.setRx.presets.getD (G.rx.tread.getD 0).val 0) areas
    b |> modLane g (physOf G pos.toNat) (fun L => { L with search := r.1, peak := r.2.2.1, area := r.2.2.2, live := { L.live with ctle := r.2.2.1 } })
      |> doIf (r.2.1 != 0) (eqRequest g pos.toNat r.2.1)

section
variable {g : GalIx} {pos : BitVec 3} {c : Coef} {areas : List Nat} {G : Gal} {L : Lane} {b : State}

/-- An answer that nothing awaits, because the lane does not equalise or its search has come to its end. -/
theorem afterAnswer_still
    (h : ¬ (G.rx.ts = .equalise ∨ G.rx.ts = .active ∧ G.rx.attempt.step = 2 ∧ G.rx.attempt.pos = pos.toNat) ∨
      (L.search = .idle ∨ L.search = .done ∨ ∃ n k m, L.search = .adapt n k m)) : afterAnswer g pos c areas G L b = b := by
  unfold afterAnswer
  rcases h with h | h | h | ⟨n, k, m, h⟩
  · rw [Bool.eq_false_iff.2 (fun e => h (equalisesAt_iff.1 e))]
  · rw [h]; cases equalisesAt G pos <;> rfl
  · rw [h]; cases equalisesAt G pos <;> rfl
  · rw [h]; cases equalisesAt G pos <;> rfl

theorem afterAnswer_last {peak area : Nat} (ho : G.rx.ts = .equalise ∨ G.rx.ts = .active ∧ G.rx.attempt.step = 2 ∧ G.rx.attempt.pos = pos.toNat)
    (h : L.search = .last peak area) : afterAnswer g pos c areas G L b = endSearch g pos.toNat peak b := by
  unfold afterAnswer
  rw [equalisesAt_iff.2 ho, h]

theorem afterAnswer_step (ho : G.rx.ts = .equalise ∨ G.rx.ts = .active ∧ G.rx.attempt.step = 2 ∧ G.rx.attempt.pos = pos.toNat)
    (hs : ¬ (L.search = .idle ∨ L.search = .done ∨ ∃ n k m, L.search = .adapt n k m)) (hl : ∀ peak area, L.search ≠ .last peak area) :
    afterAnswer g pos c areas G L b =
      let r := searchStep L c (G.rx.tread.getD 0) (G.setRx.presets.getD (G.rx.tread.getD 0).val 0) areas
      b |> modLane g (physOf G pos.toNat) (fun L => { L with search := r.1, peak := r.2.2.1, area := r.2.2.2, live := { L.live with ctle := r.2.2.1 } })
        |> doIf (r.2.1 != 0) (eqRequest g pos.toNat r.2.1) := by
  unfold afterAnswer
  rw [equalisesAt_iff.2 ho]
  cases h : L.search with
  | idle => exact absurd (.inl h) hs
  | done => exact absurd (.inr (.inl h)) hs
  | adapt n k m => exact absurd (.inr (.inr ⟨n, k, m, h⟩)) hs
  | last k m => exact absurd h (hl k m)
  | _ => rfl

end

/-- The requests to a position, which its answer ends. -/
def requestTo (pos : BitVec 3) : Hop → Bool
  | .eqReq p _ _ => p == pos
  | _ => false

theorem gives_eqAck {t : Nat} {g : GalIx} {l : LaneIx} {pos : BitVec 3} {n : BitVec 5} {cm2 cm1 cp1 cp2 : BitVec 8} {areas : List Nat} {s a u : State}
    (ha : begin t s = a) (hr : hopRuns a g = true)
    (h : (let k := physOf (galAt a g) pos.toNat
      let c : Coef := ⟨sbyte cm2.toNat, sbyte cm1.toNat, sbyte cp1.toNat, sbyte cp2.toNat⟩
      let b := a |> takeHop g (.eqAck pos n cm2 cm1 cp1 cp2) |> modLane g k (fun L => { L with farCoef := c })
      if n.toNat ≠ (laneAt a g k).eqCount then b else afterAnswer g pos c areas (galAt a g) (laneAt a g k) (stopRep g (requestTo pos) b)) = u) :
    Gives (.eqAckReceive t g l pos n cm2 cm1 cp1 cp2 areas) s u := by
  refine gives_at (A := execEqAckReceive t g l pos n cm2 cm1 cp1 cp2 areas s) rfl rfl ha hr (Eq.trans ?_ h)
  simp only [physOf_takeHop, lane_takeHop, ts_takeHop, attempt_takeHop, tread_takeHop, setRx_takeHop]
  rfl

/-- Settles O33. A probe, a timer, a request and an answer are each taken by the function that says what they make of the state; the rest are the rows' own branches. -/
theorem detectionExchangeAndEqualise : Obligations.DetectionExchangeAndEqualise := by
  unfold Obligations.DetectionExchangeAndEqualise
  constructor
  · intro t g s
    generalize ha : begin t s = a
    dsimp only
    intro hr
    have hres : ¬ (fromDetect (galAt a g) = true ∧ (galAt a g).farCap = none) ↔
        (!decide (fromDetect (galAt a g) = true ∧ (galAt a g).farCap.isNone = true)) = true := by
      simp only [Bool.not_eq_true', decide_eq_false_iff_not, Option.isNone_iff_eq_none]
    refine ⟨fun clk found ht => ⟨fun hs hc hp => ?_, fun hs hc => ?_, fun h => ?_⟩, fun ht clk found => ?_, fun ht => ?_, fun ht => ?_, fun ht => ?_, fun ht => ?_,
      fun h1 h2 h3 => ?_, ⟨?_, ?_, ?_, ?_, ?_, ?_, ?_, ?_⟩, fun e he => ⟨fun ht hn => ?_, fun h => ?_⟩, fun he => ?_⟩
    · exact gives_detectProbe ha hr ht (if_pos ⟨by simp [hs], hc, hp⟩)
    · exact gives_detectProbe ha hr ht ((if_neg (by simp [hs])).trans (if_pos ⟨hs, by simp [hc]⟩))
    · refine gives_detectProbe ha hr ht ((if_neg ?_).trans (if_neg ?_))
      · rintro ⟨k1, k2, k3⟩
        rcases h with ⟨h1, h2⟩ | ⟨h1, h2 | h2⟩
        · simp [h1] at k1
        · simp [h2] at k2
        · omega
      · rintro ⟨k1, k2⟩
        rcases h with ⟨h1, h2⟩ | ⟨h1, -⟩
        · simp [h2] at k2
        · simp [h1] at k1
    · exact gives_rests (A := execDetectProbe t g clk found s) rfl rfl ha (by simp [ht])
    · exact gives_rests (A := execClockActivitySeen t g s) rfl rfl ha (by simp [ht])
    · exact gives_at (A := execClockActivitySeen t g s) rfl rfl ha (by simp [hr, ht]) rfl
    · exact gives_at (A := execTerminationLost t g s) rfl rfl ha hr (if_pos ht)
    · refine gives_at (A := execTerminationLost t g s) rfl rfl ha hr ((if_neg ?_).trans (if_pos ht))
      rcases ht with h | ⟨h, -⟩ <;> simp [h]
    · exact gives_at (A := execTerminationLost t g s) rfl rfl ha hr ((if_neg h1).trans (if_neg (by rintro (k | k); exacts [h2 k, h3 k])))
    · rintro ⟨hts, hd, m, hm, hle⟩
      exact gives_timer_due ha hr hts hd hm hle rfl
    · rintro ⟨hts, hd, m, hm, hle⟩
      exact gives_timer_due ha hr hts hd hm hle rfl
    · rintro ⟨hts, hd, m, hm, hle⟩
      exact gives_timer_due ha hr hts hd hm hle rfl
    · rintro ⟨hts, hd, m, hm, hle⟩ hx
      exact gives_timer_due ha hr hts hd hm hle ((if_neg (by decide)).trans ((if_neg (by decide)).trans (if_pos ⟨rfl, .inl rfl, hres.1 hx⟩)))
    · rintro ⟨hts, hd, m, hm, hle⟩ hx
      exact gives_timer_due ha hr hts hd hm hle ((if_neg (by decide)).trans ((if_neg (by decide)).trans (if_pos ⟨rfl, .inr rfl, hres.1 hx⟩)))
    · rintro rx ts ⟨hts, hd, m, hm, hle⟩ h1 h2 h3
      refine gives_timer_due ha hr hts hd hm hle ((if_neg h1).trans ((if_neg h2).trans (if_neg ?_)))
      rintro ⟨k1, k2, k3⟩
      exact h3 ⟨by simpa using k1, k2, hres.2 k3⟩
    · intro rx m hm hlt
      exact gives_timer_early ha hr fun n hn => .inl (by rw [hm] at hn; cases hn; exact hlt)
    · intro rx h
      refine gives_timer_early ha hr fun n hn => .inr (h.resolve_left ?_)
      rw [hn]; exact Option.some_ne_none n
    · exact gives_at (A := execBackoffExpiry t g s) rfl rfl ha hr (by simp only [he]; exact if_pos ⟨hn, ht⟩)
    · refine gives_at (A := execBackoffExpiry t g s) rfl rfl ha hr ?_
      simp only [he]
      refine if_neg ?_
      rintro ⟨h1, h2⟩
      rcases h with h | h
      · exact h h2
      · omega
    · exact gives_at (A := execBackoffExpiry t g s) rfl rfl ha hr (by simp only [he])
  · intro t g l s
    generalize ha : begin t s = a
    dsimp only
    intro hr
    refine ⟨fun c => ⟨fun ht => ?_, fun ht => ?_⟩, fun x => ⟨fun ht => ?_, fun c ht hc => ⟨fun hx => ?_, fun hx => ?_⟩, fun ht h => ?_⟩,
      fun pos n q => ⟨fun h => ?_, fun h hm => ?_, fun h hm => ?_, fun h1 h2 h3 h4 => ?_⟩,
      fun pos n cm2 cm1 cp1 cp2 areas => ⟨fun hn => ?_, fun hn => ⟨fun h => ?_, fun peak area ho hs => ?_, fun ho hs hp => ?_⟩⟩,
      fun sums vga drift => ⟨fun h => ?_, fun n k x ho hs => ⟨fun hn => ?_, fun hn => ?_⟩⟩⟩
    · exact gives_at (A := execCapReceive t g l c s) rfl rfl ha hr (if_pos ((ts_takeHop ..).trans ht))
    · exact gives_at (A := execCapReceive t g l c s) rfl rfl ha hr (if_neg (by rw [ts_takeHop]; exact ht))
    · exact gives_at (A := execLandingReceive t g l x s) rfl rfl ha hr (by simp only [ts_takeHop, ht])
    · refine gives_at (A := execLandingReceive t g l x s) rfl rfl ha hr ?_
      simp only [ts_takeHop, farCap_takeHop, farLanding_takeHop, ht, hc, bne_iff_ne.2 hx, doIf_true]
    · refine gives_at (A := execLandingReceive t g l x s) rfl rfl ha hr ?_
      simp only [ts_takeHop, farCap_takeHop, farLanding_takeHop, ht, hc, hx, bne_self_eq_false, doIf_false]
    · refine gives_at (A := execLandingReceive t g l x s) rfl rfl ha hr ?_
      simp only [ts_takeHop, farCap_takeHop]
      split
      · contradiction
      · rename_i hts
        rw [h.resolve_left (by simp [hts])]
      · rfl
    · refine gives_eqReq_applies ha hr ?_ (if_neg ?_)
      · rcases h with h | ⟨h, h'⟩ <;> simp [takesRequests, *]
      · rcases h with h | ⟨h, h'⟩ <;> simp [h]
    · refine gives_eqReq_applies ha hr ?_ (if_neg (by simp [hm]))
      rcases h with h | h <;> simp [takesRequests, h]
    · refine gives_eqReq_applies ha hr ?_ (if_pos ⟨h, hm⟩)
      rcases h with h | h <;> simp [takesRequests, h]
    · exact gives_eqReq_ignored ha hr (by simpa [takesRequests, h1, h2, h3] using h4)
    · exact gives_eqAck ha hr (if_pos hn)
    · refine gives_eqAck ha hr ((if_neg (not_not.2 hn)).trans ?_)
      exact afterAnswer_still h
    · refine gives_eqAck ha hr ((if_neg (not_not.2 hn)).trans ?_)
      exact afterAnswer_last ho hs
    · refine gives_eqAck ha hr ((if_neg (not_not.2 hn)).trans ?_)
      exact afterAnswer_step ho hs hp
    · refine gives_at (A := execAdaptationWindowEnd t g l sums vga drift s) rfl rfl ha (by simp [adapting, hr]) ?_
      dsimp only
      split
      · rename_i n k x ho hs
        rcases h with h | h
        · exact absurd ho (by rw [h]; exact Bool.false_ne_true)
        · exact absurd hs (h n k x)
      · rfl
    · refine gives_at (A := execAdaptationWindowEnd t g l sums vga drift s) rfl rfl ha (by simp [adapting, hr]) ?_
      have hs' : (galAt a g).lanes[l].search = .adapt n k x := hs
      simp only [ho, hs', if_pos hn]
      rfl
    · refine gives_at (A := execAdaptationWindowEnd t g l sums vga drift s) rfl rfl ha (by simp [adapting, hr]) ?_
      have hs' : (galAt a g).lanes[l].search = .adapt n k x := hs
      simp only [ho, hs', if_neg (show ¬ n ≤ 1 by omega)]
      rfl

end Sys2Proof.Machine
end

section
/-! Qualification and its report (R126, R136 to R139). -/

open Sys2Proof

namespace Sys2Proof.Machine

@[simp] theorem countdown_takeHop (g : GalIx) (h : Hop) (s : State) : (galAt (takeHop g h s) g).rx.countdown = (galAt s g).rx.countdown := by rw [galAt_takeHop]

@[simp] theorem prbsOn_takeHop (g : GalIx) (h : Hop) (s : State) : (galAt (takeHop g h s) g).rx.prbsOn = (galAt s g).rx.prbsOn := by rw [galAt_takeHop]

@[simp] theorem fecT3_takeHop (g : GalIx) (h : Hop) (s : State) : (galAt (takeHop g h s) g).fecT3 = (galAt s g).fecT3 := by rw [galAt_takeHop]

theorem gives_qual {t : Nat} {g : GalIx} {l : LaneIx} {tread : BitVec 3} {fec : BitVec 1} {n : BitVec 16} {s a u : State} (ha : begin t s = a)
    (hr : hopRuns a g = true)
    (h : (let r := (galAt a g).rx
      let b := takeHop g (.qual tread fec n) a
      if r.ts = .equalise ∨ (r.ts = .qualify ∧ r.countdown = 0 ∧ !r.prbsOn) then
        b |> modRx g (fun r => { r with ts := .qualify, at_ := a.now, countdown := n.toNat, prbsOn := false }) |> stopRequests g
      else if (r.ts = .qualify ∨ (r.ts = .active ∧ r.attempt.step = 3)) ∧ !r.prbsOn then modRx g (fun r => { r with countdown := n.toNat }) b
      else b) = u) : Gives (.qualReceive t g l tread fec n) s u := by
  refine gives_at (A := execQualReceive t g l tread fec n s) rfl rfl ha hr (Eq.trans ?_ h)
  simp only [ts_takeHop, countdown_takeHop, prbsOn_takeHop, attempt_takeHop, now_takeHop]

theorem now_forAll_modLane {α : Type u} (g : GalIx) (k : α → LaneIx) (f : α → Lane → Lane) (l : List α) (a : State) :
    (forAll l (fun p => modLane g (k p) (f p)) a).now = a.now :=
  forAll_keeps (f := fun p => modLane g (k p) (f p)) (P := fun u => u.now = a.now) (fun _ _ h => h) l rfl

/-- Keeping what lanes send as their best takes no time. -/
theorem now_doIf_forAll_modLane {α : Type u} (c : Bool) (g : GalIx) (k : α → LaneIx) (f : α → Lane → Lane) (l : List α) (a : State) :
    (doIf c (forAll l fun p => modLane g (k p) (f p)) a).now = a.now := by
  cases c
  · rfl
  · exact now_forAll_modLane g k f l a

theorem now_modTx (g : GalIx) (f : TxDir → TxDir) (s : State) : (modTx g f s).now = s.now := rfl

/-- Settles O34. A RESULT is taken by what R138 decides; the moments and lanes it sets are those of the state it came to. -/
theorem qualifyAndReport : Obligations.QualifyAndReport := by
  unfold Obligations.QualifyAndReport
  intro t g l s
  generalize ha : begin t s = a
  dsimp only
  intro hr
  refine ⟨fun tread fec n => ⟨fun h => ?_, fun h hp => ?_, fun h hp => ?_, fun h1 h2 h3 => ?_⟩, fun h => ?_, fun h1 h2 => ?_,
    ⟨fun hp ht => ?_, fun p n hp ht hl => ?_, fun h => ?_⟩,
    fun results => ⟨fun ht => ?_, fun ht hs => ⟨fun hg => ?_, fun hg => ?_⟩, fun h1 h2 => ?_⟩,
    fun r => ⟨fun h1 h2 => ?_, fun hx => ⟨fun hd => ?_, fun q action m hd => ?_, fun hd => ?_⟩⟩⟩
  · refine gives_qual ha hr (if_pos ?_)
    simpa using h
  · refine gives_qual ha hr ((if_neg ?_).trans (if_pos ?_))
    · rcases h with ⟨h, h'⟩ | ⟨h, h'⟩ <;> simp [h, h']
    · rcases h with ⟨h, h'⟩ | ⟨h, h'⟩ <;> simp [h, h', hp]
  · refine gives_qual ha hr ((if_neg ?_).trans (if_neg (by simp [hp])))
    rcases h with h | h <;> simp [h, hp]
  · refine gives_qual ha hr ((if_neg (by simp [h1, h2])).trans (if_neg ?_))
    rintro ⟨h | h, -⟩
    exacts [h2 h, h3 h]
  · exact gives_at (A := execQualCountdownEnd t g true s) rfl rfl ha hr ((if_pos rfl).trans (if_pos h))
  · refine gives_at (A := execQualCountdownEnd t g true s) rfl rfl ha hr ((if_pos rfl).trans (if_neg ?_))
    rintro (h | h)
    exacts [h1 h, h2 h]
  · refine gives_at (A := execQualCountdownEnd t g false s) rfl rfl ha hr ?_
    simp only [hp, ht, Bool.false_eq_true, Option.isSome_none, ↓reduceIte]
    rfl
  · refine gives_at (A := execQualCountdownEnd t g false s) rfl rfl ha hr ?_
    simp only [hp, ht, hl, Bool.false_eq_true, Option.isSome_none, reduceCtorEq, ↓reduceIte]
    rfl
  · refine gives_at (A := execQualCountdownEnd t g false s) rfl rfl ha hr ?_
    simp only [Bool.false_eq_true, ↓reduceIte]
    rcases h with h | ⟨h1, h2⟩
    · exact if_pos h
    · refine ite_eq_left_iff.2 fun _ => (if_neg h1).trans ?_
      split
      · rename_i p n hts hl
        exact absurd ⟨hts, by rw [hl]; rfl⟩ h2
      · rfl
  · exact gives_at (A := execQualifyEnd t g results s) rfl rfl ha hr (if_pos ht)
  · exact gives_at (A := execQualifyEnd t g results s) rfl rfl ha hr ((if_neg (by simp [ht])).trans ((if_pos ⟨ht, hs⟩).trans (if_pos hg)))
  · exact gives_at (A := execQualifyEnd t g results s) rfl rfl ha hr ((if_neg (by simp [ht])).trans ((if_pos ⟨ht, hs⟩).trans (if_neg (Bool.eq_false_iff.1 hg))))
  · exact gives_at (A := execQualifyEnd t g results s) rfl rfl ha hr ((if_neg h1).trans (if_neg h2))
  · exact gives_at (A := execResultReceive t g r s) rfl rfl ha hr (if_pos (by rw [tx_takeHop]; exact ⟨h1, h2⟩))
  · refine gives_at (A := execResultReceive t g r s) rfl rfl ha hr ?_
    have hn : ¬ ((galAt a g).tx.ts ≠ .qualify ∧ (galAt a g).tx.ts ≠ .report) := by rintro ⟨h1, h2⟩; exact hx.elim h1 h2
    simp only [tx_takeHop, fecT3_takeHop, if_neg hn, hd, now_doIf_forAll_modLane, now_modTx, now_takeHop]
    cases (galAt a g).tx.target <;> rfl
  · refine gives_at (A := execResultReceive t g r s) rfl rfl ha hr ?_
    have hn : ¬ ((galAt a g).tx.ts ≠ .qualify ∧ (galAt a g).tx.ts ≠ .report) := by rintro ⟨h1, h2⟩; exact hx.elim h1 h2
    simp only [tx_takeHop, fecT3_takeHop, if_neg hn, hd, now_doIf_forAll_modLane, now_modTx, now_takeHop]
  · refine gives_at (A := execResultReceive t g r s) rfl rfl ha hr ?_
    have hn : ¬ ((galAt a g).tx.ts ≠ .qualify ∧ (galAt a g).tx.ts ≠ .report) := by rintro ⟨h1, h2⟩; exact hx.elim h1 h2
    simp only [tx_takeHop, fecT3_takeHop, if_neg hn, hd]

end Sys2Proof.Machine
end

section
/-! Steps, guards, activation and the re-climb (R140 to R151). -/

open Sys2Proof

namespace Sys2Proof.Machine

/-- A change of the receive direction matters by what it makes of that direction alone. -/
theorem modRx_congr {g : GalIx} {f f' : RxDir → RxDir} {s : State} (h : f (galAt s g).rx = f' (galAt s g).rx) : modRx g f s = modRx g f' s :=
  modGal_congr (by rw [h])

theorem doIf_of {c : Bool} (h : c = true) (f : State → State) (s : State) : doIf c f s = f s := by rw [h, doIf_true]

theorem doIf_of_not {c : Bool} (h : c = false) (f : State → State) (s : State) : doIf c f s = s := by rw [h, doIf_false]

theorem rx_stopRep (g : GalIx) (f : Hop → Bool) (s : State) : (galAt (stopRep g f s) g).rx = (galAt s g).rx := by rw [stopRep, galAt_modTx]

theorem now_stopRep (g : GalIx) (f : Hop → Bool) (s : State) : (stopRep g f s).now = s.now := rfl

/-- Settles O35. Each row is taken by the training state of its direction, and by the time where one is asked for. -/
theorem stepsAndActivation : Obligations.StepsAndActivation := by
  unfold Obligations.StepsAndActivation
  intro t g s
  generalize ha : begin t s = a
  dsimp only
  intro hr
  refine ⟨fun b => ⟨fun ht h2 => ?_, fun ht h2 => ?_, fun ht h2 => ?_, fun ht h2 => ?_, fun h1 h2 => ?_⟩,
    fun b hb => ⟨fun ht => ?_, fun ht => ?_⟩, fun b hb => ⟨fun ht => ?_, fun ht => ?_⟩, fun h => ?_, fun h => ?_,
    fun h1 h2 => ?_, fun h => ?_, fun h1 h2 => ?_, fun h => ?_, fun h => ?_, fun h => ?_,
    fun tread fec m n => ⟨fun h => ?_, fun h => ?_⟩, fun r => ⟨fun h => ?_, fun h h' => ?_, fun h h' => ?_⟩,
    fun bits ht => ⟨fun h => ?_, fun h h' => ?_, fun h h' => ?_⟩, fun q ht hq => ⟨fun h => ?_, fun h => ?_⟩, fun h => ?_, fun h bits => ?_⟩
  · refine gives_at (A := execStepReceive t g b s) rfl rfl ha hr ?_
    simp only [galAt_takeHop, ht, h2, ↓reduceIte, now_stopRep, now_takeHop]
    cases (galAt a g).rx.target <;> rfl
  · refine gives_at (A := execStepReceive t g b s) rfl rfl ha hr ?_
    simp only [galAt_takeHop, ht, h2, ↓reduceIte, now_stopRep, now_takeHop]
    refine modRx_congr ?_
    simp only [rx_stopRep, galAt_takeHop]
  · refine gives_at (A := execStepReceive t g b s) rfl rfl ha hr ?_
    simp only [galAt_takeHop, ht, h2, ↓reduceIte]
    refine congrArg (raise _ _) (modRx_congr ?_)
    simp only [rx_stopRep, galAt_takeHop]
  · refine gives_at (A := execStepReceive t g b s) rfl rfl ha hr ?_
    simp only [galAt_takeHop, ht, h2, ↓reduceIte]
  · refine gives_at (A := execStepReceive t g b s) rfl rfl ha hr ?_
    simp only [galAt_takeHop]
  · refine gives_at (A := execStepBoundary t g true s) rfl rfl ha hr ?_
    simp only [hb, ht, ↓reduceIte]
    rfl
  · refine gives_at (A := execStepBoundary t g true s) rfl rfl ha hr ?_
    simp only [hb, ht, ↓reduceIte]
  · refine gives_at (A := execStepBoundary t g false s) rfl rfl ha hr ?_
    simp only [hb, ht, Bool.false_eq_true, ↓reduceIte]
  · refine gives_at (A := execStepBoundary t g false s) rfl rfl ha hr ?_
    simp only [hb, ht, Bool.false_eq_true, ↓reduceIte]
  · refine gives_at (A := execStepBoundary t g true s) rfl rfl ha hr ?_
    simp only [↓reduceIte]
    split
    · rename_i b hb ht; simp [hb, ht] at h
    · rename_i b hb ht; simp [hb, ht] at h
    · rfl
  · refine gives_at (A := execStepBoundary t g false s) rfl rfl ha hr ?_
    simp only [Bool.false_eq_true, ↓reduceIte]
    split
    · rename_i b hb ht; simp [hb, ht] at h
    · rename_i b hb ht; simp [hb, ht] at h
    · rfl
  · exact gives_at (A := execGuardEnd t g true s) rfl rfl ha hr ((if_pos rfl).trans (if_pos ⟨h1, h2⟩))
  · exact gives_at (A := execGuardEnd t g true s) rfl rfl ha hr ((if_pos rfl).trans (if_neg fun h' => h.elim (absurd h'.1) (Nat.not_lt.2 h'.2)))
  · exact gives_at (A := execGuardEnd t g false s) rfl rfl ha hr ((if_neg (by decide)).trans (if_pos ⟨h1, h2⟩))
  · exact gives_at (A := execGuardEnd t g false s) rfl rfl ha hr ((if_neg (by decide)).trans (if_neg fun h' => h.elim (absurd h'.1) (Nat.not_lt.2 h'.2)))
  · exact gives_at (A := execActivateSend t g s) rfl rfl ha hr (if_pos h)
  · exact gives_at (A := execActivateSend t g s) rfl rfl ha hr (if_neg (by rw [h]; decide))
  · refine gives_at (A := execActivateReceive t g tread fec m n s) rfl rfl ha hr ((if_neg (by simp [h])).trans ?_)
    simp only [galAt_takeHop]
    rfl
  · exact gives_at (A := execActivateReceive t g tread fec m n s) rfl rfl ha hr (if_pos (by simpa using h))
  · exact gives_at (A := execRetrainReceive t g r s) rfl rfl ha hr (if_pos (by rw [tx_takeHop]; exact h))
  · exact gives_at (A := execRetrainReceive t g r s) rfl rfl ha hr ((if_neg (by rw [tx_takeHop]; exact h)).trans (if_pos h'))
  · exact gives_at (A := execRetrainReceive t g r s) rfl rfl ha hr ((if_neg (by rw [tx_takeHop]; exact h)).trans (if_neg (by rw [h']; decide)))
  · exact gives_at (A := execStepDownWindow t g bits s) rfl rfl ha (by simp [hr, ht]) (if_pos h)
  · refine gives_at (A := execStepDownWindow t g bits s) rfl rfl ha (by simp [hr, ht]) ((if_neg (Nat.not_lt.2 h)).trans ?_)
    refine doIf_of ?_ _ _
    split at h' <;> simp_all
  · refine gives_at (A := execStepDownWindow t g bits s) rfl rfl ha (by simp [hr, ht]) ((if_neg (Nat.not_lt.2 h)).trans ?_)
    refine doIf_of_not ?_ _ _
    split at h' <;> simp_all
  · refine gives_at (A := execReclimbTimer t g s) rfl rfl ha (by simp [hr, ht]) ?_
    simp only [hq]
    exact if_pos h
  · refine gives_at (A := execReclimbTimer t g s) rfl rfl ha (by simp [hr, ht]) ?_
    simp only [hq]
    exact if_neg h
  · refine gives_same (A := execReclimbTimer t g s) rfl rfl ha fun hok => ?_
    rcases h with h | h
    · simp [h] at hok
    · simp only [h]
  · exact gives_rests (A := execStepDownWindow t g bits s) rfl rfl ha (by simp [h])

end Sys2Proof.Machine
end

section
/-! Loss reports, replay and rejoin (R161 to R175). -/

open Sys2Proof

namespace Sys2Proof.Machine

/-- A REPLAY that answers nothing is left alone. -/
theorem takeReplay_of_not {g : GalIx} {r : ReplayBlk} {s : State} (h : ¬ ((galAt s g).rx.held = true ∧ r.reportId.toNat = (galAt s g).rx.reportId)) :
    takeReplay g r s = s := if_neg h

/-- Settles O36. A report is new, known or none of a running transmitter's; a REPLAY answers the report that waits or none. -/
theorem lossReportsAreAnsweredByReplay : Obligations.LossReportsAreAnsweredByReplay := by
  unfold Obligations.LossReportsAreAnsweredByReplay
  intro t g s
  generalize ha : begin t s = a
  dsimp only
  intro hr
  refine ⟨fun l => ⟨fun ht hn => ⟨fun hf => ?_, fun hf => ?_⟩, fun h => ?_⟩, fun h => ?_, fun h => ⟨?_, ?_⟩, fun h => ?_, fun h h' => ?_,
    fun r => ⟨fun h hl => ?_, fun h hl => ?_, fun h => ?_⟩⟩
  · refine gives_at (A := execLossReceive t g l s) rfl rfl ha hr ((if_neg ?_).trans (if_pos (by rw [tx_takeHop]; exact hf)))
    rw [tx_takeHop]
    rintro (⟨h1, h2⟩ | h)
    exacts [ht.elim h1 h2, hn h]
  · refine gives_at (A := execLossReceive t g l s) rfl rfl ha hr ((if_neg ?_).trans (if_neg (by rw [tx_takeHop, hf]; decide)))
    rw [tx_takeHop]
    rintro (⟨h1, h2⟩ | h)
    exacts [ht.elim h1 h2, hn h]
  · exact gives_at (A := execLossReceive t g l s) rfl rfl ha hr (if_pos (by rw [tx_takeHop]; exact h.symm))
  · exact gives_at (A := execLossReportRepeat t g s) rfl rfl ha hr (doIf_of h _ _)
  · exact gives_at (A := execLossReportRepeat t g s) rfl rfl ha hr (doIf_of_not h _ _)
  · exact gives_at (A := execLossReportRetry t g s) rfl rfl ha hr (doIf_of_not (by simp [h]) _ _)
  · exact gives_at (A := execLossReportRetry t g s) rfl rfl ha hr (doIf_of_not (by simp [h]) _ _)
  · exact gives_at (A := execLossReportRetry t g s) rfl rfl ha hr (doIf_of (by simp [h, h']) _ _)
  · refine gives_at (A := execReplayReceive t g r s) rfl rfl ha hr (congrArg (walkOn g) ((if_pos (by rw [galAt_takeHop]; exact h)).trans ?_))
    simp only [hl, galAt_takeHop, now_takeHop, beq_self_eq_true, Bool.not_true, doIf_false]
    rfl
  · refine gives_at (A := execReplayReceive t g r s) rfl rfl ha hr (congrArg (walkOn g) ((if_pos (by rw [galAt_takeHop]; exact h)).trans ?_))
    have hx : (!(r.lossless == 1#1)) = true := by rw [hl]; decide
    simp only [hx, galAt_takeHop, now_takeHop, doIf_true]
    rfl
  · exact gives_at (A := execReplayReceive t g r s) rfl rfl ha hr (congrArg (walkOn g) (takeReplay_of_not (by rw [galAt_takeHop]; exact h)))

/-- What the limit of an attempt's step comes to. -/
theorem gives_attemptLimit {t : Nat} {g : GalIx} {s a u : State} (ha : begin t s = a) (hr : hopRuns a g = true)
    (h : (let k := (galAt a g).rx.attempt
      let lim := if k.step = 2 then equaliseMax ((galAt a g).rx.tread.getD 0) else if k.step = 3 then 1400000 else 100000
      doIf ((galAt a g).rx.ts == .active && k.step != 0 && k.at_ + lim ≤ a.now) (failedRejoin g k.pos k.step) a) = u) :
    Gives (.rejoinAttemptLimit t g) s u := by
  refine gives_at (A := execRejoinAttemptLimit t g s) rfl rfl ha hr (Eq.trans ?_ h)
  rcases hk : (galAt a g).rx.attempt.step with _ | _ | _ | _ | n <;> simp [hk]

theorem laneCheck_rests {g : GalIx} {pos : BitVec 3} {id : BitVec 16} {a : State} {h : Hop}
    (hn : ¬ ((galAt a g).tx.ts = .active ∧ (galAt a g).tx.checkSeen ≠ some id.toNat ∧ (laneAt a g (laneOf pos.toNat)).txFailed = true)) :
    (galAt (takeHop g h a) g).tx.ts ≠ .active ∨ (galAt (takeHop g h a) g).tx.checkSeen = some id.toNat ∨
      (!(laneAt (takeHop g h a) g (laneOf pos.toNat)).txFailed) = true := by
  simp only [tx_takeHop, laneAt_takeHop, Bool.not_eq_true']
  by_contra hc
  simp only [not_or, not_not] at hc
  exact hn ⟨hc.1, hc.2.1, by simpa using hc.2.2⟩

theorem laneCheck_takes {g : GalIx} {pos : BitVec 3} {id : BitVec 16} {a : State} {h : Hop}
    (hn : (galAt a g).tx.ts = .active ∧ (galAt a g).tx.checkSeen ≠ some id.toNat ∧ (laneAt a g (laneOf pos.toNat)).txFailed = true) :
    ¬ ((galAt (takeHop g h a) g).tx.ts ≠ .active ∨ (galAt (takeHop g h a) g).tx.checkSeen = some id.toNat ∨
      (!(laneAt (takeHop g h a) g (laneOf pos.toNat)).txFailed) = true) := by
  obtain ⟨h1, h2, h3⟩ := hn
  simp only [tx_takeHop, laneAt_takeHop, h1, h3]
  simpa using h2

/-- Whether a REJOIN adds its lane to the receive set of a gallery (R174). -/
def TakesRejoin (G : Gal) (r : RejoinBlk) : Prop :=
  G.rx.ts = .active ∧ G.lanes[physOf G r.pos.toNat].failed ∧ !G.lanes[physOf G r.pos.toNat].retired ∧ !G.rx.held ∧ G.rx.rejoin.isNone

theorem takesRejoin_takeHop (g : GalIx) (h : Hop) (r : RejoinBlk) (s : State) : TakesRejoin (galAt (takeHop g h s) g) r ↔ TakesRejoin (galAt s g) r := by
  rw [galAt_takeHop]
  exact Iff.rfl

/-- Settles O37. An attempt starts on the lowest lane that is due, and a check or a REJOIN is taken where its lane is darned. -/
theorem darnedLanesRejoin : Obligations.DarnedLanesRejoin := by
  unfold Obligations.DarnedLanesRejoin
  intro t g s
  generalize ha : begin t s = a
  dsimp only
  intro hr
  refine ⟨⟨fun p hm hp hd hq => ?_, fun h => ?_⟩, ⟨fun ht hs hl => ?_, fun h => ?_⟩,
    fun pos id => ⟨fun h => ⟨?_, ?_⟩, fun h => ⟨?_, ?_⟩, fun ht hn => ⟨fun hs => ?_, fun hs => ?_⟩, fun h => ?_⟩,
    fun p e hw => ⟨fun h => ?_, fun h => ?_⟩, fun h => ?_, fun r => ⟨fun h => ?_, fun h => ?_⟩⟩
  · refine gives_at (A := execRejoinAttemptStart t g s) rfl rfl ha hr ?_
    obtain ⟨h1, h2, h3, h4, h5⟩ := hm
    have hf : (List.range 8).find? (fun p => attemptDue a.now (galAt a g).lanes[physOf (galAt a g) p]) = some p :=
      List.find?_range_eq_some.2 ⟨hd, List.mem_range.2 hp, fun q hlt => by
        rw [show attemptDue a.now (galAt a g).lanes[physOf (galAt a g) q] = false from hq q hlt]; decide⟩
    simp only [hf]
    exact if_pos ⟨h1, h2, by rw [h3]; rfl, by rw [h4]; rfl, by rw [h5]; rfl⟩
  · refine gives_at (A := execRejoinAttemptStart t g s) rfl rfl ha hr ?_
    dsimp only
    split
    · rename_i p hf
      have hd := List.find?_range_eq_some.1 hf
      rcases h with h | h
      · refine if_neg fun ⟨h1, h2, h3, h4, h5⟩ => h ⟨h1, h2, by simpa using h3, by simpa using h4, by simpa using h5⟩
      · exact absurd (h p (List.mem_range.1 hd.2.1)) (by rw [show attemptDue a.now (laneAt a g (physOf (galAt a g) p)) = true from hd.1]; decide)
    · rfl
  · exact gives_attemptLimit ha hr (doIf_of (by simp only [ht, hl]; simpa using hs) _ _)
  · refine gives_attemptLimit ha hr (doIf_of_not ?_ _ _)
    rcases h with h | h | h
    · simp [h]
    · simp [h]
    · simp only [decide_eq_false (Nat.not_le.2 h), Bool.and_false]
  · refine gives_at (A := execLaneCheckQualify t g pos id s) rfl rfl ha hr ((if_neg (laneCheck_takes h)).trans ?_)
    simp only [tx_takeHop] <;> rfl
  · exact gives_at (A := execLaneCheckReady t g pos id s) rfl rfl ha hr (if_neg (laneCheck_takes h))
  · exact gives_at (A := execLaneCheckQualify t g pos id s) rfl rfl ha hr (if_pos (laneCheck_rests h))
  · exact gives_at (A := execLaneCheckReady t g pos id s) rfl rfl ha hr (if_pos (laneCheck_rests h))
  · refine gives_at (A := execLaneCheckRetire t g pos id s) rfl rfl ha hr ((if_neg ?_).trans (if_pos (by rw [tx_takeHop]; exact hs)))
    rw [tx_takeHop, lane_takeHop, ht, hn]
    decide
  · refine gives_at (A := execLaneCheckRetire t g pos id s) rfl rfl ha hr ((if_neg ?_).trans (if_neg (by rw [tx_takeHop, hs]; decide)))
    rw [tx_takeHop, lane_takeHop, ht, hn]
    decide
  · refine gives_at (A := execLaneCheckRetire t g pos id s) rfl rfl ha hr (if_pos ?_)
    rw [tx_takeHop, lane_takeHop]
    exact h
  · refine gives_at (A := execSidebandWaitExpiry t g s) rfl rfl ha hr ?_
    simp only [hw]
    exact doIf_of (decide_eq_true h) _ _
  · refine gives_at (A := execSidebandWaitExpiry t g s) rfl rfl ha hr ?_
    simp only [hw]
    exact doIf_of_not (decide_eq_false (Nat.not_le.2 h)) _ _
  · refine gives_at (A := execSidebandWaitExpiry t g s) rfl rfl ha hr ?_
    simp only [h]
  · refine gives_at (A := execRejoinReceive t g r s) rfl rfl ha hr (congrArg (walkOn g) ((if_pos ?_).trans ?_))
    · obtain ⟨h1, h2, h3, h4, h5⟩ := h
      exact (takesRejoin_takeHop g (.rejoin r) r a).2 ⟨h1, h2, by rw [← Bool.not_eq_true'] at h3; exact h3, by rw [h4]; rfl, by rw [h5]; rfl⟩
    · simp only [galAt_takeHop]
      rfl
  · refine gives_at (A := execRejoinReceive t g r s) rfl rfl ha hr (congrArg (walkOn g) (if_neg ?_))
    rintro hc
    obtain ⟨h1, h2, h3, h4, h5⟩ := (takesRejoin_takeHop g (.rejoin r) r a).1 hc
    exact h ⟨h1, h2, by rw [Bool.not_eq_true'] at h3; exact h3, by simpa using h4, by simpa using h5⟩

end Sys2Proof.Machine
end

section
/-! Credits (R200 to R215). -/

open Sys2Proof

namespace Sys2Proof.Machine

@[simp] theorem ctx_takeHop (g : GalIx) (h : Hop) (s : State) : (galAt (takeHop g h s) g).ctx = (galAt s g).ctx := by rw [galAt_takeHop]

/-- A moment is kept and lies a time back. -/
theorem isSome_elapsed_iff {now n : Nat} {x : Option Nat} : (x.isSome && elapsed now n x) = true ↔ ∃ e, x = some e ∧ e + n ≤ now := by
  cases x <;> simp [elapsed]

/-- What a credit block whose advance has waited long enough does, and what one does that has not. -/
theorem gives_creditPending {t : Nat} {g : GalIx} {s a : State} {p q : Bool} (ha : begin t s = a) (hr : creditsRun a g = true)
    (hp : ((galAt a g).crx.advancedA.isSome && elapsed a.now 1000 (galAt a g).crx.advancedA) = p)
    (hq : ((galAt a g).crx.advancedB.isSome && elapsed a.now 1000 (galAt a g).crx.advancedB) = q) :
    Gives (.creditPendingTimeout t g) s (doIf q (sendCreditB g) (doIf p (sendCreditA g) a)) :=
  gives_at (A := execCreditPendingTimeout t g s) rfl rfl ha hr (by rw [← hp, ← hq])

/-- Settles O38. A block of credits is taken where they are heard; what time sends, an ACTIVE transmitter sends once its time has elapsed. -/
theorem creditsAreTakenAndSent : Obligations.CreditsAreTakenAndSent := by
  unfold Obligations.CreditsAreTakenAndSent
  constructor
  · intro t g s
    generalize ha : begin t s = a
    dsimp only
    intro hr hh
    have hok : creditsHeard a g = true := by rw [creditsHeard, hr, hh]; rfl
    refine ⟨⟨fun px pm d => ?_, fun np cp d => ?_⟩, fun quota reach => ?_, fun id => ⟨fun h => ?_, fun h => ?_⟩, fun id => ⟨fun e he hi => ?_, fun h => ?_⟩,
      fun px pm => ⟨fun h => ?_, fun h => ?_⟩, fun np cp => ⟨fun h => ?_, fun h => ?_⟩⟩
    · exact gives_at (A := execCreditAReceive t g px pm d s) rfl rfl ha hok rfl
    · exact gives_at (A := execCreditBReceive t g np cp d s) rfl rfl ha hok rfl
    · exact gives_at (A := execInfoReceive t g quota reach s) rfl rfl ha hok rfl
    · exact gives_at (A := execProbeReceive t g id s) rfl rfl ha hok (if_neg (by rw [ctx_takeHop]; exact h))
    · exact gives_at (A := execProbeReceive t g id s) rfl rfl ha hok (if_pos (by rw [ctx_takeHop]; exact h))
    · refine gives_at (A := execEchoReceive t g id s) rfl rfl ha hok ?_
      simp only [ctx_takeHop, he, hi, ↓reduceIte, now_takeHop]
    · refine gives_at (A := execEchoReceive t g id s) rfl rfl ha hok ?_
      rcases h with h | h
      · simp only [ctx_takeHop, h]
      · simp only [ctx_takeHop, h, ↓reduceIte]
        cases (galAt a g).ctx.probeAt <;> rfl
    · exact gives_at (A := execSentAReceive t g px pm s) rfl rfl ha hok (if_pos h)
    · exact gives_at (A := execSentAReceive t g px pm s) rfl rfl ha hok (if_neg (by rw [h]; decide))
    · exact gives_at (A := execSentBReceive t g np cp s) rfl rfl ha hok (if_pos h)
    · exact gives_at (A := execSentBReceive t g np cp s) rfl rfl ha hok (if_neg (by rw [h]; decide))
  · intro t g s
    generalize ha : begin t s = a
    dsimp only
    intro hr
    refine ⟨fun ht => ?_, fun ht => ?_, fun k => ⟨fun h => ?_, fun h => ?_⟩⟩
    · have hok : creditsRun a g = true := by rw [creditsRun, hr, ht]; rfl
      refine ⟨⟨fun h1 h2 => ?_, fun h1 h2 => ?_, fun h1 h2 => ?_, fun h1 h2 => ?_⟩, fun h => ?_, fun h => ?_, fun h => ?_, fun h => ?_, fun h => ?_, fun h => ?_⟩
      · rw [← isSome_elapsed_iff] at h1 h2
        rw [Bool.not_eq_true] at h2
        simpa only [doIf_true, doIf_false] using gives_creditPending ha hok h1 h2
      · rw [← isSome_elapsed_iff] at h1 h2
        rw [Bool.not_eq_true] at h1
        simpa only [doIf_true, doIf_false] using gives_creditPending ha hok h1 h2
      · rw [← isSome_elapsed_iff] at h1 h2
        simpa only [doIf_true, doIf_false] using gives_creditPending ha hok h1 h2
      · rw [← isSome_elapsed_iff, Bool.not_eq_true] at h1 h2
        simpa only [doIf_true, doIf_false] using gives_creditPending ha hok h1 h2
      · exact gives_at (A := execCreditRefresh t g s) rfl rfl ha hok (doIf_of h _ _)
      · exact gives_at (A := execCreditRefresh t g s) rfl rfl ha hok (doIf_of_not h _ _)
      · exact gives_at (A := execSentPeriod t g s) rfl rfl ha hok (doIf_of h _ _)
      · exact gives_at (A := execSentPeriod t g s) rfl rfl ha hok (doIf_of_not h _ _)
      · exact gives_at (A := execProbePeriod t g s) rfl rfl ha hok (doIf_of h _ _)
      · exact gives_at (A := execProbePeriod t g s) rfl rfl ha hok (doIf_of_not h _ _)
    · have hok : creditsRun a g = false := by rw [creditsRun, hr, Bool.true_and, beq_eq_false_iff_ne]; exact ht
      exact ⟨gives_rests (A := execCreditPendingTimeout t g s) rfl rfl ha hok, gives_rests (A := execCreditRefresh t g s) rfl rfl ha hok,
        gives_rests (A := execSentPeriod t g s) rfl rfl ha hok, gives_rests (A := execProbePeriod t g s) rfl rfl ha hok⟩
    · refine gives_at (A := execClassIdleTimeout t g k s) rfl rfl ha hr (if_pos ?_)
      obtain ⟨h1, h2, h3⟩ := h
      exact ⟨h1, by rw [h2]; rfl, h3⟩
    · refine gives_at (A := execClassIdleTimeout t g k s) rfl rfl ha hr (if_neg ?_)
      rintro ⟨h1, h2, h3⟩
      exact h ⟨h1, by rw [Bool.not_eq_true'] at h2; exact h2, h3⟩

end Sys2Proof.Machine
end

section
/-! Placement: the records that arrive and the runs of the Cutter (R220 to R256). -/

open Sys2Proof

namespace Sys2Proof.Machine

/-! ## Time passes by the beginning of a command alone: the operations keep it -/

@[simp] theorem now_ite (c : Prop) [Decidable c] (a b : State) : (if c then a else b).now = if c then a.now else b.now := by
  split <;> rfl

@[simp] theorem now_doIf (c : Bool) (f : State → State) (s : State) (h : (f s).now = s.now) : (doIf c f s).now = s.now := by
  cases c
  · rfl
  · exact h

@[simp] theorem now_forAll {α : Type u} (l : List α) (f : α → State → State) (s : State) (h : ∀ a u, (f a u).now = u.now) :
    (forAll l f s).now = s.now :=
  forAll_keeps (P := fun u => u.now = s.now) (fun a u hu => (h a u).trans hu) l rfl

@[simp] theorem now_forAll_modGal {α : Type u} (l : List α) (k : α → GalIx) (f : α → Gal → Gal) (s : State) :
    (forAll l (fun x => modGal (k x) (f x)) s).now = s.now :=
  now_forAll l _ s fun _ _ => rfl

@[simp] theorem now_emit (o : Output) (s : State) : (emit o s).now = s.now := (rfl)

@[simp] theorem now_modRx (g : GalIx) (f : RxDir → RxDir) (s : State) : (modRx g f s).now = s.now := (rfl)

@[simp] theorem now_modLane (g : GalIx) (l : LaneIx) (f : Lane → Lane) (s : State) : (modLane g l f s).now = s.now := (rfl)

@[simp] theorem now_countLane (id : Nat) (g : GalIx) (l : LaneIx) (s : State) : (countLane id g l s).now = s.now := (rfl)

@[simp] theorem now_countGal (id : Nat) (g : GalIx) (inst : Nat) (s : State) : (countGal id g inst s).now = s.now := (rfl)

@[simp] theorem now_countDev (id inst : Nat) (s : State) : (countDev id inst s).now = s.now := (rfl)

@[simp] theorem now_requestSwitch (i : Nat) (toRun : Bool) (incoming : RefSrc) (s : State) : (requestSwitch i toRun incoming s).now = s.now := (rfl)

@[simp] theorem now_lockIsland (g : GalIx) (s : State) : (lockIsland g s).now = s.now := (rfl)

@[simp] theorem now_originate (p : Parcel) (gs : List GalIx) (s : State) : (originate p gs s).now = s.now := (rfl)

@[simp] theorem now_intoMgmt (port arrival : Nat) (p : Parcel) (s : State) : (intoMgmt port arrival p s).now = s.now := (rfl)

@[simp] theorem now_sendHere (p : Parcel) (s : State) : (sendHere p s).now = s.now := (rfl)

@[simp] theorem now_sendRouted (p : Parcel) (arrival : Option GalIx) (s : State) : (sendRouted p arrival s).1.now = s.now := by
  unfold sendRouted
  generalize route s (pDest p) = r
  cases r with
  | fwd gals spread nd => simp [apply_ite Prod.fst]
  | here => simp [apply_ite Prod.fst]
  | _ => cases arrival <;> simp [apply_ite Prod.fst]

@[simp] theorem now_toSink (k : Fin 4) (sev : Nat) (mk : Nat → List Byte) (region : Option Region) (refsData : Bool) (s : State) : (toSink k sev mk region refsData s).now = s.now := by
  unfold toSink
  simp

@[simp] theorem now_toRing (k : Fin 4) (sev : Nat) (mk : Nat → List Byte) (s : State) : (toRing k sev mk s).now = s.now := by
  unfold toRing
  simp

@[simp] theorem now_toStream (e : LogEntry) (s : State) : (toStream e s).now = s.now := by
  unfold toStream
  split <;> simp

@[simp] theorem now_toLog (code sev : Nat) (body : List Byte) (s : State) : (toLog code sev body s).now = s.now := by
  unfold toLog
  simp

@[simp] theorem now_trigger (code : Nat) (s : State) : (trigger code s).now = s.now := by
  unfold trigger
  simp

@[simp] theorem now_raiseTo (sinks : Bool) (code : Nat) (body : List Byte) (region : Option Region) (s : State) : (raiseTo sinks code body region s).now = s.now := by
  unfold raiseTo
  simp

@[simp] theorem now_raise (code : Nat) (body : List Byte) (s : State) : (raise code body s).now = s.now := by
  unfold raise
  simp

@[simp] theorem now_raiseRegion (code : Nat) (region : Region) (body : List Byte) (s : State) : (raiseRegion code region body s).now = s.now := by
  unfold raiseRegion
  simp

@[simp] theorem now_afterDevice (s0 s : State) : (afterDevice s0 s).now = s.now := by
  unfold afterDevice
  simp

@[simp] theorem now_noteSafety (s : State) : (noteSafety s).now = s.now := (rfl)

@[simp] theorem now_muteRegion (r : Nat) (s : State) : (muteRegion r s).now = s.now := by
  unfold muteRegion
  simp

@[simp] theorem now_addReason (r : Nat) (reason : SafeReason) (code gallery : Nat) (report : Bool) (s : State) : (addReason r reason code gallery report s).now = s.now := by
  unfold addReason
  simp

@[simp] theorem now_dropReasons (r : Nat) (f : SafeReason → Bool) (s : State) : (dropReasons r f s).now = s.now := (rfl)

@[simp] theorem now_writeSafety (e : SafetyWait) (s : State) : (writeSafety e s).now = s.now := by
  unfold writeSafety
  simp

@[simp] theorem now_noteFull (s : State) : (noteFull s).now = s.now := by
  unfold noteFull
  simp

@[simp] theorem now_safetyLog (requester action target : Nat) (node : BitVec 16) (status cause : Nat) (old new detail : List Byte) (s : State) : (safetyLog requester action target node status cause old new detail s).now = s.now := by
  unfold safetyLog
  simp

@[simp] theorem now_writeWaiting (s : State) : (writeWaiting s).now = s.now := by
  unfold writeWaiting
  simp

@[simp] theorem now_lockGroup (grp : Nat) (rec : LockRec) (s : State) : (lockGroup grp rec s).now = s.now := by
  unfold lockGroup
  simp

@[simp] theorem now_lockDevice (cause which : Nat) (rec : LockRec) (s : State) : (lockDevice cause which rec s).now = s.now := by
  unfold lockDevice
  simp

@[simp] theorem now_internalTrip (cause which : Nat) (set : Safety → Safety) (s : State) : (internalTrip cause which set s).now = s.now := by
  unfold internalTrip
  simp

@[simp] theorem now_loseTable (s : State) : (loseTable s).now = s.now := by
  unfold loseTable
  simp

@[simp] theorem now_fenceCopy (b : Bool) (r : Nat) (s : State) : (fenceCopy b r s).now = s.now := by
  unfold fenceCopy
  simp

@[simp] theorem now_readEntry (r : Nat) (s : State) : (readEntry r s).2.now = s.now := by
  unfold readEntry
  dsimp only
  (repeat' split) <;> simp

@[simp] theorem now_audit (r : Nat) (s : State) : (audit r s).now = s.now := by
  unfold audit
  simp

@[simp] theorem now_auditAll (s : State) : (auditAll s).now = s.now := by
  unfold auditAll
  simp

@[simp] theorem now_modRegionIn (r : Nat) (f : RegionIn → RegionIn) (s : State) : (modRegionIn r f s).now = s.now := (rfl)

@[simp] theorem now_announceRec (r : Nat) (a : AnnRec) (w : Bool) (s : State) : (announceRec r a w s).now = s.now := by
  unfold announceRec
  simp

@[simp] theorem now_announceChange (r : Nat) (o : Option AnnRec) (w : Bool) (s : State) : (announceChange r o w s).now = s.now := by
  unfold announceChange
  split <;> simp

@[simp] theorem now_takeAnn (g : GalIx) (r : Nat) (w : Bool) (a : AnnRec) (s : State) : (takeAnn g r w a s).now = s.now := by
  unfold takeAnn
  simp

/-- Two operations done for each element come to the same where they agree on every state that they come through. -/
theorem forAll_congr_of {α : Type u} {P : State → Prop} {f f' : α → State → State} (hf : ∀ x u, P u → f x u = f' x u) (hP : ∀ x u, P u → P (f' x u))
    (l : List α) {s : State} (h : P s) : forAll l f s = forAll l f' s := by
  unfold forAll
  induction l generalizing s with
  | nil => rfl
  | cons x l ih => rw [List.foldl_cons, List.foldl_cons, hf x s h, ih (hP x s h)]

/-- What a driver fault's message does, from what it says and what is selected for its region. -/
theorem gives_driverFault {t : Nat} {g : GalIx} {p : Parcel} {s a u : State} (ha : begin t s = a) (hr : active a = true) (hg : isNorth g = false)
    (hk : pKind p = 0x07)
    (h : (let b := takeQueued g p a
      let w := field p.payload 0 2
      let r := bits w 11 0
      let kind := bits w 13 12
      let driver := BitVec.ofNat 64 (field p.payload 8 8)
      let old := (monAt b r g).faults
      let rest := old.filter fun f => f.1 != driver || f.2.1 != kind
      if p.payload.length ≠ 16 ∨ kind = 0 then b
      else if bitOf w 14 then
        if rest.length = old.length then b
        else b |> modMon r g (fun m => { m with faults := rest }) |> doIf rest.isEmpty (clearMon 5 r g)
      else if leavesHere b r && (par1 b r 5).testBit (kind - 1) then
        b |> modMon r g (fun m => { m with faults := rest ++ [(driver, kind, b.now)] }) |> tripMon 5 r g
      else b) = u) : Gives (.driverFaultReceive t g p) s u :=
  gives_at (A := execDriverFaultReceive t g p s) rfl rfl ha (by rw [hr, hg, hk]; rfl) h

/-- Settles O39. A message is taken by its kind and the gallery it comes from, and then record by record. -/
theorem placementRecordsAreTaken : Obligations.PlacementRecordsAreTaken := by
  unfold Obligations.PlacementRecordsAreTaken
  intro t g p s
  generalize ha : begin t s = a
  dsimp only
  intro hr
  refine ⟨fun h17 hn hk => ⟨fun h => ?_, fun l h => ?_⟩, fun h17 hn hk => ⟨fun h => ?_, fun l h => ?_⟩, fun h17 => ⟨?_, ?_⟩,
    fun hn hk => ⟨fun h => ?_, fun h he hs => ?_, fun h he hs => ?_, fun h he hl => ?_, fun h he hl hs => ?_, fun h he hl hs => ?_⟩⟩
  · refine gives_at (A := execAnnounceReceive t g p s) rfl rfl ha (by rw [hr, h17, hn, hk]; rfl) ?_
    simp only [h]
  · refine gives_at (A := execAnnounceReceive t g p s) rfl rfl ha (by rw [hr, h17, hn, hk]; rfl) ?_
    simp only [h]
    refine forAll_congr_of (P := fun u => u.now = a.now) (fun x u hu => ?_) (fun x u hu => ?_) l rfl
    · rw [hu] <;> rfl
    · split <;> simp [hu]
  · refine gives_at (A := execClaimReceive t g p s) rfl rfl ha (by rw [hr, h17, hn, hk]; rfl) ?_
    simp only [h]
  · refine gives_at (A := execClaimReceive t g p s) rfl rfl ha (by rw [hr, h17, hn, hk]; rfl) ?_
    simp only [h]
    refine forAll_congr_of (P := fun u => u.now = a.now) (fun x u hu => ?_) (fun x u hu => ?_) l rfl
    · rw [hu] <;> rfl
    · split <;> simp [hu]
  · exact gives_rests (A := execAnnounceReceive t g p s) rfl rfl ha (by simp [h17])
  · exact gives_rests (A := execClaimReceive t g p s) rfl rfl ha (by simp [h17])
  · refine gives_driverFault ha hr hn hk (if_pos ?_)
    rw [not_and_or, not_ne_iff] at h
    exact h
  · refine gives_driverFault ha hr hn hk ((if_neg (not_or.2 ⟨not_not.2 h.1, h.2⟩)).trans ((if_neg (Bool.eq_false_iff.1 he)).trans (if_pos ?_)))
    · rw [Bool.and_eq_true]; exact hs
  · refine gives_driverFault ha hr hn hk ((if_neg (not_or.2 ⟨not_not.2 h.1, h.2⟩)).trans ((if_neg (Bool.eq_false_iff.1 he)).trans (if_neg ?_)))
    · rw [Bool.and_eq_true]; exact hs
  · exact gives_driverFault ha hr hn hk ((if_neg (not_or.2 ⟨not_not.2 h.1, h.2⟩)).trans ((if_pos he).trans (if_pos hl)))
  · refine gives_driverFault ha hr hn hk ((if_neg (not_or.2 ⟨not_not.2 h.1, h.2⟩)).trans ((if_pos he).trans ((if_neg hl).trans (doIf_of_not ?_ _ _))))
    · simpa using hs
  · refine gives_driverFault ha hr hn hk ((if_neg (not_or.2 ⟨not_not.2 h.1, h.2⟩)).trans ((if_pos he).trans ((if_neg hl).trans ((doIf_of ?_ _ _).trans ?_))))
    · rw [hs]; rfl
    · rw [hs]

/-- A run asked for where one may be asked for: its trigger counts in AUTO, or in MANUAL a forced one that holds. -/
theorem gives_runStart {t : Nat} {k : RunTrigger} {s a : State} (ha : begin t s = a)
    (h : a.live.cutMode = .automatic ∨ a.live.cutMode = .manual ∧ k = .forced ∧ forcedHolds a = true) : Gives (.placementRunStart t k) s (startRun a) := by
  refine gives_at (A := execPlacementRunStart t k s) rfl rfl ha ?_ rfl
  rcases h with h | ⟨h, hk, hf⟩
  · simp only [h]
  · simp only [h, hk, hf]

/-- A trigger that does not count starts nothing. -/
theorem gives_runStart_rests {t : Nat} {k : RunTrigger} {s a : State} (ha : begin t s = a)
    (h : ¬ (a.live.cutMode = .automatic ∨ a.live.cutMode = .manual ∧ k = .forced ∧ forcedHolds a = true)) : Gives (.placementRunStart t k) s a := by
  refine gives_rests (A := execPlacementRunStart t k s) rfl rfl ha ?_
  split
  · rename_i hm; exact absurd (.inl hm) h
  · rename_i hm; exact Bool.eq_false_iff.2 fun hf => h (.inr ⟨hm, rfl, hf⟩)
  · rfl

/-- Settles O40. A run starts, follows or is left by what the Cutter may do; what time brings comes once its moment is past. -/
theorem theCutterPlaces : Obligations.TheCutterPlaces := by
  unfold Obligations.TheCutterPlaces
  intro t s
  generalize ha : begin t s = a
  dsimp only
  refine ⟨fun k => ⟨fun h hm hn => ?_, fun h hm hn => ?_, fun h => ?_⟩, fun hr h17 => ⟨fun i hi => ⟨fun hd hl => ?_, fun h => ?_⟩, fun h => ?_⟩,
    fun hr r => ⟨fun e he => ⟨fun h => ?_, fun h => ?_⟩, fun h => ?_⟩, fun hr r => ⟨fun h => ?_, fun h => ?_⟩,
    fun hr h17 r g => ⟨fun x hx => ⟨fun h => ?_, fun h => ?_⟩, fun h => ?_, fun c => ⟨fun k hk => ⟨fun h => ?_, fun h => ?_⟩, fun h => ?_⟩⟩,
    fun g hp hn hr => ⟨fun h => ?_, fun h => ?_⟩, fun hr hp => ⟨fun h => ?_, fun h => ?_⟩⟩
  · have hu := gives_runStart ha h
    simp only [startRun, hm, hn, Bool.not_true, Bool.false_eq_true, Option.isSome_none, ↓reduceIte] at hu
    exact hu
  · have hu := gives_runStart ha h
    simp only [startRun, hm, hn, Bool.not_true, Bool.false_eq_true, ↓reduceIte] at hu
    exact hu
  · by_cases hk : a.live.cutMode = .automatic ∨ a.live.cutMode = .manual ∧ k = .forced ∧ forcedHolds a = true
    · have hu := gives_runStart ha hk
      simp only [startRun, h.resolve_left (not_not.2 hk), Bool.not_false, ↓reduceIte] at hu
      exact hu
    · exact gives_runStart_rests ha hk
  · refine gives_at (A := execPlacementRunDone t s) rfl rfl ha (by rw [hr, h17]; rfl) ?_
    simp only [hi]
    exact if_neg (by rw [hd, hl]; decide)
  · refine gives_at (A := execPlacementRunDone t s) rfl rfl ha (by rw [hr, h17]; rfl) ?_
    simp only [hi]
    exact if_pos (Bool.or_eq_true_iff.2 h)
  · refine gives_at (A := execPlacementRunDone t s) rfl rfl ha (by rw [hr, h17]; rfl) ?_
    simp only [h]
  · refine gives_at (A := execPendingEntryTimeout t r s) rfl rfl ha hr ?_
    simp only [he]
    exact doIf_of (decide_eq_true h) _ _
  · refine gives_at (A := execPendingEntryTimeout t r s) rfl rfl ha hr ?_
    simp only [he]
    exact doIf_of_not (decide_eq_false (Nat.not_le.2 h)) _ _
  · refine gives_at (A := execPendingEntryTimeout t r s) rfl rfl ha hr ?_
    simp only [h]
  · refine gives_at (A := execCutMarkOverdue t r s) rfl rfl ha hr (doIf_of ?_ _ _)
    obtain ⟨h1, h2, h3, ⟨m, hm, hl⟩, ⟨w, k, hw, hk, hc⟩, h6⟩ := h
    simp only [h1, h2, h3, hm, decide_eq_true hl, hw, hk, hc, h6, beq_self_eq_true, Bool.and_self, ge_iff_le]
  · refine gives_at (A := execCutMarkOverdue t r s) rfl rfl ha hr (doIf_of_not (Bool.eq_false_iff.2 fun hc => h ?_) _ _)
    simp only [Bool.and_eq_true] at hc
    obtain ⟨⟨⟨⟨⟨h1, h2⟩, h3⟩, hl⟩, hc⟩, h6⟩ := hc
    refine ⟨h1, h2, beq_iff_eq.1 h3, ?_, ?_, h6⟩
    · split at hl
      · exact ⟨_, ‹_›, of_decide_eq_true hl⟩
      · cases hl
    · split at hc
      · exact ⟨_, _, ‹_›, ‹_›, hc⟩
      · cases hc
  · refine gives_at (A := execRecordExpiry t r g none s) rfl rfl ha (by rw [hr, h17]; rfl) ?_
    simp only [hx]
    exact if_pos h
  · refine gives_at (A := execRecordExpiry t r g none s) rfl rfl ha (by rw [hr, h17]; rfl) ?_
    simp only [hx]
    exact if_neg (Nat.not_le.2 h)
  · refine gives_at (A := execRecordExpiry t r g none s) rfl rfl ha (by rw [hr, h17]; rfl) ?_
    simp only [h]
  · refine gives_at (A := execRecordExpiry t r g (some c) s) rfl rfl ha (by rw [hr, h17]; rfl) ?_
    simp only [hk]
    exact if_pos h
  · refine gives_at (A := execRecordExpiry t r g (some c) s) rfl rfl ha (by rw [hr, h17]; rfl) ?_
    simp only [hk]
    exact if_neg (Nat.not_le.2 h)
  · refine gives_at (A := execRecordExpiry t r g (some c) s) rfl rfl ha (by rw [hr, h17]; rfl) ?_
    simp only [h]
  · exact gives_at (A := execAnnounceOriginate t g s) rfl rfl ha (by rw [hp, hn, hr]; rfl) (doIf_of h _ _)
  · exact gives_at (A := execAnnounceOriginate t g s) rfl rfl ha (by rw [hp, hn, hr]; rfl) (doIf_of_not h _ _)
  · exact gives_at (A := execClaimOriginate t s) rfl rfl ha (by rw [hr, hp]; rfl) (doIf_of h _ _)
  · exact gives_at (A := execClaimOriginate t s) rfl rfl ha (by rw [hr, hp]; rfl) (doIf_of_not h _ _)

end Sys2Proof.Machine
end

section
/-! Parcels, cut marks, gaps and basting trains that arrive (R191, R207, R213, R242 to R245). -/

open Sys2Proof

namespace Sys2Proof.Machine

/-- A parcel that arrives is taken after the error its lookups meet; what its queue came to is drained. -/
theorem gives_parcel {t : Nat} {g : GalIx} {p : Parcel} {begun : Bool} {x : Option Upset} {s a u : State} (ha : begin t s = a) (hr : rxRuns a g = true)
    (h : takeParcel g p begun (strike x a) = u) :
    Gives (.parcelReceive t g p begun x) s (drainStraight g (markEcc g (pCls p) (eccOf x) a.hall.arrivalSeq u)) :=
  gives_at (A := execParcelReceive t g p begun x s) rfl rfl ha hr (by rw [← h])

theorem takeParcel_broken {g : GalIx} {p : Parcel} {s : State} (begun : Bool) (h : RxItem.broken p ∈ (galAt s g).rx.arrived) :
    takeParcel g p begun s = receiveBroken g p begun (modRx g (fun r => { r with arrived := r.arrived.erase (.broken p) }) s) := if_pos h

/-- A parcel past the credit of its class is counted, and its frame is bad where it is PX. -/
theorem takeParcel_noRoom {g : GalIx} {p : Parcel} {s : State} (begun : Bool) (h : RxItem.broken p ∉ (galAt s g).rx.arrived)
    (hf : ¬ parcelLen p ≤ roomFor (galAt (takeItem g (.parcel p) s) g).crx (pCls p)) :
    takeParcel g p begun s = doIf (pCls p == .px) (markBad g (pRegion p).toNat) (countGal 0x436 g 0 (takeItem g (.parcel p) s)) :=
  (if_neg h).trans (if_pos (Nat.lt_of_not_le hf))

theorem takeParcel_px {g : GalIx} {p : Parcel} {s : State} (begun : Bool) (h : RxItem.broken p ∉ (galAt s g).rx.arrived)
    (hf : parcelLen p ≤ roomFor (galAt (takeItem g (.parcel p) s) g).crx (pCls p)) (hk : pCls p = .px) :
    takeParcel g p begun s = receivePx g p begun (takeItem g (.parcel p) s) :=
  (if_neg h).trans ((if_neg (Nat.not_lt.2 hf)).trans (if_pos hk))

theorem takeParcel_msg {g : GalIx} {p : Parcel} {s : State} (begun : Bool) (h : RxItem.broken p ∉ (galAt s g).rx.arrived)
    (hf : parcelLen p ≤ roomFor (galAt (takeItem g (.parcel p) s) g).crx (pCls p)) (hk : pCls p ≠ .px) :
    takeParcel g p begun s = let b := takeItem g (.parcel p) s
      if p.poisoned then countGal 0x432 g 0 b else if !crcOk p then countGal 0x431 g (clsNo (pCls p)) b else receiveMsg g p b :=
  (if_neg h).trans ((if_neg (Nat.not_lt.2 hf)).trans (if_neg hk))

/-- What a cut mark does to the entry in force, before it goes on. -/
theorem gives_cutMark {t : Nat} {g : GalIx} {c : CutMark} {s a b u : State} (ha : begin t s = a) (hr : rxRuns a g = true)
    (hb : (let q := wayOf g c.region.toNat (takeItem g (.cut c) a)
      q.2 |> trackCut g q.1 c.region.toNat |> closeFrame g c.region.toNat (cutKeyOf c)) = b)
    (h : (match mget? (pendPlane b) c.region.toNat with
      | some pe => doIf (isNorth g && ingressOf pe.e == g.val) (applyEntry c.region.toNat pe) b
      | none => b) = u) :
    Gives (.cutMarkReceive t g c) s (u |> judgeCopy g c.region.toNat |> takeSwitch g c.region.toNat (cutKeyOf c) |> forwardCut g c |> drainStraight g) := by
  subst hb h
  exact gives_at (A := execCutMarkReceive t g c s) rfl rfl ha hr rfl

/-- What a gap does once its frame is marked bad. -/
theorem gives_gap {t : Nat} {g : GalIx} {x : Gap} {s a u : State} (ha : begin t s = a) (hr : rxRuns a g = true)
    (h : (let q := wayOf g x.region.toNat (takeItem g (.gap x) a)
      let b := q.2 |> markBad g x.region.toNat |> trackGap g x
      match q.1 with
      | .go targets next straight => b |> creditStore g .px 8 |> enqueue g (.gap x) targets next straight 8 0
      | .discard => storeDiscard g .px 8 b) = u) : Gives (.gapReceive t g x) s (drainStraight g u) :=
  gives_at (A := execGapReceive t g x s) rfl rfl ha hr (congrArg (drainStraight g) h)

/-- A guard of three turns down what does not meet all of them. -/
theorem refuses_iff {p q r : Bool} : (p || !q || !r) = true ↔ ¬ (p = false ∧ q = true ∧ r = true) := by
  cases p <;> cases q <;> cases r <;> decide

/-- What a basting train does. -/
theorem gives_train {t : Nat} {g : GalIx} {l : Train} {whole : Bool} {s a u : State} (ha : begin t s = a) (hr : rxRuns a g = true)
    (h : (let b := modRx g (fun r => { r with arrived := r.arrived.erase (.train l whole) }) (auditAll a)
      if inBoot b || !whole || !trainOk l then countGal 0x415 g 0 b
      else forAll (trainGals b g) (fun h s =>
        if (galAt s h).tx.trains.length < 4 then modTx h (fun x => { x with trains := x.trains ++ [(g.val, l)], emptyAt := none }) s
        else countGal 0x415 h 1 s) b) = u) : Gives (.bastingTrainReceive t g l whole) s u :=
  gives_at (A := execBastingTrainReceive t g l whole s) rfl rfl ha hr h

/-- Settles O41. What has arrived is taken by its kind: a parcel by whether it broke off, its credit, its class and its CRC, a gap by the way of its region. -/
theorem streamItemsAreTaken : Obligations.StreamItemsAreTaken := by
  unfold Obligations.StreamItemsAreTaken
  intro t g s
  generalize ha : begin t s = a
  dsimp only
  intro hr
  refine ⟨fun n hn hb => ?_, fun p begun x => ⟨fun h => ?_, fun h hf hk => ?_, fun h hf hk => ?_,
      fun h hf hk => ⟨fun hp => ?_, fun hp hc => ?_, fun hp hc => ?_⟩, fun h hf hk => ⟨fun hp hc => ?_, fun hp hc => ?_, fun hp => ?_⟩⟩,
    fun c => ⟨fun h => ?_, fun e h hi => ?_, fun e h hi => ?_⟩, fun x => ⟨fun targets next straight h => ?_, fun h => ?_⟩,
    fun l whole => ⟨fun h => ?_, fun h => ?_⟩⟩
  · exact if_pos ⟨hn, hb⟩
  · exact gives_parcel ha hr (takeParcel_broken begun h)
  · exact gives_parcel ha hr ((takeParcel_noRoom begun h hf).trans (doIf_of_not (beq_eq_false_iff_ne.2 hk) _ _))
  · exact gives_parcel ha hr ((takeParcel_noRoom begun h hf).trans (doIf_of (beq_iff_eq.2 hk) _ _))
  · exact gives_parcel ha hr ((takeParcel_msg begun h hf hk).trans (if_pos hp))
  · exact gives_parcel ha hr ((takeParcel_msg begun h hf hk).trans ((if_neg (Bool.eq_false_iff.1 hp)).trans (if_pos (by rw [hc]; rfl))))
  · exact gives_parcel ha hr ((takeParcel_msg begun h hf hk).trans ((if_neg (Bool.eq_false_iff.1 hp)).trans (if_neg (by rw [hc]; decide))))
  · exact gives_parcel ha hr ((takeParcel_px begun h hf hk).trans (if_neg (by rw [hp, hc]; decide)))
  · refine gives_parcel ha hr ((takeParcel_px begun h hf hk).trans ((if_pos (by rw [hp, hc]; rfl)).trans ?_))
    simp only [hp, Bool.false_eq_true, ↓reduceIte]
  · refine gives_parcel ha hr ((takeParcel_px begun h hf hk).trans ((if_pos (by rw [hp]; rfl)).trans ?_))
    simp only [hp, ↓reduceIte]
  · exact gives_cutMark ha hr rfl (by simp only [h])
  · exact gives_cutMark ha hr rfl (by simp only [h, hi, doIf_true])
  · exact gives_cutMark ha hr rfl (by simp only [h, hi, doIf_false])
  · exact gives_gap ha hr (by simp only [h])
  · exact gives_gap ha hr (by simp only [h])
  · exact gives_train ha hr (if_pos (refuses_iff.2 h))
  · exact gives_train ha hr (if_neg fun hc => refuses_iff.1 hc h)

end Sys2Proof.Machine
end

section
/-! What waits for a transmit island: the operations that send blocks leave every gallery's queues as they are (R200). -/

open Sys2Proof

namespace Sys2Proof.Machine

/-- What a gallery's transmit island has been handed. -/
def EgressIs (h : GalIx) (e : PerClass (List QItem)) (s : State) : Prop := (galAt s h).egress = e

section
variable {gx : GalIx} {qs : PerClass (List QItem)}

/-- A change of a gallery that leaves its queues leaves all queues. -/
@[simp] theorem egressIs_modGal (g : GalIx) (f : Gal → Gal) (s : State) (hf : ∀ G, (f G).egress = G.egress) :
    EgressIs gx qs (modGal g f s) ↔ EgressIs gx qs s := by
  unfold EgressIs
  by_cases hg : gx = g
  · subst hg
    rw [galAt_modGal, hf]
  · rw [galAt_modGal_ne s f hg]

/-- The queues, read off the galleries. -/
def egressAt (v : Vector Gal 8) (g : GalIx) : PerClass (List QItem) := v[g].egress

@[simp] theorem egressAt_iff (s : State) : egressAt s.gals gx = qs ↔ EgressIs gx qs s := Iff.rfl

@[simp] theorem egressIs_mk (now power pins clocks live gals hall cutter corr safety bridge portL portM mbx log upd otp mram mez dbg diag frz ctr free out pending) :
    EgressIs gx qs ⟨now, power, pins, clocks, live, gals, hall, cutter, corr, safety, bridge, portL, portM, mbx, log, upd, otp, mram, mez, dbg, diag, frz, ctr, free, out,
      pending⟩ ↔ egressAt gals gx = qs := Iff.rfl

@[simp] theorem egressIs_ite (c : Prop) [Decidable c] (a b : State) :
    EgressIs gx qs (if c then a else b) ↔ if c then EgressIs gx qs a else EgressIs gx qs b := by
  split <;> rfl

@[simp] theorem egressIs_doIf (c : Bool) (f : State → State) (s : State) (h : EgressIs gx qs (f s) ↔ EgressIs gx qs s) :
    EgressIs gx qs (doIf c f s) ↔ EgressIs gx qs s := by
  unfold doIf
  split
  · exact h
  · rfl

/-- An operation done for each element keeps the form where each single one does. -/
@[simp] theorem egressIs_forAll {α : Type u} (l : List α) (f : α → State → State) (s : State)
    (h : ∀ a u, EgressIs gx qs (f a u) ↔ EgressIs gx qs u) : EgressIs gx qs (forAll l f s) ↔ EgressIs gx qs s := by
  unfold forAll
  induction l generalizing s with
  | nil => rfl
  | cons a l ih => exact (ih (f a s)).trans (h a s)

@[simp] theorem egressIs_emit (o : Output) (s : State) : EgressIs gx qs (emit o s) ↔ EgressIs gx qs s := Iff.rfl

@[simp] theorem egressIs_modRx (g : GalIx) (f : RxDir → RxDir) (s : State) : EgressIs gx qs (modRx g f s) ↔ EgressIs gx qs s :=
  egressIs_modGal _ _ _ fun _ => rfl

@[simp] theorem egressIs_modTx (g : GalIx) (f : TxDir → TxDir) (s : State) : EgressIs gx qs (modTx g f s) ↔ EgressIs gx qs s :=
  egressIs_modGal _ _ _ fun _ => rfl

@[simp] theorem egressIs_modLane (g : GalIx) (l : LaneIx) (f : Lane → Lane) (s : State) : EgressIs gx qs (modLane g l f s) ↔ EgressIs gx qs s :=
  egressIs_modGal _ _ _ fun _ => rfl

@[simp] theorem egressIs_countN (id g lane inst n : Nat) (s : State) : EgressIs gx qs (countN id g lane inst n s) ↔ EgressIs gx qs s := Iff.rfl

@[simp] theorem egressIs_countLane (id : Nat) (g : GalIx) (l : LaneIx) (s : State) : EgressIs gx qs (countLane id g l s) ↔ EgressIs gx qs s := Iff.rfl

@[simp] theorem egressIs_countGal (id : Nat) (g : GalIx) (inst : Nat) (s : State) : EgressIs gx qs (countGal id g inst s) ↔ EgressIs gx qs s := Iff.rfl

@[simp] theorem egressIs_countDev (id inst : Nat) (s : State) : EgressIs gx qs (countDev id inst s) ↔ EgressIs gx qs s := Iff.rfl

@[simp] theorem egressIs_originate (p : Parcel) (gs : List GalIx) (s : State) : EgressIs gx qs (originate p gs s) ↔ EgressIs gx qs s := Iff.rfl

@[simp] theorem egressIs_intoMgmt (port arrival : Nat) (p : Parcel) (s : State) : EgressIs gx qs (intoMgmt port arrival p s) ↔ EgressIs gx qs s := Iff.rfl

@[simp] theorem egressIs_sendHere (p : Parcel) (s : State) : EgressIs gx qs (sendHere p s) ↔ EgressIs gx qs s := Iff.rfl

@[simp] theorem egressIs_sendRouted (p : Parcel) (arrival : Option GalIx) (s : State) : EgressIs gx qs (sendRouted p arrival s).1 ↔ EgressIs gx qs s := by
  unfold sendRouted
  generalize route s (pDest p) = r
  cases r with
  | fwd gals spread nd => simp [apply_ite Prod.fst]
  | here => simp [apply_ite Prod.fst]
  | _ => cases arrival <;> simp [apply_ite Prod.fst]

@[simp] theorem egressIs_toSink (k : Fin 4) (sev : Nat) (mk : Nat → List Byte) (region : Option Region) (refsData : Bool) (s : State) : EgressIs gx qs (toSink k sev mk region refsData s) ↔ EgressIs gx qs s := by
  unfold toSink
  simp

@[simp] theorem egressIs_toRing (k : Fin 4) (sev : Nat) (mk : Nat → List Byte) (s : State) : EgressIs gx qs (toRing k sev mk s) ↔ EgressIs gx qs s := by
  unfold toRing
  simp

@[simp] theorem egressIs_toStream (e : LogEntry) (s : State) : EgressIs gx qs (toStream e s) ↔ EgressIs gx qs s := by
  unfold toStream
  split <;> simp

@[simp] theorem egressIs_toLog (code sev : Nat) (body : List Byte) (s : State) : EgressIs gx qs (toLog code sev body s) ↔ EgressIs gx qs s := by
  unfold toLog
  simp

@[simp] theorem egressIs_trigger (code : Nat) (s : State) : EgressIs gx qs (trigger code s) ↔ EgressIs gx qs s := by
  unfold trigger
  simp

@[simp] theorem egressIs_raiseTo (sinks : Bool) (code : Nat) (body : List Byte) (region : Option Region) (s : State) : EgressIs gx qs (raiseTo sinks code body region s) ↔ EgressIs gx qs s := by
  unfold raiseTo
  simp

@[simp] theorem egressIs_raise (code : Nat) (body : List Byte) (s : State) : EgressIs gx qs (raise code body s) ↔ EgressIs gx qs s := by
  unfold raise
  simp

@[simp] theorem egressIs_reportAs (measured : Bool) (g : GalIx) (s : State) : EgressIs gx qs (reportAs measured g s) ↔ EgressIs gx qs s := by
  unfold reportAs
  simp

@[simp] theorem egressIs_reportCapacity (g : GalIx) (s : State) : EgressIs gx qs (reportCapacity g s) ↔ EgressIs gx qs s := by
  unfold reportCapacity
  simp

@[simp] theorem egressIs_queueHop (g : GalIx) (ps : List (Option Nat)) (lanes : BitVec 8) (h : Hop) (s : State) :
    EgressIs gx qs (queueHop g ps lanes h s) ↔ EgressIs gx qs s := by
  unfold queueHop
  simp

@[simp] theorem egressIs_sendHop (g : GalIx) (lanes : BitVec 8) (h : Hop) (s : State) : EgressIs gx qs (sendHop g lanes h s) ↔ EgressIs gx qs s := by
  unfold sendHop
  simp

@[simp] theorem egressIs_sendAll (g : GalIx) (h : Hop) (s : State) : EgressIs gx qs (sendAll g h s) ↔ EgressIs gx qs s := by
  unfold sendAll
  simp

@[simp] theorem egressIs_sendAny (g : GalIx) (h : Hop) (s : State) : EgressIs gx qs (sendAny g h s) ↔ EgressIs gx qs s := by
  unfold sendAny
  simp

@[simp] theorem egressIs_sendWhere (g : GalIx) (d : RepTo) (h : Hop) (s : State) : EgressIs gx qs (sendWhere g d h s) ↔ EgressIs gx qs s := by
  unfold sendWhere
  split <;> simp

@[simp] theorem egressIs_runRepeats (g : GalIx) (s : State) : EgressIs gx qs (runRepeats g s) ↔ EgressIs gx qs s := by
  unfold runRepeats
  simp

@[simp] theorem egressIs_sendBlk (g : GalIx) (p : Nat) (b : Block) (s : State) : EgressIs gx qs (sendBlk g p b s) ↔ EgressIs gx qs s := by
  unfold sendBlk
  simp

@[simp] theorem egressIs_txChange (g : GalIx) (seq : Nat) (f : BitVec 8 → BitVec 8) (s : State) : EgressIs gx qs (txChange g seq f s) ↔ EgressIs gx qs s := by
  unfold txChange
  simp

@[simp] theorem egressIs_driveOff (g : GalIx) (p : Nat) (s : State) : EgressIs gx qs (driveOff g p s) ↔ EgressIs gx qs s := by
  unfold driveOff
  simp

@[simp] theorem egressIs_tackLanes (g : GalIx) (w : List Nat) (wait : Nat) (s : State) : EgressIs gx qs (tackLanes g w wait s) ↔ EgressIs gx qs s := by
  unfold tackLanes
  simp

@[simp] theorem egressIs_startPreamble (g : GalIx) (w : List Nat) (s : State) : EgressIs gx qs (startPreamble g w s) ↔ EgressIs gx qs s := by
  unfold startPreamble
  simp

@[simp] theorem egressIs_wakeLanes (g : GalIx) (m : BitVec 8) (s : State) : EgressIs gx qs (wakeLanes g m s) ↔ EgressIs gx qs s := by
  unfold wakeLanes
  simp

@[simp] theorem egressIs_sendCw (g : GalIx) (p : Nat) (blks : List Block) (s : State) : EgressIs gx qs (sendCw g p blks s) ↔ EgressIs gx qs s := by
  unfold sendCw
  simp

@[simp] theorem egressIs_putBlk (g : GalIx) (p : Nat) (b : Block) (s : State) : EgressIs gx qs (putBlk g p b s) ↔ EgressIs gx qs s := by
  unfold putBlk
  simp

@[simp] theorem egressIs_startDrains (g : GalIx) (s : State) : EgressIs gx qs (startDrains g s) ↔ EgressIs gx qs s := by
  unfold startDrains
  simp

@[simp] theorem egressIs_stopClock (g : GalIx) (s : State) : EgressIs gx qs (stopClock g s) ↔ EgressIs gx qs s := by
  unfold stopClock
  simp

@[simp] theorem egressIs_txRejoined (g : GalIx) (s : State) : EgressIs gx qs (txRejoined g s) ↔ EgressIs gx qs s := by
  unfold txRejoined
  simp
  split <;> simp

@[simp] theorem egressIs_queueRejoin (g : GalIx) (s : State) : EgressIs gx qs (queueRejoin g s) ↔ EgressIs gx qs s := by
  unfold queueRejoin
  simp
  split <;> simp

@[simp] theorem egressIs_enterSet (g : GalIx) (s : State) : EgressIs gx qs (enterSet g s) ↔ EgressIs gx qs s := by
  unfold enterSet
  simp

@[simp] theorem egressIs_startPeriod (g : GalIx) (s : State) : EgressIs gx qs (startPeriod g s) ↔ EgressIs gx qs s := by
  unfold startPeriod
  simp

@[simp] theorem egressIs_startPrbs (g : GalIx) (s : State) : EgressIs gx qs (startPrbs g s) ↔ EgressIs gx qs s := by
  unfold startPrbs
  simp
  split <;> simp

@[simp] theorem egressIs_endPeriod (g : GalIx) (s : State) : EgressIs gx qs (endPeriod g s) ↔ EgressIs gx qs s := by
  unfold endPeriod
  dsimp only
  rw [egressIs_startPeriod, egressIs_startPrbs, egressIs_modTx]
  refine egressIs_doIf _ _ _ ?_
  simp

@[simp] theorem egressIs_hopLeaves (g : GalIx) (p : Nat) (e : Option Nat × Hop) (s : State) : EgressIs gx qs (hopLeaves g p e s) ↔ EgressIs gx qs s := by
  unfold hopLeaves
  simp

/-- What sends a lane-local block leaves the store. -/
theorem egressIs_localNow (g : GalIx) (p : Nat) (s : State) (b : Block) (f : State → State) (h : localNow g p s = some (b, f)) (u : State) :
    EgressIs gx qs (f u) ↔ EgressIs gx qs u := by
  unfold localNow at h
  dsimp only at h
  split at h
  · simp only [Option.some.injEq, Prod.mk.injEq] at h
    rw [← h.2]; simp
  · split at h
    · simp only [Option.some.injEq, Prod.mk.injEq] at h
      rw [← h.2]; rfl
    · split at h
      · simp only [Option.some.injEq, Prod.mk.injEq] at h
        rw [← h.2]; rfl
      · simp only [Option.map_eq_some_iff, Prod.mk.injEq] at h
        obtain ⟨e, -, -, rfl⟩ := h
        simp

@[simp] theorem egressIs_sendAside (g : GalIx) (s : State) : EgressIs gx qs (sendAside g s) ↔ EgressIs gx qs s := by
  unfold sendAside
  refine egressIs_forAll _ _ _ fun p u => ?_
  cases hn : localNow g p u with
  | none => simp
  | some e => simp [egressIs_localNow g p u e.1 e.2 hn]

@[simp] theorem egressIs_endDrain (g : GalIx) (p : Nat) (s : State) : EgressIs gx qs (endDrain g p s) ↔ EgressIs gx qs s := by
  unfold endDrain
  simp

@[simp] theorem egressIs_sendDrains (g : GalIx) (s : State) : EgressIs gx qs (sendDrains g s) ↔ EgressIs gx qs s := by
  unfold sendDrains
  simp

@[simp] theorem egressIs_endSlot (g : GalIx) (s : State) : EgressIs gx qs (endSlot g s) ↔ EgressIs gx qs s := by
  unfold endSlot
  simp

@[simp] theorem egressIs_putCell (g : GalIx) (p : Nat) (b : Block) (stream : Bool) (after : State → State) (s : State)
    (h : ∀ u, EgressIs gx qs (after u) ↔ EgressIs gx qs u) : EgressIs gx qs (putCell g p b stream after s) ↔ EgressIs gx qs s := by
  unfold putCell
  simp [h]

@[simp] theorem egressIs_placeCell (g : GalIx) (b : Option Block) (done : State → State) (s : State)
    (h : ∀ u, EgressIs gx qs (done u) ↔ EgressIs gx qs u) : EgressIs gx qs (placeCell g b done s).2 ↔ EgressIs gx qs s := by
  unfold placeCell
  dsimp only
  split
  · simp
  · split
    · split <;> simp
    · rename_i p _
      cases hn : localNow g p s with
      | some e => simp [egressIs_localNow g p s e.1 e.2 hn]
      | none => cases b <;> simp [h, apply_ite Prod.snd]

@[simp] theorem egressIs_sendBlks (g : GalIx) (done : State → State) (n : Nat) (bs : List Block) (s : State)
    (h : ∀ u, EgressIs gx qs (done u) ↔ EgressIs gx qs u) : EgressIs gx qs (sendBlks g done n bs s) ↔ EgressIs gx qs s := by
  induction n generalizing bs s with
  | zero => cases bs <;> simp [sendBlks, h]
  | succ n ih =>
    cases bs with
    | nil => simp [sendBlks]
    | cons b r =>
      have hlast : ∀ u, EgressIs gx qs ((if r.isEmpty then done else id) u) ↔ EgressIs gx qs u := fun u => by split <;> simp [h]
      unfold sendBlks
      split
      · simp [h]
      · rw [ih, egressIs_placeCell _ _ _ _ hlast]

@[simp] theorem egressIs_sendStream (g : GalIx) (bs : List Block) (done : State → State) (s : State)
    (h : ∀ u, EgressIs gx qs (done u) ↔ EgressIs gx qs u) : EgressIs gx qs (sendStream g bs done s) ↔ EgressIs gx qs s :=
  egressIs_sendBlks g done _ bs s h


end

/-- Sending what a replay owes leaves what waits behind it. -/
theorem egress_sendReplay (g : GalIx) (s : State) : (galAt (sendReplay g s) g).egress = (galAt s g).egress := by
  have h : EgressIs g (galAt s g).egress (sendReplay g s) := by
    exact (egressIs_sendStream g _ id _ fun _ => Iff.rfl).2 ((egressIs_modTx g _ s).2 rfl)
  exact h

end Sys2Proof.Machine
end

section
/-! The Hall and the transmit islands (R200 to R218). -/

open Sys2Proof

namespace Sys2Proof.Machine

theorem galPort_of_lt {n : Nat} {g : GalIx} (h : galPort n = some g) : n < 8 := by
  unfold galPort at h
  split at h
  · assumption
  · cases h

/-- An input that crosses does so once what its port presents is ready. -/
theorem gives_hallCell {t : Nat} {i : Fin 10} {k : Cls} {met : ReadErrs} {s a u : State} (ha : begin t s = a) (hr : active a = true)
    (h16 : gateOn a 16 = true) (hl : (!a.hall.lost || i.val == 8) = true)
    (h : (let b := doIf (i.val == 8) (fun s => s |> noteErrors met.single met.double |> fillReaders) a
      let q := presentCell i k b
      let e := max met.cell.val q.1
      match galPort i.val with
      | some g => q.2 |> countEcc g e |> doIf (e == 2) (eccBad i)
      | none => q.2) = u) :
    Gives (.hallCellTransfer t i k met) s (u |> forAll (List.finRange 10) (crossTo i) |> nextCell i) :=
  gives_at (A := execHallCellTransfer t i k met s) rfl rfl ha (by rw [hr, h16, hl]; rfl)
    (congrArg (fun v => nextCell i (forAll (List.finRange 10) (crossTo i) v)) h)

/-- An output is an input's where it has been granted to it, or is free and it is its turn (R207). -/
theorem mine_iff {s : State} {i o : Fin 10} :
    (s.hall.grants[o] == some i || (s.hall.grants[o].isNone && turnOf s o == some i)) = true ↔
      (s.hall.grants[o] = some i ∨ s.hall.grants[o] = none ∧ turnOf s o = some i) := by
  rw [Bool.or_eq_true, Bool.and_eq_true, beq_iff_eq, beq_iff_eq, Option.isNone_iff_eq_none]

/-- A cell that an output does not take crosses nowhere. -/
theorem crossTo_of_not {i o : Fin 10} {s : State} {x : HallXfer} (hx : s.hall.ports[i].cur = some x)
    (h : ¬ ((s.hall.grants[o] = some i ∨ s.hall.grants[o] = none ∧ turnOf s o = some i) ∧ o.val ∈ x.todo)) : crossTo i o s = s := by
  rw [← mine_iff] at h
  unfold crossTo
  simp only [hx]
  refine if_neg fun hc => h ?_
  simpa using hc

/-- A cell that crosses to an output it has been granted. -/
theorem crossTo_of {i o : Fin 10} {s : State} {x : HallXfer} (hx : s.hall.ports[i].cur = some x)
    (h : s.hall.grants[o] = some i ∨ s.hall.grants[o] = none ∧ turnOf s o = some i) (ho : o.val ∈ x.todo) :
    crossTo i o s = (let v := modPort i (fun p => { p with cur := some { x with todo := x.todo.filter (· ≠ o.val) } }) s
      let turned := fun (w : State) => { w with hall := { w.hall with rr := w.hall.rr.set o.val ((i.val + 1) % 10) o.isLt } }
      if x.cells = 1 then arriveAt o x (turned (setGrant o none v)) else turned (setGrant o (some i) v)) := by
  rw [← mine_iff] at h
  unfold crossTo
  simp only [hx]
  refine (if_pos ?_).trans ?_
  · exact Bool.and_eq_true_iff.2 ⟨h, decide_eq_true ho⟩
  · rfl

theorem nextCell_eq {i : Fin 10} {s : State} {x : HallXfer} (hx : s.hall.ports[i].cur = some x) :
    nextCell i s = if x.todo.isEmpty then
      if x.cells ≤ 1 then leaveInput i x s else modPort i (fun _ => { cur := some { x with cells := x.cells - 1, todo := x.outs } }) s else s := by
  unfold nextCell
  simp only [hx]

theorem eccBad_eq {i : Fin 10} {s : State} {x : HallXfer} (hx : s.hall.ports[i].cur = some x) :
    eccBad i s = if x.cls = .px then
      s |> (match galPort x.item.port with
          | some g => markBad g (regionOfItem x.item.item)
          | none => id)
        |> modPort i (fun q => { q with cur := some { x with item := { x.item with item := poison x.item.item } } })
      else s |> forAll ((List.finRange 10).filter fun o => s.hall.grants[o] == some i) (fun o => setGrant o none) |> leaveInput i x := by
  unfold eccBad
  simp only [hx] <;> rfl

/-- What an input that has no parcel crossing takes up. -/
theorem presentCell_eq {i : Fin 10} {k : Cls} {s : State} (hx : s.hall.ports[i].cur = none) :
    presentCell i k s = match inputHead s i k with
      | some x => (x.ecc, modPort i (fun _ => { cur := some { item := x, cls := k, cells := ceilDiv (itemLen x.item) 128, outs := x.targets, todo := x.targets } }) s)
      | none => (0, s) := by
  unfold presentCell
  simp only [hx] <;> rfl

/-- What a direction that sends at a parcel's turn sends. -/
theorem sendNext_train {g : GalIx} {s : State} (h : (galAt s g).tx.trains ≠ []) : sendNext g s = sendTrain g s :=
  if_pos (by simpa using h)

/-- PX goes out, and messages have their turn again. -/
def pxTurn (g : GalIx) (s : State) : State := modGal g (fun G => { G with ctx := { G.ctx with alternate := false } }) (sendPx g s)

theorem sendNext_msg {g : GalIx} {s : State} {k : Cls} {i : QItem} (h : (galAt s g).tx.trains = []) (hm : nextMsg s g = some (k, i)) :
    sendNext g s = if pxReady s g && decide ((galAt s g).ctx.budgetUsed + itemLen i.item > 65536) && (galAt s g).ctx.alternate then pxTurn g s
      else sendMsg g k i (pxReady s g) s := by
  unfold sendNext
  simp only [h, hm, List.isEmpty_nil, Bool.not_true, Bool.false_eq_true, ↓reduceIte]
  rfl

theorem sendNext_none {g : GalIx} {s : State} (h : (galAt s g).tx.trains = []) (hm : nextMsg s g = none) :
    sendNext g s = doIf (pxReady s g) (pxTurn g) s := by
  unfold sendNext
  simp only [h, hm, List.isEmpty_nil, Bool.not_true, Bool.false_eq_true, ↓reduceIte]
  rfl

/-- What a transmit island does at a parcel's turn, once the slots that passed idle have passed. -/
def parcelTurn (g : GalIx) (s : State) : State :=
  let G := galAt s g
  if G.tx.ts = .exchange ∨ G.rx.ts = .exchange then exchange g s
  else if G.tx.ts ≠ .active then s
  else if stalled G then demands g s
  else s |> sendReplay g |> skimPx g G.egress.px.length |> sendNext g |> demands g |> noteEmpty g |> drainStraight (pairOf g)

theorem gives_parcelTransmit {t : Nat} {g : GalIx} {idle : Nat} {s a u : State} (ha : begin t s = a) (hr : hopRuns a g = true)
    (h : parcelTurn g (passSlots g idle a) = u) : Gives (.parcelTransmit t g idle) s u :=
  gives_at (A := execParcelTransmit t g idle s) rfl rfl ha hr h

/-- What goes out at a parcel's turn on an ACTIVE direction that is not stalled. -/
theorem parcelTurn_sends {g : GalIx} {s b u : State} (h1 : ¬ ((galAt s g).tx.ts = .exchange ∨ (galAt s g).rx.ts = .exchange))
    (h2 : (galAt s g).tx.ts = .active) (h3 : stalled (galAt s g) = false)
    (hb : skimPx g (galAt (sendReplay g s) g).egress.px.length (sendReplay g s) = b) (h : sendNext g b = u) :
    parcelTurn g s = (u |> demands g |> noteEmpty g |> drainStraight (pairOf g)) := by
  rw [egress_sendReplay] at hb
  subst hb h
  exact (if_neg h1).trans ((if_neg (not_not.2 h2)).trans (if_neg (Bool.eq_false_iff.1 h3)))

/-- The Hall's half of O42. -/
theorem theHallMovesCells (t : Nat) (i : Fin 10) (k : Cls) (met : ReadErrs) (s : State) : let a := begin t s
    active a = true → gateOn a 16 = true →
     (let crosses := fun (u : State) => Gives (.hallCellTransfer t i k met) s (u |> forAll (List.finRange 10) (crossTo i) |> nextCell i);
       (∀ g, galPort i.val = some g → a.hall.lost = false → let q := presentCell i k a
         let e := max met.cell.val q.1
         (e ≠ 2 → crosses (countEcc g e q.2)) ∧ (e = 2 → crosses (eccBad i (countEcc g e q.2)))) ∧
       (i.val = 8 → crosses (presentCell i k (a |> noteErrors met.single met.double |> fillReaders)).2) ∧
       (i.val = 9 → a.hall.lost = false → crosses (presentCell i k a).2) ∧
       (i.val ≠ 8 → a.hall.lost = true → Gives (.hallCellTransfer t i k met) s a)) := by
  generalize ha : begin t s = a
  dsimp only
  intro hr h16
  refine ⟨fun g hg hl => ⟨fun h => ?_, fun h => ?_⟩, fun h8 => ?_, fun h9 hl => ?_, fun h8 hl => ?_⟩
  · refine gives_hallCell ha hr h16 (by rw [hl]; rfl) ?_
    have h8 : (i.val == 8) = false := beq_eq_false_iff_ne.2 (Nat.ne_of_lt (galPort_of_lt hg))
    simp only [h8, hg, doIf_false]
    exact doIf_of_not (beq_eq_false_iff_ne.2 h) _ _
  · refine gives_hallCell ha hr h16 (by rw [hl]; rfl) ?_
    have h8 : (i.val == 8) = false := beq_eq_false_iff_ne.2 (Nat.ne_of_lt (galPort_of_lt hg))
    simp only [h8, hg, doIf_false]
    exact doIf_of (beq_iff_eq.2 h) _ _
  · refine gives_hallCell ha hr h16 (by rw [h8]; simp) ?_
    simp only [h8, beq_self_eq_true, doIf_true]
    rfl
  · refine gives_hallCell ha hr h16 (by rw [hl]; rfl) ?_
    simp only [h9]
    rfl
  · exact gives_rests (A := execHallCellTransfer t i k met s) rfl rfl ha (by simp [hl, h8])

/-- Settles O42. The Hall moves a cell by what its input presents and its outputs grant, a transmit island sends by what goes first. -/
theorem theHallAndTransmitIslandsMoveParcels : Obligations.TheHallAndTransmitIslandsMoveParcels := by
  unfold Obligations.TheHallAndTransmitIslandsMoveParcels
  constructor
  · intro t i k met s
    refine fun hr h16 => ⟨theHallMovesCells t i k met s hr h16, fun u o x hx => ⟨fun h => crossTo_of_not hx h, fun h ho hc => ?_, fun h ho hc => ?_⟩,
      fun u x hx => ⟨fun h => ?_, fun h hc => ?_, fun h hc => ?_, fun h => ?_, fun g h hg => ?_, fun h hg => ?_⟩, fun u hx => ⟨fun x h => ?_, fun h => ?_⟩⟩
    · exact (crossTo_of hx h ho).trans (if_neg hc)
    · exact (crossTo_of hx h ho).trans (if_pos hc)
    · exact (nextCell_eq hx).trans (if_neg (by simpa using h))
    · exact (nextCell_eq hx).trans ((if_pos (by rw [h]; rfl)).trans (if_neg (by omega)))
    · exact (nextCell_eq hx).trans ((if_pos (by rw [h]; rfl)).trans (if_pos hc))
    · exact (eccBad_eq hx).trans (if_neg h)
    · refine (eccBad_eq hx).trans ((if_pos h).trans ?_)
      simp only [hg]
    · refine (eccBad_eq hx).trans ((if_pos h).trans ?_)
      simp only [hg, id_eq]
    · refine (presentCell_eq hx).trans ?_
      simp only [h]
    · refine (presentCell_eq hx).trans ?_
      simp only [h]
  · intro t g s
    generalize ha : begin t s = a
    dsimp only
    refine ⟨fun hr idle => ⟨fun h => ?_, fun h1 h2 => ?_, fun h1 h2 h3 => ?_, fun h1 h2 h3 => ⟨fun h => ?_, fun h => ⟨fun k i hm hb => ?_, fun k i hm hp hb hx => ?_,
      fun hm hp => ?_, fun hm hp => ?_⟩⟩⟩, fun hr => ⟨fun h => ?_, fun h => ?_⟩, fun hr => ⟨fun h => ?_, fun h => ?_⟩,
      fun hr port => ⟨fun h hg => ?_, fun h9 => ?_, fun h8 => ?_⟩⟩
    · exact gives_parcelTransmit ha hr (if_pos h)
    · exact gives_parcelTransmit ha hr ((if_neg h1).trans (if_pos h2))
    · exact gives_parcelTransmit ha hr ((if_neg h1).trans ((if_neg (not_not.2 h2)).trans (if_pos h3)))
    · exact gives_parcelTransmit ha hr (parcelTurn_sends h1 h2 h3 rfl (sendNext_train h))
    · refine gives_parcelTransmit ha hr (parcelTurn_sends h1 h2 h3 rfl ((sendNext_msg h hm).trans (if_neg ?_)))
      rintro hc
      simp only [Bool.and_eq_true, decide_eq_true_eq] at hc
      obtain ⟨⟨hp, hu⟩, hx⟩ := hc
      rcases hb with hb | hb | hb
      · rw [hb] at hp; cases hp
      · omega
      · rw [hb] at hx; cases hx
    · exact gives_parcelTransmit ha hr (parcelTurn_sends h1 h2 h3 rfl ((sendNext_msg h hm).trans (if_pos (by rw [hp, hx, decide_eq_true hb]; rfl))))
    · exact gives_parcelTransmit ha hr (parcelTurn_sends h1 h2 h3 rfl ((sendNext_none h hm).trans (doIf_of hp _ _)))
    · exact gives_parcelTransmit ha hr (parcelTurn_sends h1 h2 h3 rfl ((sendNext_none h hm).trans (doIf_of_not hp _ _)))
    · exact gives_at (A := execBastingTrainSend t g s) rfl rfl ha hr (doIf_of (by rw [h]; rfl) _ _)
    · exact gives_at (A := execBastingTrainSend t g s) rfl rfl ha hr (doIf_of_not (by rw [h]; rfl) _ _)
    · exact gives_at (A := execMessageBudgetWindow t g s) rfl rfl ha hr (doIf_of (decide_eq_true h) _ _)
    · exact gives_at (A := execMessageBudgetWindow t g s) rfl rfl ha hr (doIf_of_not (decide_eq_false (Nat.not_le.2 h)) _ _)
    · refine gives_at (A := execEventRelease t port s) rfl rfl ha hr ?_
      simp only [hg] <;> rfl
    · refine gives_at (A := execEventRelease t port s) rfl rfl ha hr ?_
      simp only [h9]
      rfl
    · refine gives_at (A := execEventRelease t port s) rfl rfl ha hr ?_
      simp only [h8]
      rfl

end Sys2Proof.Machine
end

section
/-! The correction engine's pipes (R257 to R279). -/

open Sys2Proof

namespace Sys2Proof.Machine

/-- The pipe that corrects a line is the one it falls to, where its region is served and its line is not gone. -/
theorem pipeFor_of_served {s : State} {r line : Nat} {e : Entry} (h : served s r e = true) (hl : lineGone s r line e = false) :
    pipeFor s r line e = pipeOf s r line e :=
  if_pos (by rw [h, hl]; rfl)

theorem pipeFor_of_not {s : State} {r line : Nat} {e : Entry} (h : served s r e = false ∨ pipeOf s r line e = none) : pipeFor s r line e = none := by
  unfold pipeFor
  rcases h with h | h
  · exact if_neg (by rw [h, Bool.false_and]; decide)
  · exact ite_eq_right_iff.2 fun _ => h

/-- What an item that is processed next does. -/
theorem gives_pipeProcess {t : Nat} {single double : List Nat} {s a d : State} {i : QItem} {l : List QItem} (ha : begin t s = a)
    (hr : active a = true) (he : engineOn a = true) (hl : (noteErrors single double a).corr.inQ = i :: l)
    (hd : (noteErrors single double a |> modCorr (fun c => { c with inQ := l }) |> audit (regionOfItem i.item)) = d) :
    Gives (.pipeProcessParcel t single double) s (prunePrev (regionOfItem i.item) (match prevOf d (regionOfItem i.item) i.arrival with
      | some p => underPrev (regionOfItem i.item) p i d
      | none => engineItem i d)) := by
  refine gives_at (A := execPipeProcessParcel t single double s) rfl rfl ha (by rw [hr, he]; rfl) ?_
  subst hd
  simp only [hl] <;> rfl

/-- What follows a failed check once its pipe is fenced: every region the pipe served gets a substitute or none, and the event names them (R278). -/
def substituteAll (pipe : Fin 8) (rs : List Nat) (u : State) : State :=
  let q := rs.foldl (fun acc r => substitute pipe.val r acc) ([], u)
  raise 0x0504 (leBytes 1 pipe.val ++ leBytes 1 (min rs.length 56) ++ leBytes 1 (b2n (decide (rs.length > 56))) ++
    leBytes 1 0 ++ ((q.1.take 56).flatMap fun e => leBytes 2 e.1 ++ leBytes 1 (e.2.getD 0xFF) ++ leBytes 1 0)) q.2

/-- The state in which a failed check leaves its pipe. -/
def fencePipe (pipe : Fin 8) (s : State) : State := auditAll (modPipe pipe.val (fun p => { p with fenced := true, hold := none }) s)

/-- Whether a line's parcel was inside a pipe when it was fenced. -/
def insidePipe (pipe : Fin 8) (b : State) (p : Parcel) : Prop :=
  pipeOf { b with corr := { b.corr with pipes := b.corr.pipes.set pipe.val { b.corr.pipes[pipe] with fenced := false } } } (pRegion p).toNat (pLine p)
    (entryOf b (pRegion p).toNat) = some pipe.val

/-- The oldest parcel that waits becomes a gap where it was inside the pipe. -/
def dropInside (pipe : Fin 8) (inside : Bool) (s : State) : State :=
  match s.corr.inQ with
  | i :: l =>
    match i.item with
    | .parcel p =>
      if inside && pipeOf { s with corr := { s.corr with pipes := s.corr.pipes.set pipe.val { s.corr.pipes[pipe] with fenced := false } } }
          (pRegion p).toNat (pLine p) (entryOf s (pRegion p).toNat) == some pipe.val then
        s |> modCorr (fun c => { c with inQ := l }) |> engineGap i (pRegion p).toNat (pLine p)
      else s
    | _ => s
  | [] => s

theorem gives_pipeCheckFail {t : Nat} {pipe : Fin 8} {inside : Bool} {s a u : State} (ha : begin t s = a) (hr : active a = true)
    (he : engineOn a = true) (hf : a.corr.pipes[pipe].fenced = false) (h : dropInside pipe inside (fencePipe pipe a) = u) :
    Gives (.pipeCheckFail t pipe inside) s (substituteAll pipe (pipeRegions (fencePipe pipe a) pipe.val) u) := by
  refine gives_at (A := execPipeCheckFail t pipe inside s) rfl rfl ha ?_ (congrArg (substituteAll pipe _) h)
  simp only [hr, he, hf, Bool.not_false, Bool.and_self]

theorem dropInside_nil {pipe : Fin 8} {inside : Bool} {b : State} (h : b.corr.inQ = []) : dropInside pipe inside b = b := by
  unfold dropInside
  simp only [h]

theorem dropInside_false {pipe : Fin 8} {b : State} : dropInside pipe false b = b := by
  unfold dropInside
  split
  · split <;> rfl
  · rfl

theorem dropInside_parcel {pipe : Fin 8} {b : State} {i : QItem} {l : List QItem} {p : Parcel} (hq : b.corr.inQ = i :: l) (hi : i.item = .parcel p)
    (hp : insidePipe pipe b p) :
    dropInside pipe true b = (b |> modCorr (fun x => { x with inQ := l }) |> engineGap i (pRegion p).toNat (pLine p)) := by
  unfold dropInside
  simp only [hq, hi]
  exact if_pos (by rw [Bool.true_and]; exact beq_iff_eq.2 hp)

theorem dropInside_other {pipe : Fin 8} {inside : Bool} {b : State} {i : QItem} {l : List QItem} (hq : b.corr.inQ = i :: l)
    (hp : ∀ p, i.item = .parcel p → ¬ insidePipe pipe b p) : dropInside pipe inside b = b := by
  unfold dropInside
  simp only [hq]
  split
  · rename_i p hi
    refine if_neg fun hc => hp p hi ?_
    exact beq_iff_eq.1 (Bool.and_eq_true_iff.1 hc).2
  · rfl

/-- Settles O43. An item is processed under the entry it came under; a failed check fences its pipe, drops what was inside it and looks for substitutes. -/
theorem thePipesWork : Obligations.ThePipesWork := by
  unfold Obligations.ThePipesWork
  intro t s
  generalize ha : begin t s = a
  dsimp only
  intro hr he
  refine ⟨fun single double => ⟨fun h => ?_, fun i l h => ⟨fun hp => ?_, fun p hp => ?_⟩⟩,
    fun d i => ⟨fun c h => ?_, fun x h => ?_, fun p h => ⟨fun hl => ?_, fun k hl hs hp => ?_, fun hl hs => ?_⟩⟩,
    fun pipe hf => ⟨?_, fun h => ?_, fun i l hq => ⟨fun p hi hp => ?_, fun h => ?_⟩⟩, fun pipe inside hf => ?_⟩
  · refine gives_at (A := execPipeProcessParcel t single double s) rfl rfl ha (by rw [hr, he]; rfl) ?_
    simp only [h]
  · have hu := gives_pipeProcess ha hr he h rfl
    rw [hp] at hu
    exact hu
  · have hu := gives_pipeProcess ha hr he h rfl
    rw [hp] at hu
    exact hu
  · simp only [engineItem, h]
  · simp only [engineItem, h]
  · simp only [engineItem, h]
    exact if_pos hl
  · simp only [engineItem, h, enginePx, hl, pipeFor_of_served hs hl, hp, Bool.false_eq_true, ↓reduceIte]
  · simp only [engineItem, h, enginePx, hl, pipeFor_of_not hs, Bool.false_eq_true, ↓reduceIte]
  · exact gives_pipeCheckFail ha hr he hf dropInside_false
  · exact gives_pipeCheckFail ha hr he hf (dropInside_nil h)
  · exact gives_pipeCheckFail ha hr he hf (dropInside_parcel hq hi hp)
  · exact gives_pipeCheckFail ha hr he hf (dropInside_other hq h)
  · exact gives_rests (A := execPipeCheckFail t pipe inside s) rfl rfl ha (by simp only [hf, Bool.not_true, Bool.and_false])

end Sys2Proof.Machine
end

section
/-! The correction store at work (R264 to R277). -/

open Sys2Proof

namespace Sys2Proof.Machine

theorem storeStep_write {s : State} {before rest : List StoreWrite} {x : Nat} {bs : List Byte} {posted : Option Nat} {np : Option Asker} {n : Nat}
    (h : firstReady s [] s.corr.queue = some (before, .write x bs posted np n, rest)) :
    storeStep s = (s |> modCorr (fun c => { c with queue := before ++ rest }) |> performWrite x bs posted np) := by
  unfold storeStep
  simp only [h]

theorem storeStep_none {s : State} (h : firstReady s [] s.corr.queue = none) : storeStep s = s := by
  unfold storeStep
  simp only [h]

/-- Whether a write that waits in the queue comes before a mark and hits its extent. -/
def queuedBefore (s : State) (n : Nat) (hit : Nat → Bool) : Bool :=
  s.corr.queue.any fun w => match w with
    | .write a bs _ _ k => decide (k < n) && (List.range bs.length).any fun j => hit (a + j)
    | _ => false

theorem queuedBefore_iff {s : State} {n : Nat} {hit : Nat → Bool} :
    queuedBefore s n hit = true ↔ ∃ x bs posted np k j, StoreWrite.write x bs posted np k ∈ s.corr.queue ∧ k < n ∧ j < bs.length ∧ hit (x + j) = true := by
  unfold queuedBefore
  rw [List.any_eq_true]
  constructor
  · rintro ⟨w, hw, h⟩
    split at h
    · rename_i x bs posted np k
      obtain ⟨hk, hj⟩ := Bool.and_eq_true_iff.1 h
      obtain ⟨j, hj, hit⟩ := List.any_eq_true.1 hj
      exact ⟨x, bs, posted, np, k, j, hw, of_decide_eq_true hk, List.mem_range.1 hj, hit⟩
    · cases h
  · rintro ⟨x, bs, posted, np, k, j, hw, hk, hj, hit⟩
    exact ⟨_, hw, Bool.and_eq_true_iff.2 ⟨decide_eq_true hk, List.any_eq_true.2 ⟨j, List.mem_range.2 hj, hit⟩⟩⟩

/-- What a commit does whose mark has come to its place. -/
theorem gives_commitDrained {t : Nat} {r : Region} {safe : Bool} {n : Nat} {s a u : State} (ha : begin t s = a) (hr : active a = true)
    (h19 : gateOn a 19 = true) (hm : markOf a.corr safe r.toNat = some n)
    (h : (let hit := commitHit (dirOf a r.toNat) safe
      if queuedBefore a n hit || comesBefore a n hit then a
      else a
        |> modCorr (dropMark safe r.toNat)
        |> modDir r.toNat (fun d => if safe then { d with sState := if d.sState = .none then .none else .valid } else { d with drained := d.commitPending })
        |> answerWaiting (fun w => w.op == (if safe then 0x504 else 0x502) && field w.req.payload 0 2 % 4096 == r.toNat) 0 []) = u) :
    Gives (.commitWritesDrained t r safe) s u := by
  refine gives_at (A := execCommitWritesDrained t r safe s) rfl rfl ha (by rw [hr, h19]; rfl) (Eq.trans ?_ h)
  simp only [hm]
  rfl

/-- Settles O44. Each row of the store is taken where it holds; a mark is reached once nothing that comes before it is on its way. -/
theorem theStoreWorks : Obligations.TheStoreWorks := by
  unfold Obligations.TheStoreWorks
  intro t s
  generalize ha : begin t s = a
  dsimp only
  intro hr h19
  refine ⟨fun hl pos single double => ?_, fun hl he r => ⟨fun h => ?_, fun x h hx => ?_, fun h hx => ?_, fun single double => ⟨fun h => ?_, fun h => ?_⟩⟩,
    fun hl => ⟨fun before x bs posted np n rest h => ?_, fun h => ?_⟩, fun r safe => ⟨fun h => ?_, fun n hm => ⟨fun h => ?_, fun hq h => ?_⟩⟩,
    fun hl => ?_, fun hl => ?_⟩
  · exact gives_at (A := execStoreScrub t pos single double s) rfl rfl ha (by rw [hr, h19, hl]; rfl) rfl
  · exact gives_at (A := execExtentClearingDone t r s) rfl rfl ha (by rw [hr, he, hl]; rfl) (if_pos h)
  · refine gives_at (A := execExtentClearingDone t r s) rfl rfl ha (by rw [hr, he, hl]; rfl) ((if_neg h).trans ?_)
    simp only [hx]
  · refine gives_at (A := execExtentClearingDone t r s) rfl rfl ha (by rw [hr, he, hl]; rfl) ((if_neg h).trans ?_)
    simp only [hx]
  · exact gives_at (A := execCatchUpCopyDone t ⟨r, single, double⟩ s) rfl rfl ha (by rw [hr, he, hl]; rfl) (if_pos h)
  · exact gives_at (A := execCatchUpCopyDone t ⟨r, single, double⟩ s) rfl rfl ha (by rw [hr, he, hl]; rfl) (if_neg (Bool.eq_false_iff.1 h))
  · exact gives_at (A := execPostedWriteComplete t s) rfl rfl ha (by rw [hr, h19, hl]; rfl) (storeStep_write h)
  · exact gives_at (A := execPostedWriteComplete t s) rfl rfl ha (by rw [hr, h19, hl]; rfl) (storeStep_none h)
  · refine gives_at (A := execCommitWritesDrained t r safe s) rfl rfl ha (by rw [hr, h19]; rfl) ?_
    simp only [h]
  · refine gives_commitDrained ha hr h19 hm (if_pos (Bool.or_eq_true_iff.2 (h.imp_left fun hq => queuedBefore_iff.2 hq)))
  · refine gives_commitDrained ha hr h19 hm (if_neg fun hc => ?_)
    rcases Bool.or_eq_true_iff.1 hc with hc | hc
    · exact hq (queuedBefore_iff.1 hc)
    · rw [h] at hc; cases hc
  · exact gives_at (A := execStoreLost t s) rfl rfl ha (by rw [hr, h19]; rfl) (if_pos hl)
  · exact gives_at (A := execStoreLost t s) rfl rfl ha (by rw [hr, h19]; rfl) (if_neg (Bool.eq_false_iff.1 hl))

end Sys2Proof.Machine
end

section
/-! Monitors and safe states by time (R280 to R310). -/

open Sys2Proof

namespace Sys2Proof.Machine

/-- A safe frame is begun where its region is replaced, leaves by the gallery, and is due on it. -/
theorem safeFrame_due_iff {a : State} {r : Region} {g : GalIx} (hr : active a = true) (h16 : gateOn a 16 = true) :
    (active a && gateOn a 16 && replaced a r.toNat && decide (g ∈ leavesOn a r.toNat) && (galAt a g).lost.isNone && substDue a r.toNat g) = true ↔
      (replaced a r.toNat = true ∧ g ∈ leavesOn a r.toNat ∧ (galAt a g).lost = none ∧ substDue a r.toNat g = true) := by
  simp only [hr, h16, Bool.and_eq_true, decide_eq_true_eq, Option.isNone_iff_eq_none, true_and, and_assoc]

/-- Whether a cause of SAFE has been away for half a second. -/
def away (c : Bool) (o : Option Nat) (n : Nat) : Bool :=
  c && match o with
    | some e => decide (e + 500000000 ≤ n)
    | none => false

theorem away_iff {c : Bool} {o : Option Nat} {n : Nat} : away c o n = true ↔ c = true ∧ ∃ e, o = some e ∧ e + 500000000 ≤ n := by
  cases o <;> simp [away]

/-- The device leaves SAFE for a lost reference. -/
def endRefSafe (u : State) : State :=
  { modSafety (fun f => { f with refSafe := false }) u with
    clocks := { u.clocks with refFailure := false, sides := u.clocks.sides.map fun x => { x with affected := 0#8 } } }

/-- The device leaves SAFE for heat. -/
def endHeatSafe : State → State := modSafety fun f => { f with thermalSafe := false, thermalClearAt := none }

/-- What leaving SAFE comes to, from whether each of its two causes has been away long enough. -/
theorem gives_deviceSafeEnd {t : Nat} {s a : State} {p q : Bool} (ha : begin t s = a) (hg : guarding a = true)
    (hp : away a.clocks.refFailure (refBack a) a.now = p) (hq : away a.safety.thermalSafe a.safety.thermalClearAt a.now = q) :
    Gives (.deviceSafeEnd t) s (afterDevice a (doIf q endHeatSafe (doIf p endRefSafe a))) := by
  refine gives_at (A := execDeviceSafeEnd t s) rfl rfl ha hg ?_
  subst hp hq
  refine congrArg (afterDevice a) (congrArg (doIf (away a.safety.thermalSafe a.safety.thermalClearAt a.now) endHeatSafe) ?_)
  show doIf (away a.clocks.refFailure (refBack a) a.now) _ (doIf (away a.clocks.refFailure (refBack a) a.now) _ a) = _
  cases away a.clocks.refFailure (refBack a) a.now <;> rfl

theorem afterDevice_self (a : State) : afterDevice a a = a :=
  if_neg (by cases devSafe a || devLocked a <;> decide)

/-- What a sample of a sensor changes before it may trip the device. -/
theorem gives_sensorSample {t : Nat} {n : Fin 9} {v : Int} {s a u : State} (ha : begin t s = a) (hg : guarding a = true)
    (h : (let temps := a.diag.temps.set n.val v
      let low := temps.toList.all (· < 1200)
      let b := modSafety (fun f => { f with thermalLowAt := if low = false then none else if f.thermalLowAt.isSome then f.thermalLowAt else some a.now })
        { a with diag := { a.diag with temps, tempSeen := a.diag.tempSeen ||| (1#9 <<< n.val) } }
      if v ≥ 1300 ∧ !a.safety.thermal then
        internalTrip 0x1 n.val (fun f => { f with thermal := true, thermalSafe := f.record.internal != .lockout, thermalClearAt := none }) b
      else b) = u) : Gives (.sensorSample t n v) s u := by
  refine gives_at (A := execSensorSample t n v s) rfl rfl ha hg (Eq.trans ?_ h)
  dsimp only
  simp only [modSafety_safety, Bool.not_eq_true']

/-- The monitors' half of O45. -/
theorem monitorsKeepTime (t : Nat) (r : Region) (g : GalIx) (s : State) : let a := begin t s
     (active a = true → gateOn a 16 = true →
       let due := replaced a r.toNat = true ∧ g ∈ leavesOn a r.toNat ∧ (galAt a g).lost = none ∧ substDue a r.toNat g = true
       let b := audit r.toNat a
       let key := ((readerAt b r.toNat g false).bind (·.cutKey)).getD (nextKeySent b r.toNat g)
       let late := substDueAt b r.toNat g + periodOf b r.toNat < b.now
       (due → ¬ late → Gives (.safeFrameStart t r g) s (startFrame r.toNat g false key b)) ∧
       (due → late → Gives (.safeFrameStart t r g) s (startFrame r.toNat g false key (countDev 0x60A 0 b))) ∧
       (¬ due → Gives (.safeFrameStart t r g) s a)) ∧
     (active a = true →
       (∀ e, (monAt a r.toNat g).freshAt = some e →
         (e + par1 a r.toNat 1 * 1000000 ≤ a.now → Gives (.freshnessTimeout t r g) s (a |> modMon r.toNat g (fun m => { m with freshAt := none }) |> tripMon 1 r.toNat g)) ∧
         (a.now < e + par1 a r.toNat 1 * 1000000 → Gives (.freshnessTimeout t r g) s a)) ∧
       ((monAt a r.toNat g).freshAt = none → Gives (.freshnessTimeout t r g) s a) ∧
       (∀ e, (monAt a r.toNat g).overAt = some e →
         (e + 1000000000 ≤ a.now → Gives (.luminanceClear t r g) s (a |> modMon r.toNat g (fun m => { m with overAt := none }) |> clearMon 3 r.toNat g)) ∧
         (a.now < e + 1000000000 → Gives (.luminanceClear t r g) s a)) ∧
       ((monAt a r.toNat g).overAt = none → Gives (.luminanceClear t r g) s a) ∧
       (let l := (monAt a r.toNat g).faults
         let l' := l.filter fun f => a.now < f.2.2 + 1000000000;
         (l'.length = l.length → Gives (.driverFaultExpiry t r g) s a) ∧
         (l'.length ≠ l.length → l' ≠ [] → Gives (.driverFaultExpiry t r g) s (modMon r.toNat g (fun m => { m with faults := l' }) a)) ∧
         (l'.length ≠ l.length → l' = [] → Gives (.driverFaultExpiry t r g) s (a |> modMon r.toNat g (fun m => { m with faults := l' }) |> clearMon 5 r.toNat g))) ∧
       (∀ (n : Fin 12) (mv : Nat), Gives (.supplySample t n mv) s { a with diag := { a.diag with supplies := a.diag.supplies.set n.val mv } })) := by
  generalize ha : begin t s = a
  dsimp only
  refine ⟨fun hr h16 => ⟨fun h hl => ?_, fun h hl => ?_, fun h => ?_⟩,
    fun hr => ⟨fun e he => ⟨fun h => ?_, fun h => ?_⟩, fun he => ?_, fun e he => ⟨fun h => ?_, fun h => ?_⟩, fun he => ?_,
      ⟨fun h => ?_, fun h hx => ?_, fun h hx => ?_⟩, fun n mv => ?_⟩⟩
  · refine gives_at (A := execSafeFrameStart t r g s) rfl rfl ha ((safeFrame_due_iff hr h16).2 h) (congrArg (startFrame r.toNat g false _) (doIf_of_not ?_ _ _))
    exact decide_eq_false hl
  · refine gives_at (A := execSafeFrameStart t r g s) rfl rfl ha ((safeFrame_due_iff hr h16).2 h) (congrArg (startFrame r.toNat g false _) (doIf_of ?_ _ _))
    exact decide_eq_true hl
  · exact gives_rests (A := execSafeFrameStart t r g s) rfl rfl ha (Bool.eq_false_iff.2 fun hc => h ((safeFrame_due_iff hr h16).1 hc))
  · refine gives_at (A := execFreshnessTimeout t r g s) rfl rfl ha hr ?_
    simp only [he]
    exact if_pos h
  · refine gives_at (A := execFreshnessTimeout t r g s) rfl rfl ha hr ?_
    simp only [he]
    exact if_neg (Nat.not_le.2 h)
  · refine gives_at (A := execFreshnessTimeout t r g s) rfl rfl ha hr ?_
    simp only [he]
  · refine gives_at (A := execLuminanceClear t r g s) rfl rfl ha hr ?_
    simp only [he]
    exact if_pos h
  · refine gives_at (A := execLuminanceClear t r g s) rfl rfl ha hr ?_
    simp only [he]
    exact if_neg (Nat.not_le.2 h)
  · refine gives_at (A := execLuminanceClear t r g s) rfl rfl ha hr ?_
    simp only [he]
  · exact gives_at (A := execDriverFaultExpiry t r g s) rfl rfl ha hr (if_pos h)
  · exact gives_at (A := execDriverFaultExpiry t r g s) rfl rfl ha hr ((if_neg h).trans (doIf_of_not (by simpa using hx) _ _))
  · exact gives_at (A := execDriverFaultExpiry t r g s) rfl rfl ha hr ((if_neg h).trans (doIf_of (by rw [hx]; rfl) _ _))
  · exact gives_at (A := execSupplySample t n mv s) rfl rfl ha hr rfl

/-- Settles O45. What a monitor or a safe state waits for comes when its moment is past, and not before. -/
theorem monitorsAndSafeStatesKeepTime : Obligations.MonitorsAndSafeStatesKeepTime := by
  unfold Obligations.MonitorsAndSafeStatesKeepTime
  constructor
  · intro t r g s
    obtain ⟨h1, h2⟩ := monitorsKeepTime t r g s
    refine ⟨h1, h2, ?_⟩
    clear h1 h2
    generalize ha : begin t s = a
    refine ⟨fun hg => ⟨fun n v => ⟨fun h => ?_, fun h hx => ?_⟩, ⟨fun h => ?_, fun h => ?_⟩⟩, fun hr h16 hl => ?_, fun hl => ?_⟩
    · refine gives_sensorSample ha hg (if_neg ?_)
      rintro ⟨h1, h2⟩
      rcases h with h | h
      · omega
      · rw [h] at h2; cases h2
    · exact gives_sensorSample ha hg (if_pos ⟨h, by rw [hx]; rfl⟩)
    · obtain ⟨e, he, ht, hn⟩ := h
      refine gives_at (A := execThermalClear t s) rfl rfl ha hg ?_
      simp only [he]
      exact if_pos ⟨ht, hn⟩
    · refine gives_at (A := execThermalClear t s) rfl rfl ha hg ?_
      split
      · rename_i e he
        exact if_neg fun hc => h ⟨e, he, hc⟩
      · rfl
    · exact gives_at (A := execHallLost t s) rfl rfl ha (by rw [hr, h16, hl]; rfl) rfl
    · exact gives_rests (A := execHallLost t s) rfl rfl ha (by simp only [hl, Bool.not_true, Bool.and_false])
  · intro t r s
    generalize ha : begin t s = a
    dsimp only
    intro hg
    refine ⟨⟨fun h => ?_, fun h => ?_⟩, ⟨fun h h' => ?_, fun h h' => ?_, fun h h' => ?_, fun h h' => ?_⟩, afterDevice_self a⟩
    · obtain ⟨h1, h2, e, he, hn⟩ := h
      refine gives_at (A := execSafeStateEnd t r s) rfl rfl ha hg ?_
      simp only [he]
      exact if_pos ⟨h1, by rw [h2]; rfl, hn⟩
    · refine gives_at (A := execSafeStateEnd t r s) rfl rfl ha hg ?_
      dsimp only
      split
      · rename_i e he
        exact if_neg fun hc => h ⟨hc.1, List.isEmpty_iff.1 hc.2.1, e, he, hc.2.2⟩
      · rfl
    · exact gives_deviceSafeEnd (p := true) (q := true) ha hg (away_iff.2 h) (away_iff.2 h')
    · exact gives_deviceSafeEnd (p := true) (q := false) ha hg (away_iff.2 h) (Bool.eq_false_iff.2 fun hc => h' (away_iff.1 hc))
    · exact gives_deviceSafeEnd (p := false) (q := true) ha hg (Bool.eq_false_iff.2 fun hc => h (away_iff.1 hc)) (away_iff.2 h')
    · exact gives_deviceSafeEnd (p := false) (q := false) ha hg (Bool.eq_false_iff.2 fun hc => h (away_iff.1 hc))
        (Bool.eq_false_iff.2 fun hc => h' (away_iff.1 hc))

end Sys2Proof.Machine
end

section
/-! Lock-out, its release and password checks (R287 to R308). -/

open Sys2Proof

namespace Sys2Proof.Machine

/-- A release that has not seen its pin fall is not checked. -/
theorem checkRelease_unarmed {s : State} (h : s.safety.armed = none) : checkRelease s = s := by
  unfold checkRelease
  simp only [h]

theorem checkRelease_unfallen {s : State} {x : ReleaseArm} (h : s.safety.armed = some x) (hf : x.fell = none) : checkRelease s = s := by
  unfold checkRelease
  simp only [h, hf]

/-- A release whose pin has fallen is judged once the pin has been low for a second. -/
theorem checkRelease_fallen {s : State} {x : ReleaseArm} {f : Nat} (h : s.safety.armed = some x) (hf : x.fell = some f) :
    checkRelease s = if f + 1000000000 ≤ s.now ∧ !s.pins.clrN then
      if condPresent s x.scope x.group then failRelease 3 s
      else s
        |> modSafety (fun f => { f with armed := none })
        |> releaseScope x.scope x.group
        |> endArmed
        |> safetyLog x.requester 0x04 (releaseTarget x.scope x.group) x.node 0 0 noDigest noDigest (leBytes 1 x.scope ++ leBytes 1 x.group)
        |> raise 0x0604 (leBytes 1 x.scope ++ leBytes 1 x.group)
    else s := by
  unfold checkRelease
  simp only [h, hf]
  rfl

/-- What the fall of the release pin does. -/
theorem gives_clrFall {t : Nat} {s a u : State} (ha : begin t s = a) (hg : guarding a = true) (hp : a.pins.clrN = true)
    (h : (let b := { a with pins := { a.pins with clrN := false } }
      match b.safety.armed with
      | some x =>
        if x.at_ + 30000000000 < b.now then countDev 0x703 0 (failRelease 1 b)
        else modSafety (fun f => { f with armed := some { x with fell := some b.now } }) b
      | none => countDev 0x703 0 b) = u) : Gives (.lockoutClrNFall t) s u := by
  have hg' : guarding { a with pins := { a.pins with clrN := false } } = true := hg
  refine gives_at (A := execLockoutClrNFall t s) rfl rfl ha hp (Eq.trans ?_ h)
  simp only [hg', Bool.not_true, Bool.false_eq_true, ↓reduceIte] <;> rfl

/-- What the rise of the release pin does. -/
theorem gives_clrRise {t : Nat} {s a u : State} (ha : begin t s = a) (hg : guarding a = true) (hp : a.pins.clrN = false)
    (h : (match a.safety.armed.bind (·.fell) with
      | some f => if a.now < f + 1000000000 then failRelease 2 a else checkRelease a
      | none => a) = u) : Gives (.lockoutClrNRise t) s { u with pins := { u.pins with clrN := true } } := by
  refine gives_at (A := execLockoutClrNRise t s) rfl rfl ha (by rw [hp]; rfl) ?_
  subst h
  simp only [hg, ↓reduceIte] <;> rfl

theorem endCheck_idle {h : HostId} {u : State} (hw : (ringAt u h).wait = none) : endCheck h u = u := by
  unfold endCheck
  simp only [hw]

/-- What the check of a host that waits comes to. -/
theorem endCheck_waiting {h : HostId} {u : State} {w : Waiting} (hw : (ringAt u h).wait = some w) :
    endCheck h u = if u.safety.checking = some (hostIx h).val ∧ w.op / 256 = 6 ∧ w.at_ + 200000000 ≤ u.now then
      if rightPassword u (slice w.req.payload 1 (arg w.req 0 1)) then
        if w.op = 0x604 ∧ u.power.brownout.isSome then u
        else u |> modSafety (fun f => { f with checking := none }) |> afterCheck w |> answerWait h 0 []
      else u |> modSafety (fun f => { f with checking := none }) |> countDev 0xB03 0 |> answerWait h 6 []
    else u := by
  unfold endCheck
  simp only [hw]

/-- Settles O46. Each row is taken by what waits, is armed or in session, and by how long it has been so. -/
theorem lockOutAndPasswordChecks : Obligations.LockOutAndPasswordChecks := by
  unfold Obligations.LockOutAndPasswordChecks
  constructor
  · intro t s
    generalize ha : begin t s = a
    dsimp only
    intro hg
    refine ⟨fun n x l hb hl => ?_, fun h => ?_, ?_, fun x f hx hf => ⟨fun h1 h2 h3 => ?_, fun h1 h2 h3 => ?_, fun h => ?_⟩,
      fun x hx => ⟨fun hf => checkRelease_unfallen hx hf, fun hf h => ?_, fun h => ?_⟩, fun hx => ⟨checkRelease_unarmed hx, ?_⟩,
      fun hp => ⟨fun x hx h => ?_, fun x hx h => ?_, fun hx => ?_, ?_⟩,
      fun hp => ⟨fun x f hx hf h => ?_, fun x f hx hf h => ?_, fun x hx hf => ?_, fun hx => ?_, ?_⟩,
      fun x hx => ⟨fun h => ?_, fun h => ?_⟩, fun hx => ?_⟩
    · refine gives_at (A := execLockoutRecordWrite t s) rfl rfl ha (by rw [hg, hb]; rfl) ?_
      simp only [hl]
      rfl
    · refine gives_same (A := execLockoutRecordWrite t s) rfl rfl ha fun hok => ?_
      rcases h with h | h
      · simp only [h]
      · rw [Bool.and_eq_true, Option.isNone_iff_eq_none] at hok
        rw [hok.2] at h
        cases h
    · exact gives_at (A := execReleaseCheck t s) rfl rfl ha hg rfl
    · exact (checkRelease_fallen hx hf).trans ((if_pos ⟨h1, by rw [h2]; rfl⟩).trans (if_pos h3))
    · exact (checkRelease_fallen hx hf).trans ((if_pos ⟨h1, by rw [h2]; rfl⟩).trans (if_neg (Bool.eq_false_iff.1 h3)))
    · refine (checkRelease_fallen hx hf).trans (if_neg ?_)
      rintro ⟨h1, h2⟩
      rcases h with h | h
      · omega
      · rw [h] at h2; cases h2
    · refine gives_at (A := execReleaseArmExpiry t s) rfl rfl ha hg ?_
      simp only [hx]
      exact if_pos ⟨by rw [hf]; rfl, h⟩
    · refine gives_at (A := execReleaseArmExpiry t s) rfl rfl ha hg ?_
      simp only [hx]
      refine if_neg ?_
      rintro ⟨h1, h2⟩
      rcases h with h | h
      · rw [Option.isNone_iff_eq_none.1 h1] at h; cases h
      · omega
    · refine gives_at (A := execReleaseArmExpiry t s) rfl rfl ha hg ?_
      simp only [hx]
    · refine gives_clrFall ha hg hp ?_
      simp only [hx]
      exact if_neg (Nat.not_lt.2 h)
    · refine gives_clrFall ha hg hp ?_
      simp only [hx]
      exact if_pos h
    · refine gives_clrFall ha hg hp ?_
      simp only [hx]
    · exact gives_rests (A := execLockoutClrNRise t s) rfl rfl ha (by simp only [hp, Bool.not_true])
    · refine gives_clrRise ha hg hp ?_
      simp only [hx, hf, Option.bind_some]
      exact if_pos h
    · refine gives_clrRise ha hg hp ?_
      simp only [hx, hf, Option.bind_some]
      exact if_neg (Nat.not_lt.2 h)
    · refine gives_clrRise ha hg hp ?_
      simp only [hx, hf, Option.bind_some]
    · refine gives_clrRise ha hg hp ?_
      simp only [hx, Option.bind_none]
    · exact gives_rests (A := execLockoutClrNFall t s) rfl rfl ha hp
    · refine gives_at (A := execSessionTimeout t s) rfl rfl ha hg ?_
      simp only [hx]
      exact if_pos h
    · refine gives_at (A := execSessionTimeout t s) rfl rfl ha hg ?_
      simp only [hx]
      exact if_neg (Nat.not_le.2 h)
    · refine gives_at (A := execSessionTimeout t s) rfl rfl ha hg ?_
      simp only [hx]
  · intro t s
    generalize ha : begin t s = a
    dsimp only
    intro hr
    refine ⟨gives_at (A := execPasswordCheckDone t s) rfl rfl ha hr rfl, fun u h => ⟨fun w hw => ⟨fun hd hn => ?_, fun hd hn hb => ?_, fun hd hn ho hb => ?_, fun hd => ?_⟩,
      fun hw => endCheck_idle hw⟩⟩
    · exact (endCheck_waiting hw).trans ((if_pos hd).trans (if_neg (Bool.eq_false_iff.1 hn)))
    · refine (endCheck_waiting hw).trans ((if_pos hd).trans ((if_pos hn).trans (if_neg ?_)))
      rintro ⟨h1, h2⟩
      rcases hb with hb | hb
      · exact hb h1
      · rw [hb] at h2; cases h2
    · exact (endCheck_waiting hw).trans ((if_pos hd).trans ((if_pos hn).trans (if_pos ⟨ho, hb⟩)))
    · exact (endCheck_waiting hw).trans (if_neg hd)

end Sys2Proof.Machine
end

section
/-! Clock switches, gates, references and PLLs (R360 to R420). -/

open Sys2Proof

namespace Sys2Proof.Machine

/-- Settles O47. A switch and a gate end by what is there and by their time. -/
theorem switchesAndGatesEnd : Obligations.SwitchesAndGatesEnd := by
  unfold Obligations.SwitchesAndGatesEnd
  intro t s
  generalize ha : begin t s = a
  dsimp only
  intro hr
  refine ⟨fun i q hq => ⟨fun h => ?_, fun h => ?_, fun h hn => ?_, fun h hn => ?_, fun h hn => ?_, fun h hn => ?_⟩, fun i hq => ⟨?_, ?_⟩,
    fun u h => ?_, fun u h => ?_, fun u q hq => ⟨fun h => ?_, fun h => ?_⟩, fun u hq => ?_, fun m v => ?_⟩
  · refine gives_at (A := execClockSwitchComplete t i s) rfl rfl ha hr ?_
    simp only [hq]
    exact if_neg (Bool.eq_false_iff.1 h)
  · refine gives_at (A := execClockSwitchComplete t i s) rfl rfl ha hr ?_
    simp only [hq]
    exact if_pos h
  · refine gives_at (A := execForcedSwitch t i s) rfl rfl ha hr ?_
    simp only [hq]
    exact if_pos ⟨by rw [h]; rfl, hn⟩
  · refine gives_at (A := execForcedSwitch t i s) rfl rfl ha hr ?_
    simp only [hq, h, Bool.not_false, Bool.false_eq_true, false_and, true_and, ↓reduceIte]
    exact if_neg (Nat.not_lt.2 hn)
  · refine gives_at (A := execForcedSwitch t i s) rfl rfl ha hr ?_
    simp only [hq, h, hn, Bool.not_true, Bool.false_eq_true, false_and, and_false, ↓reduceIte]
  · refine gives_at (A := execForcedSwitch t i s) rfl rfl ha hr ?_
    simp only [hq, h, hn, Bool.not_true, Bool.false_eq_true, false_and, and_self, ↓reduceIte]
  · refine gives_at (A := execClockSwitchComplete t i s) rfl rfl ha hr ?_
    simp only [hq]
  · refine gives_at (A := execForcedSwitch t i s) rfl rfl ha hr ?_
    simp only [hq]
  · exact gives_at (A := execGateQuiesceAck t u s) rfl rfl ha hr (if_pos h)
  · exact gives_at (A := execGateQuiesceAck t u s) rfl rfl ha hr (if_neg (Bool.eq_false_iff.1 h))
  · refine gives_at (A := execForcedGate t u s) rfl rfl ha hr ?_
    simp only [hq]
    exact if_neg (Nat.not_lt.2 h)
  · refine gives_at (A := execForcedGate t u s) rfl rfl ha hr ?_
    simp only [hq]
    exact if_pos h
  · refine gives_at (A := execForcedGate t u s) rfl rfl ha hr ?_
    simp only [hq]
  · exact gives_at (A := execMeterGate t m v s) rfl rfl ha hr rfl

/-- What the loss of a reference does that was there, with the crystal there too. -/
theorem gives_refLost {t : Nat} {ref : Fin 2} {s a u : State} (ha : begin t s = a) (hr : supervising a = true) (h1 : srcLost a (refOf ref.val) = false)
    (h2 : srcLost a .xin = false)
    (h : (let b := declareLost ref.val a
      let l := sidesOn b (refOf ref.val)
      if l.isEmpty then b
      else if b.power.pstate ≠ .p0 then forAll l (fun sd => modSide sd fun x => { x with waiting := true, reported := false }) b
      else b |> forAll l loseSide |> internalTrip 0x4 ref.val (fun f => { f with refSafe := f.record.internal != .lockout })) = u) :
    Gives (.refclkLost t ref) s u := by
  refine gives_at (A := execRefclkLost t ref s) rfl rfl ha hr ((if_neg ?_).trans h)
  rw [h1, h2]
  decide

/-- The sides that take one choice of reference, found in what each would take. -/
theorem filter_choice {α β : Type} [BEq β] (l : List α) (f : α → β) (c : β) :
    (((l.map fun k => (k, f k)).filter fun x => x.2 == c).map (·.1)) = l.filter fun k => f k == c := by
  rw [List.filter_map, List.map_map]
  exact List.map_id _

/-- The references' half of O48. -/
theorem referencesComeAndGo (t : Nat) (s : State) : let a := begin t s
     (supervising a = true →
       (∀ ref : Fin 2, srcLost a (refOf ref.val) = false → srcLost a .xin = false → let b := declareLost ref.val a; let l := sidesOn b (refOf ref.val)
         (l = [] → Gives (.refclkLost t ref) s b) ∧
         (a.power.pstate ≠ .p0 → Gives (.refclkLost t ref) s (forAll l (fun sd => modSide sd fun x => { x with waiting := true, reported := false }) b)) ∧
         (a.power.pstate = .p0 → l ≠ [] → Gives (.refclkLost t ref) s
           (b |> forAll l loseSide |> internalTrip 0x4 ref.val (fun f => { f with refSafe := f.record.internal != .lockout })))) ∧
       (∀ ref : Fin 2, (srcLost a (refOf ref.val) || srcLost a .xin) = true → Gives (.refclkLost t ref) s a) ∧
       (∀ ref : Fin 3, a.clocks.refHealthy.getLsbD ref.val = false → (srcLost a .xin = false ∨ ref = 2 ∧ a.clocks.pll.getLsbD 0 = true) →
         let mine := a.clocks.switching.filter fun q => q.incoming == refOf ref.val && a.clocks.localReset.getLsbD q.island
         Gives (.refclkRestored t ref) s (a
           |> modClocks (fun c => { c with refLost := c.refLost &&& ~~~(1#3 <<< ref.val), refHealthy := c.refHealthy ||| (1#3 <<< ref.val) })
           |> forAll mine (fun q u => u
             |> modClocks (fun c => { c with localReset := if q.island < 16 then c.localReset else islandBit c.localReset q.island false })
             |> endSwitch q)
           |> raise 0x0904 (by8 ref.val))) ∧
       (∀ ref : Fin 3, (a.clocks.refHealthy.getLsbD ref.val = true ∨ srcLost a .xin = true ∧ (ref ≠ 2 ∨ a.clocks.pll.getLsbD 0 = false)) →
         Gives (.refclkRestored t ref) s a)) := by
  generalize ha : begin t s = a
  dsimp only
  intro hr
  refine ⟨fun ref h1 h2 => ⟨fun hl => ?_, fun hp => ?_, fun hp hl => ?_⟩, fun ref h => ?_, fun ref hh h => ?_, fun ref h => ?_⟩
  · exact gives_refLost ha hr h1 h2 (if_pos (by rw [hl]; rfl))
  · by_cases hl : sidesOn (declareLost ref.val a) (refOf ref.val) = []
    · rw [hl]
      exact gives_refLost ha hr h1 h2 (if_pos (by rw [hl]; rfl))
    · exact gives_refLost ha hr h1 h2 ((if_neg (by simpa using hl)).trans (if_pos hp))
  · exact gives_refLost ha hr h1 h2 ((if_neg (by simpa using hl)).trans (if_neg (not_not.2 hp)))
  · refine gives_at (A := execRefclkLost t ref s) rfl rfl ha hr (if_pos ?_)
    rwa [Bool.or_eq_true] at h
  · refine gives_at (A := execRefclkRestored t ref s) rfl rfl ha hr (if_neg ?_)
    rw [hh]
    rintro (hc | ⟨h1, h2⟩ | ⟨h1, h2, h3⟩)
    · cases hc
    · rcases h with h | ⟨h, -⟩
      · rw [h] at h2; cases h2
      · exact h1 (by rw [h]; rfl)
    · rcases h with h | ⟨-, h⟩
      · rw [h] at h2; cases h2
      · rw [h] at h3; cases h3
  · refine gives_at (A := execRefclkRestored t ref s) rfl rfl ha hr (if_pos ?_)
    rcases h with h | ⟨hx, h⟩
    · exact .inl h
    · by_cases h2 : ref.val = 2
      · exact .inr (.inr ⟨h2, hx, by rw [h.resolve_left (not_not.2 (Fin.ext h2))]; rfl⟩)
      · exact .inr (.inl ⟨h2, hx⟩)

/-- What the loss of the crystal does. -/
theorem gives_xinLost {t : Nat} {s a u : State} (ha : begin t s = a) (hr : supervising a = true) (hx : srcLost a .xin = false)
    (h : (let b := a |> declareLost 2
        |> modClocks (fun c => { c with pll := c.pll &&& 0b1100#4, refout := c.refout.map fun o => { o with locked := false } })
        |> modCorr (fun c => { c with selfRefresh := true })
      if b.power.pstate ≠ .p0 then forAll (sidesOn b .xin) (fun sd => modSide sd fun x => { x with waiting := true, reported := false }) b
      else b
        |> forAll (([16, 17, 18, 19, 20] : List Nat).filter (gateOn b)) (fun i => requestSwitch i false .ring)
        |> forAll (sidesOn b .xin) loseSide |> internalTrip 0x4 2 (fun f => { f with xinTrip := f.record.internal != .lockout })) = u) :
    Gives (.xinLost t) s u :=
  gives_at (A := execXinLost t s) rfl rfl ha hr ((if_neg (Bool.eq_false_iff.1 hx)).trans h)

/-- What a PLL that locks does. -/
theorem gives_pllLock {t : Nat} {p : Fin 4} {s a u : State} (ha : begin t s = a) (hr : active a = true) (hc : canLock a p.val = true)
    (hl : a.clocks.pll.getLsbD p.val = false)
    (h : (a |> modClocks (fun c => { c with pll := c.pll ||| (1#4 <<< p.val) }) |> moveToRun p.val
      |> doIf (p == 1 && gateOn a 19) (modCorr fun c => { c with selfRefresh := false })
      |> doIf (p == 2) (sideBack 0)
      |> doIf (p == 3) (sideBack 1)) = u) : Gives (.pllLock t p) s u :=
  gives_at (A := execPllLock t p s) rfl rfl ha (by rw [hr, hc, hl]; rfl) h

/-- What a PLL that unlocks does. -/
theorem gives_pllLockLoss {t : Nat} {p : Fin 4} {s a u : State} (ha : begin t s = a) (hr : active a = true)
    (hl : a.clocks.pll.getLsbD p.val = true)
    (h : (let park := if p.val < 2 then RefSrc.ring else .xin
      let gs := if p = 2 then sideGals 0 else if p = 3 then sideGals 1 else []
      let leave := fun (g : GalIx) (s : State) =>
        if galActive s g then loseGallery g 0x1 s else if hopRuns s g then enterDetect g s else s
      a |> forAll gs leave
        |> modClocks (fun c => { c with pll := c.pll &&& ~~~(1#4 <<< p.val) })
        |> forAll ((islandsOf p.val).filter fun i => a.clocks.onRun.getLsbD i) (fun i => requestSwitch i false park)) = u) :
    Gives (.pllLockLoss t p) s u :=
  gives_at (A := execPllLockLoss t p s) rfl rfl ha (by rw [hr, hl]; rfl) h

/-- The galleries that a side's PLL clocks. -/
theorem sideGals_of_pll : ∀ (p : Fin 4) (sd : Fin 2), p.val = 2 + sd.val →
    (if p = 2 then sideGals 0 else if p = 3 then sideGals 1 else []) = sideGals sd := by
  decide

/-- Settles O48. A source that goes or comes is judged by what runs on it and by the power state. -/
theorem referencesAndPlls : Obligations.ReferencesAndPlls := by
  unfold Obligations.ReferencesAndPlls
  constructor
  · intro t s
    have hrefs := referencesComeAndGo t s
    generalize ha : begin t s = a at hrefs
    dsimp only at hrefs ⊢
    refine ⟨fun hr => ?_, fun hf ref => ⟨fun h => ?_, fun h => ?_⟩⟩
    · obtain ⟨h1, h2, h3, h4⟩ := hrefs hr
      refine ⟨h1, h2, h3, h4, fun hx => ⟨fun hp => ?_, fun hp => ?_⟩, fun hx => ?_⟩
      · exact gives_xinLost ha hr hx (if_neg (not_not.2 hp))
      · exact gives_xinLost ha hr hx (if_pos hp)
      · exact gives_at (A := execXinLost t s) rfl rfl ha hr (if_pos hx)
    · exact gives_at (A := execReferenceSwitch t ref s) rfl rfl ha hf (if_pos (by rw [h]; rfl))
    · refine gives_at (A := execReferenceSwitch t ref s) rfl rfl ha hf ((if_neg (by rw [h]; decide)).trans ?_)
      simp only [filter_choice]
      rfl
  · intro t s
    generalize ha : begin t s = a
    dsimp only
    refine ⟨fun hr => ⟨fun p hc hl => ⟨fun hp => ?_, fun hp => ?_, fun hp => ?_, fun hp => ?_⟩, fun p h => ?_, fun p hl hp => ?_, fun p sd hl hp => ?_,
      fun p hl => ?_, fun ok => ?_⟩, fun out => ⟨fun h1 h2 h3 h4 => ?_, fun h => ?_⟩⟩
    · subst hp
      exact gives_pllLock ha hr hc hl rfl
    · subst hp
      refine gives_pllLock ha hr hc hl ?_
      cases gateOn a 19 <;> rfl
    · subst hp
      exact gives_pllLock ha hr hc hl rfl
    · subst hp
      exact gives_pllLock ha hr hc hl rfl
    · refine gives_rests (A := execPllLock t p s) rfl rfl ha ?_
      rcases h with h | h
      · simp only [h, Bool.and_false, Bool.false_and]
      · simp only [h, Bool.not_true, Bool.and_false]
    · refine gives_pllLockLoss ha hr hl ?_
      have h2 : p ≠ 2 := fun hc => by rw [hc] at hp; exact absurd hp (by decide)
      have h3 : p ≠ 3 := fun hc => by rw [hc] at hp; exact absurd hp (by decide)
      simp only [hp, h2, h3, ↓reduceIte]
      rfl
    · refine gives_pllLockLoss ha hr hl ?_
      have hn : ¬ p.val < 2 := by omega
      have hgs := sideGals_of_pll p sd hp
      simp only [hn, hgs, ↓reduceIte]
    · exact gives_rests (A := execPllLockLoss t p s) rfl rfl ha (by simp only [hl, Bool.and_false])
    · exact gives_at (A := execZcalCalibration t ok s) rfl rfl ha hr rfl
    · refine gives_at (A := execRefoutLock t out s) rfl rfl ha ?_ rfl
      have h2' : (a.power.pstate != PState.p3) = true := bne_iff_ne.2 h2
      simp only [h1, h2', h3, h4, Option.isNone_none, Bool.not_false, Bool.and_self]
    · refine gives_rests (A := execRefoutLock t out s) rfl rfl ha ?_
      rcases h with h | h
      · simp only [h, Bool.and_false, Bool.false_and]
      · simp only [h, Bool.not_true, Bool.and_false]

end Sys2Proof.Machine
end

section
/-! Resets and the boot (R454 to R475). -/

open Sys2Proof

namespace Sys2Proof.Machine

/-- A power-on reset that ends goes on to what the reset pin says. -/
theorem gives_powerOnReset {t : Nat} {s a u : State} (ha : begin t s = a) (hp : a.power.inReset = some .por) (ht : a.pins.testMode = false)
    (h : (let b := modPower (fun p => { p with rails := 0b111111#6, porAt := a.now, oscWaiting := true, cold := true, vioRange := a.pins.vio33 }) a
      if a.pins.resetNLow.isSome then modPower (fun p => { p with inReset := some .pin }) b else releaseReset b) = u) :
    Gives (.powerOnReset t) s u :=
  gives_at (A := execPowerOnReset t s) rfl rfl ha (by rw [hp, ht]; rfl) h

/-- Settles O49. A reset is held, ends or is left by what holds it and by the pins. -/
theorem resetsHoldAndEnd : Obligations.ResetsHoldAndEnd := by
  unfold Obligations.ResetsHoldAndEnd
  intro t s
  generalize ha : begin t s = a
  dsimp only
  refine ⟨fun hp ht => ⟨fun h => ?_, fun h => ?_⟩, fun h => ?_, fun rail => ?_, fun hp => ⟨fun hg => ?_, fun hg => ?_⟩, fun hp => ?_,
    fun hold => ⟨fun h1 h2 => ?_, fun h => ?_⟩, fun h1 h2 h3 => ?_, fun h => ?_⟩
  · exact gives_powerOnReset ha hp ht (if_neg (by rw [h]; decide))
  · exact gives_powerOnReset ha hp ht (if_pos h)
  · refine gives_rests (A := execPowerOnReset t s) rfl rfl ha ?_
    rcases h with h | h
    · rw [beq_eq_false_iff_ne.2 h]; rfl
    · simp only [h, Bool.not_true, Bool.and_false]
  · exact gives_at (A := execRailBelowThreshold t rail s) rfl rfl ha rfl rfl
  · exact gives_at (A := execVdramLoss t s) rfl rfl ha (bne_iff_ne.2 hp) (if_pos hg)
  · exact gives_at (A := execVdramLoss t s) rfl rfl ha (bne_iff_ne.2 hp) (if_neg (Bool.eq_false_iff.1 hg))
  · exact gives_rests (A := execVdramLoss t s) rfl rfl ha (by rw [hp]; rfl)
  · refine gives_at (A := execResetNLow t hold s) rfl rfl ha rfl ?_
    dsimp only
    split
    · rename_i h; exact absurd h h1
    · rename_i h; exact absurd h h2
    · rfl
  · refine gives_at (A := execResetNLow t hold s) rfl rfl ha rfl ?_
    rcases h with h | h <;> simp only [h]
  · exact gives_at (A := execOscWaitEnd t s) rfl rfl ha (by rw [h1, h2, decide_eq_true h3]; rfl) rfl
  · refine gives_rests (A := execOscWaitEnd t s) rfl rfl ha ?_
    rcases h with h | h
    · rw [decide_eq_false (Nat.not_le.2 h), Bool.and_false]
    · simp only [h, Bool.and_false, Bool.false_and]

/-- A device in service whose firmware runs from a confirmed slot, one of the two copies of whose record fails its CRC. -/
def wornSlot : State :=
  { power := { seqDone := true, oscWaiting := false, cold := false }
    mez := { run := .running, slot := some 0 }
    mram := { slots := #v[{ state := .confirmed, copiesBad := 1#2 }, {}] } }

/-- The copies of the first slot's record that fail their CRC after a step. -/
def badCopiesAfter (o : Answer) : BitVec 2 :=
  match o with
  | .next u => u.mram.slots[0].copiesBad
  | _ => 3#2

/-- The watchdog row writes the record of the slot in use anew, in TRIAL or not, and so both its copies are good after it. -/
theorem badCopies_watchdog : badCopiesAfter (exec (.mezzanineWatchdog 0) wornSlot) = 0#2 := by decide +kernel

/-- Refutes O50: at the watchdog's restart of firmware that runs from a slot out of TRIAL, the statement leaves that slot's record as it was, and the model writes it anew, which
mends a copy that fails its CRC. -/
theorem not_theDeviceBoots : ¬ Obligations.TheDeviceBoots := by
  unfold Obligations.TheDeviceBoots
  intro h
  have hstep := (((h.2 0 wornSlot).1 (by decide +kernel)).1 (by decide +kernel) (by decide +kernel)).2 (.inr ⟨0, by decide +kernel⟩)
  have hbad : badCopiesAfter (exec (.mezzanineWatchdog 0) wornSlot) = 1#2 := (congrArg badCopiesAfter hstep).trans (by decide +kernel)
  rw [badCopies_watchdog] at hbad
  exact absurd hbad (by decide)

end Sys2Proof.Machine
end

section
/-! Power states, brown-out and the freeze pin (R447 to R462, R497). -/

open Sys2Proof

namespace Sys2Proof.Machine

/-- An entry to a low power state that is turned down: the device goes on in P0. -/
def refuseEntry (a : State) : State :=
  let w := a |> modPower (fun p => { p with entry := none }) |> answerEntry 0x0A |> forAll (allGals.filter (galActive a)) updateLimits
  if w.live.cutMode = .automatic then startRun w else w

/-- What becomes of an entry that runs. -/
theorem gives_p2Drain {t : Nat} {s a u : State} {e : PowerEntry} (ha : begin t s = a) (hr : active a = true) (he : a.power.entry = some e)
    (h : (if !messagesGone a ∧ a.now < e.startedAt + 2000000 then a
      else if !messagesGone a ∨ e.safetyArose ∨ a.safety.armed.isSome then refuseEntry a
      else if e.target = 2 then sleep (answerEntry 0 a)
      else answerEntry 0 a |> endForP3 |> sleep |> resetDevice .p3 none |> modPower (fun p => { p with pstate := .p3, oscWaiting := false })) = u) :
    Gives (.p2DrainEnd t) s u := by
  refine gives_at (A := execP2DrainEnd t s) rfl rfl ha hr (Eq.trans ?_ h)
  simp only [he]
  rfl

/-- An entry is turned down after 2 ms, or for a safety condition. -/
theorem gives_refuseEntry {t : Nat} {s a : State} {e : PowerEntry} (ha : begin t s = a) (hr : active a = true) (he : a.power.entry = some e)
    (h : messagesGone a = false ∧ e.startedAt + 2000000 ≤ a.now ∨ messagesGone a = true ∧ (e.safetyArose = true ∨ a.safety.armed.isSome = true)) :
    Gives (.p2DrainEnd t) s (refuseEntry a) := by
  refine gives_p2Drain ha hr he ((if_neg ?_).trans (if_pos ?_))
  · rintro ⟨h1, h2⟩
    rcases h with ⟨-, h⟩ | ⟨h, -⟩
    · omega
    · rw [h] at h1; cases h1
  · rcases h with ⟨h, -⟩ | ⟨-, h⟩
    · exact .inl (by rw [h]; rfl)
    · exact .inr h

/-- The power half of O51. -/
theorem powerStatesEnd (t : Nat) (s : State) : let a := begin t s
     (active a = true → ∀ e : PowerEntry, a.power.entry = some e →
       (messagesGone a = false → a.now < e.startedAt + 2000000 → Gives (.p2DrainEnd t) s a) ∧
       (messagesGone a = true → e.safetyArose = false → a.safety.armed = none → e.target = 2 → Gives (.p2DrainEnd t) s (sleep (answerEntry 0 a))) ∧
       (messagesGone a = true → e.safetyArose = false → a.safety.armed = none → e.target ≠ 2 → Gives (.p2DrainEnd t) s
         (answerEntry 0 a |> endForP3 |> sleep |> resetDevice .p3 none |> modPower (fun p => { p with pstate := .p3, oscWaiting := false }))) ∧
       ((messagesGone a = false ∧ e.startedAt + 2000000 ≤ a.now ∨ messagesGone a = true ∧ (e.safetyArose = true ∨ a.safety.armed.isSome = true)) →
         let w := a |> modPower (fun p => { p with entry := none }) |> answerEntry 0x0A |> forAll (allGals.filter (galActive a)) updateLimits
         (w.live.cutMode = .automatic → Gives (.p2DrainEnd t) s (startRun w)) ∧ (w.live.cutMode ≠ .automatic → Gives (.p2DrainEnd t) s w))) ∧
     (a.power.entry = none → Gives (.p2DrainEnd t) s a) := by
  generalize ha : begin t s = a
  dsimp only
  refine ⟨fun hr e he => ⟨fun h1 h2 => ?_, fun h1 h2 h3 h4 => ?_, fun h1 h2 h3 h4 => ?_, fun h => ⟨fun hm => ?_, fun hm => ?_⟩⟩, fun he => ?_⟩
  · exact gives_p2Drain ha hr he (if_pos ⟨by rw [h1]; rfl, h2⟩)
  · refine gives_p2Drain ha hr he ((if_neg (by rw [h1]; rintro ⟨h, -⟩; cases h)).trans ((if_neg ?_).trans (if_pos h4)))
    rw [h1, h2, h3]
    decide
  · refine gives_p2Drain ha hr he ((if_neg (by rw [h1]; rintro ⟨h, -⟩; cases h)).trans ((if_neg ?_).trans (if_neg h4)))
    rw [h1, h2, h3]
    decide
  · have hu := gives_refuseEntry ha hr he h
    rwa [refuseEntry, if_pos hm] at hu
  · have hu := gives_refuseEntry ha hr he h
    rwa [refuseEntry, if_neg hm] at hu
  · refine gives_same (A := execP2DrainEnd t s) rfl rfl ha fun _ => ?_
    simp only [he]

/-- What the end of a brown-out does while the device is guarded. -/
theorem gives_brownoutEnd {t b : Nat} {s a : State} (ha : begin t s = a) (hp : a.power.inReset ≠ some .por) (hb : a.power.brownout = some b)
    (hg : guarding a = true) :
    let long := a.power.brownSustained || decide (b + 10000000 < a.now)
    let w := { a with power := { a.power with brownout := none, brownSustained := false } } |> writeWaiting |> writeUpdate
    Gives (.brownoutEnd t) s ({ w with log := { w.log with staging := w.log.staging.map fun e => { e with deferred := true } } }
      |> doIf (long && !a.power.brownSustained) (countDev 0xA05 0) |> countDev 0xA04 0
      |> raise 0x0905 (by32 (min ((a.now - b) / 1000) (2 ^ 32 - 1)) ++ by8 (if long then 1 else 0))) := by
  refine gives_at (A := execBrownoutEnd t s) rfl rfl ha (bne_iff_ne.2 hp) ?_
  simp only [hb]
  exact if_pos hg

/-- Settles O51. An entry, a warning and a pin are taken by the power state and by their time. -/
theorem powerStatesAndBrownOut : Obligations.PowerStatesAndBrownOut := by
  unfold Obligations.PowerStatesAndBrownOut
  constructor
  · intro t s
    obtain ⟨h1, h2⟩ := powerStatesEnd t s
    refine ⟨h1, h2, ?_⟩
    clear h1 h2
    generalize ha : begin t s = a
    dsimp only
    refine ⟨fun hr d hd => ⟨fun h hm => ?_, fun h hm => ?_, fun h => ?_⟩, fun hd => ?_, fun low => ⟨fun h hp => ?_, fun h hp => ?_, fun h => ?_⟩⟩
    · refine gives_at (A := execCutterHoldExpiry t s) rfl rfl ha hr ?_
      simp only [hd, h, ↓reduceIte]
      exact if_neg hm
    · refine gives_at (A := execCutterHoldExpiry t s) rfl rfl ha hr ?_
      simp only [hd, h, ↓reduceIte]
      exact if_pos hm
    · refine gives_at (A := execCutterHoldExpiry t s) rfl rfl ha hr ?_
      simp only [hd]
      exact if_neg (Nat.not_le.2 h)
    · refine gives_same (A := execCutterHoldExpiry t s) rfl rfl ha fun _ => ?_
      simp only [hd]
    · refine gives_at (A := execWakeNFall t low s) rfl rfl ha rfl ((if_pos h).trans ?_)
      simp only [wake, hp]
    · refine gives_at (A := execWakeNFall t low s) rfl rfl ha rfl ((if_pos h).trans ?_)
      simp only [wake, hp]
    · refine gives_at (A := execWakeNFall t low s) rfl rfl ha rfl ?_
      rcases h with h | h
      · exact if_neg (Bool.eq_false_iff.1 h)
      · refine ite_eq_right_iff.2 fun _ => ?_
        simp only [wake, h]
  · intro t s
    generalize ha : begin t s = a
    dsimp only
    refine ⟨fun hp hb => ⟨?_, ?_⟩, fun h => ?_, fun hg b hb => ⟨fun h1 h2 => ?_, fun h => ?_, fun hp => gives_brownoutEnd ha hp hb hg⟩, fun hb => ?_, fun hg hp hb => ?_,
      fun h1 h2 h3 => ?_, fun h => ?_, fun hc high h => ?_, fun hc ht high h => ?_, fun high h1 h2 => ?_, fun hc ht high => ?_⟩
    · exact gives_at (A := execBrownoutWarning t s) rfl rfl ha (by rw [bne_iff_ne.2 hp, hb]; rfl) rfl
    · refine gives_at (A := execBrownoutEnd t s) rfl rfl ha (bne_iff_ne.2 hp) ?_
      simp only [hb]
    · refine gives_rests (A := execBrownoutWarning t s) rfl rfl ha ?_
      rcases h with h | h
      · rw [Option.isSome_iff_ne_none] at h
        rw [Option.isNone_eq_false_iff.2 (Option.isSome_iff_ne_none.2 h), Bool.and_false]
      · rw [h]; rfl
    · refine gives_at (A := execBrownoutSustained t s) rfl rfl ha hg ?_
      simp only [hb]
      rw [if_pos ⟨h1, by rw [h2]; rfl⟩, ← hb]
      rfl
    · refine gives_at (A := execBrownoutSustained t s) rfl rfl ha hg ?_
      simp only [hb]
      refine if_neg ?_
      rintro ⟨h1, h2⟩
      rcases h with h | h
      · omega
      · rw [h] at h2; cases h2
    · refine gives_same (A := execBrownoutSustained t s) rfl rfl ha fun _ => ?_
      simp only [hb]
    · obtain ⟨b, hb⟩ := Option.isSome_iff_exists.1 hb
      refine gives_at (A := execBrownoutEnd t s) rfl rfl ha (bne_iff_ne.2 hp) ?_
      simp only [hb]
      exact if_neg (Bool.eq_false_iff.1 hg)
    · exact gives_at (A := execReturnedErasure t s) rfl rfl ha (by rw [h1, h2, h3]; rfl) rfl
    · refine gives_rests (A := execReturnedErasure t s) rfl rfl ha ?_
      rcases h with h | h
      · simp only [h, Bool.and_false, Bool.false_and]
      · rw [Option.isNone_eq_false_iff.2 h, Bool.and_false]
    · refine gives_at (A := execFreezeNFall t high s) rfl rfl ha (by rw [hc]; rfl) ((if_neg (by omega)).trans (if_neg ?_))
      simp only [canFreeze, alwaysOn, Bool.and_eq_true, Bool.not_eq_true'] at hc
      rw [hc.1.2]
      decide
    · refine gives_at (A := execFreezeNFall t high s) rfl rfl ha (by rw [ht, Bool.or_true]) ((if_neg (by omega)).trans (if_pos ?_))
      simp only [freezeTie, Bool.and_eq_true] at ht
      exact ht.1.2
    · exact gives_same (A := execFreezeNFall t high s) rfl rfl ha fun _ => if_pos ⟨h1, h2⟩
    · exact gives_rests (A := execFreezeNFall t high s) rfl rfl ha (by rw [hc, ht]; rfl)

end Sys2Proof.Machine
end

section
/-! The bridge at port 9 (R317 to R335). -/

open Sys2Proof

namespace Sys2Proof.Machine

/-- What port 9 does with a parcel of a kind and class, and that it leaves any other. -/
theorem port9_guard {a : State} {p : Parcel} {k : Nat} {c : Cls} (h : port9Serves a = false ∨ pKind p ≠ k ∨ pCls p ≠ c) :
    (port9Serves a && pKind p == k && pCls p == c) = false := by
  rcases h with h | h | h
  · rw [h]; rfl
  · rw [beq_eq_false_iff_ne.2 h, Bool.and_false, Bool.false_and]
  · rw [beq_eq_false_iff_ne.2 h, Bool.and_false]

theorem port9_meets {a : State} {p : Parcel} {k : Nat} {c : Cls} (h : port9Serves a = true) (hk : pKind p = k) (hc : pCls p = c) :
    (port9Serves a && pKind p == k && pCls p == c) = true := by
  rw [h, hk, hc, beq_self_eq_true, beq_self_eq_true]
  rfl

/-- What a read does once its source's buffer is the one it reads from or is gone. -/
theorem gives_bridgeRead {t : Nat} {port : Fin 10} {p : Parcel} {ahead : Nat} {single double : List Nat} {s a b u : State} {x : Access} (ha : begin t s = a)
    (hr : (port9Serves a && pKind p == 1 && pCls p == .np) = true) (hx : accessOf p port.val (arrivalOf a port.val p) = x)
    (hb : (let c := noteErrors single double (takeMgmt port.val p a)
      if (bufferFor c x.asker.src x.address).isSome then c
      else modBridge (fun k => { k with prefetch := k.prefetch.filter fun y => y.src != x.asker.src }) c) = b)
    (h : (if tagCheck b x.asker ≠ 0 then refuseTag x.asker (tagCheck b x.asker) b
      else if !readFormed p x then refuse x.asker 3 b
      else match decodeWindow b x.asker.src x.address x.count with
        | none => b |> noWindow |> refuse x.asker 2
        | some w => if !fitsWindow w x || (x.lock && !winFlag w 58) then refuse x.asker 3 b else readTarget w x ahead b) = u) :
    Gives (.bridgeRead t port p ahead single double) s u := by
  subst hx hb h
  exact gives_at (A := execBridgeRead t port p ahead single double s) rfl rfl ha hr rfl

theorem gives_bridgePosted {t : Nat} {port : Fin 10} {p : Parcel} {s a u : State} {x : Access} (ha : begin t s = a)
    (hr : (port9Serves a && pKind p == 2 && pCls p == .pm) = true) (hn : a.bridge.posted.length < 256)
    (hx : accessOf p port.val (arrivalOf a port.val p) = x)
    (h : (let d := takeMgmt port.val p a
      if !writeFormed p x then lateError x.asker x.address x.count 3 d
      else match decodeWindow d x.asker.src x.address x.count with
        | none => d |> noWindow |> lateError x.asker x.address x.count 1
        | some w =>
          match postedFails w x d with
          | some r => lateError x.asker x.address x.count r d
          | none => acceptPosted w x d) = u) : Gives (.bridgeWritePosted t port p) s u := by
  subst hx h
  exact gives_at (A := execBridgeWritePosted t port p s) rfl rfl ha (by rw [hr, decide_eq_true hn]; rfl) rfl

theorem gives_bridgeNonposted {t : Nat} {port : Fin 10} {p : Parcel} {s a u : State} {x : Access} (ha : begin t s = a)
    (hr : (port9Serves a && pKind p == 2 && pCls p == .np) = true) (hx : accessOf p port.val (arrivalOf a port.val p) = x)
    (h : (let d := takeMgmt port.val p a
      if tagCheck d x.asker ≠ 0 then refuseTag x.asker (tagCheck d x.asker) d
      else if !writeFormed p x then refuse x.asker 3 d
      else match decodeWindow d x.asker.src x.address x.count with
        | none => d |> noWindow |> refuse x.asker 2
        | some w =>
          if winFlag w 59 then refuse x.asker 2 d
          else if !fitsWindow w x || (x.lock && !winFlag w 58) then refuse x.asker 3 d
          else writeTarget w x d) = u) : Gives (.bridgeWriteNonposted t port p) s u := by
  subst hx h
  exact gives_at (A := execBridgeWriteNonposted t port p s) rfl rfl ha hr rfl

/-- What a completion does to the remote access that is outstanding. -/
theorem gives_completion {t : Nat} {port : Fin 10} {p : Parcel} {s a u : State} {r : RemoteReq} (ha : begin t s = a)
    (hr : (port9Serves a && pKind p == 3 && pCls p == .cp) = true) (h22 : gateOn a 22 = true) (hm : a.bridge.remote = some r)
    (h : (let d := takeMgmt port.val p a
      let got := r.got ++ (p.payload.drop 4).take (field p.payload 2 2 % 4096)
      if (pTag p).toNat ≠ r.tag then d
      else if (pAttr p).toNat ≠ 0 then
        d |> modBridge (fun b => { b with remote := none }) |> answerWait (allHosts.getD r.ring .link) 0 (remotePayload (pAttr p).toNat [])
      else if r.read ∧ got.length < r.count then modBridge (fun b => { b with remote := some { r with got } }) d
      else d |> modBridge (fun b => { b with remote := none })
        |> answerWait (allHosts.getD r.ring .link) 0 (remotePayload 0 (if r.read then got else []))) = u) :
    Gives (.completionReceive t port p) s u := by
  refine gives_at (A := execCompletionReceive t port p s) rfl rfl ha hr ((if_pos h22).trans (Eq.trans ?_ h))
  have hm' : (takeMgmt port.val p a).bridge.remote = some r := hm
  unfold takeCompletion
  simp only [hm']

/-- The accesses' half of O52. -/
theorem bridgeServesAccesses (t : Nat) (port : Fin 10) (p : Parcel) (s : State) : let a := begin t s
     let x := accessOf p port.val (arrivalOf a port.val p)
     let d := takeMgmt port.val p a
     (port9Serves a = true → pKind p = 1 → pCls p = .np → ∀ (ahead : Nat) (single double : List Nat), let c := noteErrors single double d
       let b := if (bufferFor c x.asker.src x.address).isSome then c else modBridge (fun k => { k with prefetch := k.prefetch.filter fun y => y.src != x.asker.src }) c
       (tagCheck b x.asker ≠ 0 → Gives (.bridgeRead t port p ahead single double) s (refuseTag x.asker (tagCheck b x.asker) b)) ∧
       (tagCheck b x.asker = 0 → readFormed p x = false → Gives (.bridgeRead t port p ahead single double) s (refuse x.asker 3 b)) ∧
       (tagCheck b x.asker = 0 → readFormed p x = true → decodeWindow b x.asker.src x.address x.count = none →
         Gives (.bridgeRead t port p ahead single double) s (refuse x.asker 2 (noWindow b))) ∧
       (∀ w, tagCheck b x.asker = 0 → readFormed p x = true → decodeWindow b x.asker.src x.address x.count = some w →
         ((!fitsWindow w x || (x.lock && !winFlag w 58)) = true → Gives (.bridgeRead t port p ahead single double) s (refuse x.asker 3 b)) ∧
         ((!fitsWindow w x || (x.lock && !winFlag w 58)) = false → Gives (.bridgeRead t port p ahead single double) s (readTarget w x ahead b)))) := by
  generalize ha : begin t s = a
  dsimp only
  intro hs hk hc ahead single double
  have hr := port9_meets hs hk hc
  refine ⟨fun h => ?_, fun h hf => ?_, fun h hf hw => ?_, fun w h hf hw => ⟨fun hx => ?_, fun hx => ?_⟩⟩
  · exact gives_bridgeRead ha hr rfl rfl (if_pos h)
  · exact gives_bridgeRead ha hr rfl rfl ((if_neg (not_not.2 h)).trans (if_pos (by rw [hf]; rfl)))
  · refine gives_bridgeRead ha hr rfl rfl ((if_neg (not_not.2 h)).trans ((if_neg (by rw [hf]; decide)).trans ?_))
    simp only [hw]
  · refine gives_bridgeRead ha hr rfl rfl ((if_neg (not_not.2 h)).trans ((if_neg (by rw [hf]; decide)).trans ?_))
    simp only [hw]
    exact if_pos hx
  · refine gives_bridgeRead ha hr rfl rfl ((if_neg (not_not.2 h)).trans ((if_neg (by rw [hf]; decide)).trans ?_))
    simp only [hw]
    exact if_neg (Bool.eq_false_iff.1 hx)

/-- Settles O52. A parcel at port 9 is taken by its kind and class, and an access by the first check that it fails. -/
theorem theBridgeServesPortNine : Obligations.TheBridgeServesPortNine := by
  unfold Obligations.TheBridgeServesPortNine
  constructor
  · intro t port p s
    refine ⟨bridgeServesAccesses t port p s, ?_⟩
    generalize ha : begin t s = a
    refine ⟨fun hs hk hc hn => ⟨fun hf => ?_, fun hf hw => ?_, fun w r hf hw hp => ?_, fun w hf hw hp => ?_⟩, fun hn => ?_,
      fun hs hk hc => ⟨fun h => ?_, fun h hf => ?_, fun h hf hw => ?_, fun w h hf hw => ⟨fun hb => ?_, fun hb hx => ?_, fun hb hx => ?_⟩⟩,
      fun ahead single double h => ?_, fun h => ?_, fun h => ?_⟩
    · exact gives_bridgePosted ha (port9_meets hs hk hc) hn rfl (if_pos (by rw [hf]; rfl))
    · refine gives_bridgePosted ha (port9_meets hs hk hc) hn rfl ((if_neg (by rw [hf]; decide)).trans ?_)
      simp only [hw]
    · refine gives_bridgePosted ha (port9_meets hs hk hc) hn rfl ((if_neg (by rw [hf]; decide)).trans ?_)
      simp only [hw, hp]
    · refine gives_bridgePosted ha (port9_meets hs hk hc) hn rfl ((if_neg (by rw [hf]; decide)).trans ?_)
      simp only [hw, hp]
    · exact gives_rests (A := execBridgeWritePosted t port p s) rfl rfl ha (by rw [decide_eq_false (Nat.not_lt.2 hn), Bool.and_false])
    · exact gives_bridgeNonposted ha (port9_meets hs hk hc) rfl (if_pos h)
    · exact gives_bridgeNonposted ha (port9_meets hs hk hc) rfl ((if_neg (not_not.2 h)).trans (if_pos (by rw [hf]; rfl)))
    · refine gives_bridgeNonposted ha (port9_meets hs hk hc) rfl ((if_neg (not_not.2 h)).trans ((if_neg (by rw [hf]; decide)).trans ?_))
      simp only [hw]
    · refine gives_bridgeNonposted ha (port9_meets hs hk hc) rfl ((if_neg (not_not.2 h)).trans ((if_neg (by rw [hf]; decide)).trans ?_))
      simp only [hw]
      exact if_pos hb
    · refine gives_bridgeNonposted ha (port9_meets hs hk hc) rfl ((if_neg (not_not.2 h)).trans ((if_neg (by rw [hf]; decide)).trans ?_))
      simp only [hw]
      exact (if_neg (Bool.eq_false_iff.1 hb)).trans (if_pos hx)
    · refine gives_bridgeNonposted ha (port9_meets hs hk hc) rfl ((if_neg (not_not.2 h)).trans ((if_neg (by rw [hf]; decide)).trans ?_))
      simp only [hw]
      exact (if_neg (Bool.eq_false_iff.1 hb)).trans (if_neg (Bool.eq_false_iff.1 hx))
    · exact gives_rests (A := execBridgeRead t port p ahead single double s) rfl rfl ha (port9_guard h)
    · exact gives_rests (A := execBridgeWritePosted t port p s) rfl rfl ha (by rw [port9_guard h, Bool.false_and])
    · exact gives_rests (A := execBridgeWriteNonposted t port p s) rfl rfl ha (port9_guard h)
  · intro t port p s
    generalize ha : begin t s = a
    dsimp only
    refine ⟨fun hs hk hc => ⟨fun h => ?_, fun r h22 hm => ⟨fun ht => ?_, fun ht hz => ?_, fun ht hz hd => ?_, fun ht hz hd => ⟨fun hl => ?_, fun hl => ?_⟩⟩⟩,
      fun hs hk hc => ⟨fun h => ?_, fun h => ?_⟩, fun h => ?_, fun h => ?_, fun h => ?_, fun h => ?_⟩
    · refine gives_at (A := execCompletionReceive t port p s) rfl rfl ha (port9_meets hs hk hc) ?_
      rcases h with h | h
      · exact if_neg (Bool.eq_false_iff.1 h)
      · refine ite_eq_right_iff.2 fun _ => ?_
        have h' : (takeMgmt port.val p a).bridge.remote = none := h
        unfold takeCompletion
        simp only [h']
    · exact gives_completion ha (port9_meets hs hk hc) h22 hm (if_pos ht)
    · exact gives_completion ha (port9_meets hs hk hc) h22 hm ((if_neg (not_not.2 ht)).trans (if_pos hz))
    · refine gives_completion ha (port9_meets hs hk hc) h22 hm ((if_neg (not_not.2 ht)).trans ((if_neg (not_not.2 hz)).trans ((if_neg ?_).trans ?_)))
      · rw [hd]; rintro ⟨h, -⟩; cases h
      · simp only [hd, Bool.false_eq_true, ↓reduceIte]
    · exact gives_completion ha (port9_meets hs hk hc) h22 hm ((if_neg (not_not.2 ht)).trans ((if_neg (not_not.2 hz)).trans (if_pos ⟨hd, hl⟩)))
    · refine gives_completion ha (port9_meets hs hk hc) h22 hm ((if_neg (not_not.2 ht)).trans ((if_neg (not_not.2 hz)).trans ((if_neg ?_).trans ?_)))
      · rintro ⟨-, h⟩; omega
      · simp only [hd, ↓reduceIte]
    · exact gives_at (A := execEventRelay t port p s) rfl rfl ha (port9_meets hs hk hc) (if_pos h)
    · exact gives_at (A := execEventRelay t port p s) rfl rfl ha (port9_meets hs hk hc) (if_neg h)
    · exact gives_rests (A := execCompletionReceive t port p s) rfl rfl ha (port9_guard h)
    · exact gives_rests (A := execEventRelay t port p s) rfl rfl ha (port9_guard h)
    · exact gives_at (A := execPrefetchExpiry t s) rfl rfl ha h rfl
    · exact gives_rests (A := execPrefetchExpiry t s) rfl rfl ha h

end Sys2Proof.Machine
end

section
/-! Port L (R421 to R434). -/

open Sys2Proof

namespace Sys2Proof.Machine

section
variable {kind : PlReq → Bool} {run : PlReq → State → State} {a : State} {r : PlReq}

/-- With no request the bus is left alone. -/
theorem onBus_idle (h : nextReq a = none) : onBus kind run a = a := by
  unfold onBus
  simp only [h]

/-- A request of another kind is none of the command's. -/
theorem onBus_other (h : nextReq a = some r) (hk : kind r = false) : onBus kind run a = a := by
  unfold onBus
  simp only [h, hk, Bool.false_eq_true, ↓reduceIte]

/-- A request that the recovery failed is not run. -/
theorem onBus_failed (h : nextReq a = some r) (hk : kind r = true) (hw : r ∉ (recoverIfDue a).portL.waiting) : onBus kind run a = recoverIfDue a := by
  unfold onBus
  simp only [h, hk, ↓reduceIte]
  exact if_neg hw

theorem onBus_recovered (h : nextReq a = some r) (hk : kind r = true) (hw : r ∈ (recoverIfDue a).portL.waiting) :
    onBus kind run a = run r (recoverIfDue a) := by
  unfold onBus
  simp only [h, hk, ↓reduceIte]
  exact if_pos hw

end

/-- What a locked read that is acknowledged does. -/
theorem runLocked_acked {r : PlReq} {acked : Nat} {data : List Byte} {c : State} {since : Option Nat}
    (hx : (runBus r (if c.portL.lock.isSome then busAgain else busStart) false acked data).2.1 = true)
    (hn : c.portL.lock = none → since = some c.now) (hl : ∀ o, c.portL.lock = some o → since = o.since) :
    runLocked r acked data c = (let x := runBus r (if c.portL.lock.isSome then busAgain else busStart) false acked data
      c |> takeReq r |> emit (.portL x.1)
        |> modPortL (fun p => { p with lock := some { src := r.asker.src, address := r.address, since },
                                       lostFor := if p.lostFor.map (·.1) = some r.asker.src then none else p.lostFor })
        |> endReq r 0 0 x.2.2 |> retryOthers r.asker.src) := by
  have hs : since = match c.portL.lock with
      | some l => l.since
      | none => some c.now := by
    cases h : c.portL.lock with
    | none => exact hn h
    | some l => exact hl l h
  subst hs
  exact if_pos hx

/-- The requests' half of O53. -/
theorem portLServesRequests (t : Nat) (s : State) : let a := begin t s
     portLRuns a = true →
     (∀ r : PlReq, nextReq a = some r → let c := recoverIfDue a
       (r ∈ c.portL.waiting →
         (∀ (acked : Nat) (data : List Byte), r.lock = false → let x := runBus r busStart true acked data
           let b := c |> takeReq r |> emit (.portL x.1) |> modPortL (fun p => { p with filter := c.live.twFilter })
           (x.2.1 = true → Gives (.portlTransaction t acked data) s (endReq r 0 0 x.2.2 b)) ∧
           (x.2.1 = false → Gives (.portlTransaction t acked data) s (b |> countDev 0x904 0 |> endReq r 5 7 []))) ∧
         (∀ (acked : Nat) (data : List Byte), r.lock = true → r.read = true → let x := runBus r (if c.portL.lock.isSome then busAgain else busStart) false acked data
           let b := c |> takeReq r |> emit (.portL x.1)
           (∀ since, x.2.1 = true → (c.portL.lock = none → since = some c.now) → (∀ o, c.portL.lock = some o → since = o.since) → Gives (.lockedRead t acked data) s (b
             |> modPortL (fun p => { p with lock := some { src := r.asker.src, address := r.address, since },
                                            lostFor := if p.lostFor.map (·.1) = some r.asker.src then none else p.lostFor })
             |> endReq r 0 0 x.2.2 |> retryOthers r.asker.src)) ∧
           (x.2.1 = false → Gives (.lockedRead t acked data) s (b |> loseLock |> countDev 0x904 0 |> endReq r 5 7 []))) ∧
         (∀ acked : Nat, r.lock = true → r.read = false → let x := runBus r busAgain true acked []
           (c.portL.lock.map (·.src) = some r.asker.src →
             let b := c |> takeReq r |> emit (.portL x.1) |> modPortL (fun p => { p with lock := none, filter := c.live.twFilter })
             (x.2.1 = true → Gives (.unlockingWrite t acked) s (endReq r 0 0 [] b)) ∧
             (x.2.1 = false → Gives (.unlockingWrite t acked) s (b |> countDev 0x904 0 |> endReq r 5 7 []))) ∧
           (c.portL.lock.map (·.src) ≠ some r.asker.src → Gives (.unlockingWrite t acked) s (c |> takeReq r
             |> modPortL (fun p => { p with lostFor := if p.lostFor.map (·.1) = some r.asker.src then none else p.lostFor }) |> endReq r 7 0 []))))) := by
  generalize ha : begin t s = a
  dsimp only
  intro hr r hn hw
  refine ⟨fun acked data hl => ⟨fun h => ?_, fun h => ?_⟩, fun acked data hl hd => ⟨fun since h h1 h2 => ?_, fun h => ?_⟩,
    fun acked hl hd => ⟨fun hs => ⟨fun h => ?_, fun h => ?_⟩, fun hs => ?_⟩⟩
  · exact gives_at (A := execPortlTransaction t acked data s) rfl rfl ha hr ((onBus_recovered hn (by rw [hl]; rfl) hw).trans (if_pos h))
  · exact gives_at (A := execPortlTransaction t acked data s) rfl rfl ha hr ((onBus_recovered hn (by rw [hl]; rfl) hw).trans (if_neg (Bool.eq_false_iff.1 h)))
  · exact gives_at (A := execLockedRead t acked data s) rfl rfl ha hr ((onBus_recovered hn (by rw [hl, hd]; rfl) hw).trans (runLocked_acked h h1 h2))
  · exact gives_at (A := execLockedRead t acked data s) rfl rfl ha hr ((onBus_recovered hn (by rw [hl, hd]; rfl) hw).trans (if_neg (Bool.eq_false_iff.1 h)))
  · exact gives_at (A := execUnlockingWrite t acked s) rfl rfl ha hr ((onBus_recovered hn (by rw [hl, hd]; rfl) hw).trans ((if_pos hs).trans (if_pos h)))
  · exact gives_at (A := execUnlockingWrite t acked s) rfl rfl ha hr
      ((onBus_recovered hn (by rw [hl, hd]; rfl) hw).trans ((if_pos hs).trans (if_neg (Bool.eq_false_iff.1 h))))
  · exact gives_at (A := execUnlockingWrite t acked s) rfl rfl ha hr ((onBus_recovered hn (by rw [hl, hd]; rfl) hw).trans (if_neg hs))

/-- Settles O53. A request is run after the recovery that is due, if it is of the command's kind; what goes by time waits for its moment. -/
theorem portLRunsRequests : Obligations.PortLRunsRequests := by
  unfold Obligations.PortLRunsRequests
  constructor
  · intro t s
    have hserve := portLServesRequests t s
    generalize ha : begin t s = a at hserve
    dsimp only at hserve ⊢
    intro hr
    refine ⟨fun r hn => ⟨fun hw => ?_, fun hw held hold => ⟨?_, ?_, fun acked data hl => ?_, fun acked data hl hd => ?_, fun acked hl hd => ?_⟩,
      fun acked data => ⟨fun hl => ?_, fun h => ?_, fun h => ?_⟩⟩, fun hn acked held hold data => ⟨?_, ?_, ?_, ?_, ?_⟩⟩
    · obtain ⟨h1, h2, h3⟩ := hserve hr r hn hw
      refine ⟨h1, h2, h3, fun held hold => ⟨fun h => ?_, fun h => ?_⟩, fun h7 h => ?_, fun h => ?_⟩
      · exact gives_at (A := execPortlStretchTimeout t held hold s) rfl rfl ha hr ((onBus_recovered hn rfl hw).trans (if_neg (Nat.not_le.2 h)))
      · exact gives_at (A := execPortlStretchTimeout t held hold s) rfl rfl ha hr ((onBus_recovered hn rfl hw).trans (if_pos h))
      · exact gives_at (A := execPortlArbitrationLost t s) rfl rfl ha hr ((onBus_recovered hn rfl hw).trans (if_neg (by omega)))
      · exact gives_at (A := execPortlArbitrationLost t s) rfl rfl ha hr ((onBus_recovered hn rfl hw).trans (if_pos (by omega)))
    · exact gives_at (A := execPortlStretchTimeout t held hold s) rfl rfl ha hr (onBus_failed hn rfl hw)
    · exact gives_at (A := execPortlArbitrationLost t s) rfl rfl ha hr (onBus_failed hn rfl hw)
    · exact gives_at (A := execPortlTransaction t acked data s) rfl rfl ha hr (onBus_failed hn (by rw [hl]; rfl) hw)
    · exact gives_at (A := execLockedRead t acked data s) rfl rfl ha hr (onBus_failed hn (by rw [hl, hd]; rfl) hw)
    · exact gives_at (A := execUnlockingWrite t acked s) rfl rfl ha hr (onBus_failed hn (by rw [hl, hd]; rfl) hw)
    · exact gives_at (A := execPortlTransaction t acked data s) rfl rfl ha hr (onBus_other hn (by rw [hl]; rfl))
    · refine gives_at (A := execLockedRead t acked data s) rfl rfl ha hr (onBus_other hn ?_)
      rcases h with h | h
      · rw [h]; rfl
      · rw [h, Bool.and_false]
    · refine gives_at (A := execUnlockingWrite t acked s) rfl rfl ha hr (onBus_other hn ?_)
      rcases h with h | h
      · rw [h]; rfl
      · rw [h, Bool.not_true, Bool.and_false]
    · exact gives_at (A := execPortlTransaction t acked data s) rfl rfl ha hr (onBus_idle hn)
    · exact gives_at (A := execLockedRead t acked data s) rfl rfl ha hr (onBus_idle hn)
    · exact gives_at (A := execUnlockingWrite t acked s) rfl rfl ha hr (onBus_idle hn)
    · exact gives_at (A := execPortlStretchTimeout t held hold s) rfl rfl ha hr (onBus_idle hn)
    · exact gives_at (A := execPortlArbitrationLost t s) rfl rfl ha hr (onBus_idle hn)
  · intro t s
    generalize ha : begin t s = a
    dsimp only
    refine ⟨fun hr => ⟨fun hold => ⟨fun hf hl => ?_, fun h => ?_⟩, fun e he => ⟨fun h => ?_, fun h => ?_⟩, fun he => ?_⟩,
      fun hr src e he => ⟨fun h => ?_, fun h => ?_⟩, fun he => ?_, fun hr acked held hold data => ⟨?_, ?_, ?_, ?_, ?_, ?_, ?_⟩⟩
    · exact gives_at (A := execPortlSdaStuckDetect t hold s) rfl rfl ha (by rw [hr, hf, hl]; rfl) rfl
    · refine gives_rests (A := execPortlSdaStuckDetect t hold s) rfl rfl ha ?_
      rcases h with h | h
      · simp only [h, Bool.not_true, Bool.and_false, Bool.false_and]
      · rw [Option.isNone_eq_false_iff.2 h, Bool.and_false]
    · refine gives_at (A := execLockedSequenceTimeout t s) rfl rfl ha hr ?_
      simp only [he]
      exact if_pos h
    · refine gives_at (A := execLockedSequenceTimeout t s) rfl rfl ha hr ?_
      simp only [he]
      exact if_neg (Nat.not_le.2 h)
    · refine gives_at (A := execLockedSequenceTimeout t s) rfl rfl ha hr ?_
      simp only [he]
    · refine gives_at (A := execLockLostStateExpiry t s) rfl rfl ha hr ?_
      simp only [he]
      exact if_pos h
    · refine gives_at (A := execLockLostStateExpiry t s) rfl rfl ha hr ?_
      simp only [he]
      exact if_neg (Nat.not_le.2 h)
    · refine gives_same (A := execLockLostStateExpiry t s) rfl rfl ha fun _ => ?_
      simp only [he]
    · exact gives_rests (A := execPortlTransaction t acked data s) rfl rfl ha hr
    · exact gives_rests (A := execLockedRead t acked data s) rfl rfl ha hr
    · exact gives_rests (A := execUnlockingWrite t acked s) rfl rfl ha hr
    · exact gives_rests (A := execPortlStretchTimeout t held hold s) rfl rfl ha hr
    · exact gives_rests (A := execPortlArbitrationLost t s) rfl rfl ha hr
    · exact gives_rests (A := execPortlSdaStuckDetect t hold s) rfl rfl ha (by rw [hr]; rfl)
    · exact gives_rests (A := execLockedSequenceTimeout t s) rfl rfl ha hr

end Sys2Proof.Machine
end

section
/-! Mailbox windows, rings and dispatch (R340 to R352). -/

open Sys2Proof

namespace Sys2Proof.Machine

/-- A change of a ring matters by what it makes of that ring alone. -/
theorem modRing_congr {h : HostId} {f f' : Ring → Ring} {s : State} (hf : f (ringAt s h) = f' (ringAt s h)) : modRing h f s = modRing h f' s := by
  have hf' : f s.mbx.rings[hostIx h] = f' s.mbx.rings[hostIx h] := hf
  simp only [modRing, hf']

section
variable {g : GalIx} {src : BitVec 16} {n off : Nat} {data : List Byte} {a : State}

/-- A write inside the aperture holds no doorbell and touches the aperture. -/
theorem aperture_only (h1 : 0x100 ≤ off) (h2 : off + data.length ≤ 0x800) (hd : data ≠ []) :
    (decide (off < 0x800) && decide (0x100 < off + data.length)) = true ∧ decide (off ≤ 6) = false := by
  have hl : 0 < data.length := List.length_pos_iff.2 hd
  exact ⟨by rw [decide_eq_true (by omega), decide_eq_true (by omega)]; rfl, decide_eq_false (by omega)⟩

theorem mailWrite_bound (h1 : 0x100 ≤ off) (h2 : off + data.length ≤ 0x800) (hd : data ≠ [])
    (hb : boundToOther (ringAt a (hostOfGal g)) src = true) : (mailWrite g src n off data a).2 = a := by
  obtain ⟨ha, -⟩ := aperture_only h1 h2 hd
  unfold mailWrite
  simp only [ha, hb, Bool.true_or, Bool.and_self, ↓reduceIte]

theorem mailWrite_misaligned (h1 : 0x100 ≤ off) (h2 : off + data.length ≤ 0x800) (hd : data ≠ [])
    (hb : boundToOther (ringAt a (hostOfGal g)) src = false) (hm : off % 4 ≠ 0 ∨ data.length % 4 ≠ 0) : (mailWrite g src n off data a).2 = a := by
  obtain ⟨ha, -⟩ := aperture_only h1 h2 hd
  have hm' : (off % 4 != 0 || data.length % 4 != 0) = true := by
    rw [Bool.or_eq_true, bne_iff_ne, bne_iff_ne]
    exact hm
  unfold mailWrite
  simp only [ha, hb, hm', Bool.and_false, Bool.and_self, Bool.false_eq_true, ↓reduceIte]

/-- A write that lies inside the aperture holds no register byte. -/
theorem no_register_byte (h1 : 0x100 ≤ off) :
    ((((List.range data.length).map (off + ·)).zip data).filter fun e => decide (e.1 < 0x100)) = [] := by
  refine List.filter_eq_nil_iff.2 fun e he => ?_
  obtain ⟨k, -, hk⟩ := List.mem_map.1 (List.of_mem_zip he).1
  rw [decide_eq_true_eq]
  omega

theorem mailWrite_lands (h1 : 0x100 ≤ off) (h2 : off + data.length ≤ 0x800) (hd : data ≠ [])
    (hb : boundToOther (ringAt a (hostOfGal g)) src = false) (h3 : off % 4 = 0) (h4 : data.length % 4 = 0) :
    (mailWrite g src n off data a).2 = modRing (hostOfGal g) (fun r => { r with
      bound := if r.bound.isSome then r.bound else some (src, a.now),
      aperture := ((List.range data.length).zip data).foldl (fun m e => if off - 0x100 + e.1 < 1792 then mput m (off - 0x100 + e.1) e.2 else m) r.aperture }) a := by
  obtain ⟨ha, -⟩ := aperture_only h1 h2 hd
  have hm : (off % 4 != 0 || data.length % 4 != 0) = false := by rw [h3, h4]; rfl
  have hk : 0x100 - off = 0 := by omega
  have ht : data.take (0x800 - max off 0x100) = data := List.take_of_length_le (by omega)
  unfold mailWrite
  simp only [ha, hb, hm, hk, List.drop_zero, ht, no_register_byte h1, Bool.and_false, Bool.false_eq_true, ↓reduceIte]
  exact if_neg (Bool.eq_false_iff.1 hb)

end

/-- What a doorbell of a source that may ring it does. -/
theorem doorbell_free {g : GalIx} {src : BitVec 16} {n : Nat} {a : State} (hb : boundToOther (ringAt a (hostOfGal g)) src = false) :
    doorbell g src n a = (let x := submit (hostOfGal g) (apertureFrame (ringAt a (hostOfGal g))) src (some g) n a
      if x.2 then modRing (hostOfGal g) (fun r => { r with aperture := [], bound := none }) x.1
      else modRing (hostOfGal g) (fun r => { r with dbRefused := true }) a) := if_neg (Bool.eq_false_iff.1 hb)

theorem doorbell_full {g : GalIx} {src : BitVec 16} {n : Nat} {a : State} (hb : boundToOther (ringAt a (hostOfGal g)) src = false)
    (hl : 8 ≤ (ringAt a (hostOfGal g)).cmds.length) : doorbell g src n a = modRing (hostOfGal g) (fun r => { r with dbRefused := true }) a := by
  have hs : submit (hostOfGal g) (apertureFrame (ringAt a (hostOfGal g))) src (some g) n a = (a, false) := if_pos hl
  rw [doorbell_free hb, hs]
  rfl

theorem doorbell_takes {g : GalIx} {src : BitVec 16} {n : Nat} {a : State} (hb : boundToOther (ringAt a (hostOfGal g)) src = false)
    (hl : (ringAt a (hostOfGal g)).cmds.length < 8) :
    doorbell g src n a = modRing (hostOfGal g) (fun r => { r with aperture := [], bound := none })
      (ringHardware (modRing (hostOfGal g) (fun r =>
        { r with cmds := r.cmds ++ [{ bytes := apertureFrame r, at_ := a.now, src, gallery := some g, arrival := n }], tail := r.tail + 1#8 }) a)) := by
  have hs : submit (hostOfGal g) (apertureFrame (ringAt a (hostOfGal g))) src (some g) n a =
      (ringHardware (modRing (hostOfGal g) (fun r =>
        { r with cmds := r.cmds ++ [{ bytes := apertureFrame r, at_ := a.now, src, gallery := some g, arrival := n }], tail := r.tail + 1#8 }) a), true) := by
    refine (if_neg (Nat.not_le.2 hl)).trans (congrArg (fun v => (ringHardware v, true)) (modRing_congr rfl))
  rw [doorbell_free hb, hs]
  rfl

theorem rspAck_cons {h : HostId} {src : BitVec 16} {a : State} {x : Response} {l : List Response} (hx : responsesFor (ringAt a h) src = x :: l) :
    rspAck h src a = modRing h (fun r => { r with rsps := r.rsps.erase x }) a := by
  unfold rspAck
  simp only [hx]

theorem rspAck_nil {h : HostId} {src : BitVec 16} {a : State} (hx : responsesFor (ringAt a h) src = []) : rspAck h src a = a := by
  unfold rspAck
  simp only [hx]

/-- What a byte written to a register of the window does (R342). -/
theorem mailRegWrite_six {g : GalIx} {src : BitVec 16} {n : Nat} {b : Byte} {a : State} : mailRegWrite g src n 6 b a =
    doIf (b.getLsbD 0) (doorbell g src n) (doIf (b.getLsbD 1) (modRing (hostOfGal g) fun r => { r with dbRefused := false }) a) := rfl

theorem mailRegWrite_nine {g : GalIx} {src : BitVec 16} {n : Nat} {b : Byte} {a : State} :
    mailRegWrite g src n 9 b a = doIf (b.getLsbD 0) (rspAck (hostOfGal g) src) a := rfl

theorem mailRegWrite_other {g : GalIx} {src : BitVec 16} {n off : Nat} {b : Byte} {a : State} (h6 : off ≠ 6) (h9 : off ≠ 9) :
    mailRegWrite g src n off b a = a := (if_neg h6).trans (if_neg h9)

/-- Hardware serves no ring while firmware runs. -/
theorem nextOf_hardware_of_fwRuns {u : State} (h : fwRuns u = true) : nextOf (allHosts.filter fun o => canTake o u && !softHost o u) u = none := by
  have hs : ∀ o, softHost o u = true := fun o => by rw [softHost, h]; rfl
  have hf : (allHosts.filter fun o => canTake o u && !softHost o u) = [] :=
    List.filter_eq_nil_iff.2 fun o _ => by rw [hs o, Bool.not_true, Bool.and_false]; decide
  rw [hf]
  rfl

theorem answerFrames_none {u : State} (h : nextOf (allHosts.filter fun o => canTake o u && !softHost o u) u = none) (m : Nat) : answerFrames m u = u := by
  cases m with
  | zero => rfl
  | succ m =>
    unfold answerFrames
    simp only [h]

theorem answerFrames_some {u : State} {o : HostId} {i : Nat} {f : Submitted} (m : Nat)
    (h : nextOf (allHosts.filter fun o => canTake o u && !softHost o u) u = some (o, i, f)) : answerFrames (m + 1) u = answerFrames m (hwFrame o i f u) := by
  rw [answerFrames]
  simp only [h]

/-- How the ring hardware serves a frame, by whether it is an order toward safe that holds. -/
theorem serveHw_order {op : Nat} {q : Req} {good : Bool} {b : State} (h : (good && hwOrder op q b) = true) :
    serveHw op q good b = hwAnswer q.host q.src op q.tag.toNat q.token.toNat q.seq.toNat 0 (runOrder q (countDev 0x104 (cmdRing q.host) b)) := by
  unfold serveHw
  simp only [h, doIf_true, ↓reduceIte]

theorem serveHw_recovery {op : Nat} {q : Req} {good : Bool} {b : State} (h : (good && hwOrder op q b) = false) (hm : romServes b = true) :
    serveHw op q good b = hwAnswer q.host q.src op q.tag.toNat q.token.toNat q.seq.toNat 0x0A (countDev 0x104 (cmdRing q.host) b) := by
  unfold serveHw
  simp only [h, hm, doIf_false, Bool.false_eq_true, ↓reduceIte]

theorem serveHw_refuses {op : Nat} {q : Req} {good : Bool} {b : State} (h : (good && hwOrder op q b) = false) (hm : romServes b = false) :
    serveHw op q good b = hwAnswer q.host q.src op q.tag.toNat q.token.toNat q.seq.toNat 1 (countDev 0x104 (cmdRing q.host) b) := by
  unfold serveHw
  simp only [h, hm, doIf_false, Bool.false_eq_true, ↓reduceIte]

/-- What the dispatcher makes of the frame whose turn it is. -/
theorem gives_dispatch {t : Nat} {s a u : State} {h : HostId} {i : Nat} {f : Submitted} (ha : begin t s = a) (hn : nextFrame a = some (h, i, f))
    (hu : takeFrame h f (popFrame h i f a) = u) : Gives (.dispatchCommand t) s u := by
  refine gives_at (A := execDispatchCommand t s) rfl rfl ha rfl ?_
  simp only [hn]
  exact hu

theorem takeFrame_soft {h : HostId} {f : Submitted} {d : State} (hs : softServes (reqOf h f) d = true) :
    takeFrame h f d = if !frameCrc f.bytes then answerBad 0x101 0x0B (frOp f.bytes) (reqOf h f) d
      else if !frameFields f.bytes then answerBad 0x102 3 (frOp f.bytes) (reqOf h f) d
      else match allCmds.find? fun c => c.op == frOp f.bytes with
        | some c => serve c (reqOf h f) d
        | none => if fwRuns d then answerBad 0x102 0x0C (frOp f.bytes) (reqOf h f) d
            else pushRsp h (reqOf h f).src (reqRsp (frOp f.bytes) (reqOf h f) 0 0x0A (reqOf h f).token.toNat []) d := if_pos hs

/-- The windows' half of O54, while the window is up. -/
theorem windowTakes (t : Nat) (s : State) (g : GalIx) (src : BitVec 16) : let a := begin t s
     let h := hostOfGal g
     let n := a.hall.arrivalSeq
     (windowUp a = true →
       (∀ (off : Nat) (data : List Byte), 0x100 ≤ off → off + data.length ≤ 0x800 →
         (boundToOther (ringAt a h) src = true → Gives (.mailboxApertureWrite t g src off data) s a) ∧
         (boundToOther (ringAt a h) src = false → data ≠ [] → off % 4 ≠ 0 ∨ data.length % 4 ≠ 0 → Gives (.mailboxApertureWrite t g src off data) s a) ∧
         (boundToOther (ringAt a h) src = false → data ≠ [] → off % 4 = 0 → data.length % 4 = 0 → Gives (.mailboxApertureWrite t g src off data) s
           (modRing h (fun r => { r with bound := if r.bound.isSome then r.bound else some (src, a.now),
                                         aperture := ((List.range data.length).zip data).foldl (fun m e => if off - 0x100 + e.1 < 1792 then mput m (off - 0x100 + e.1) e.2 else m) r.aperture }) a))) ∧
       (∀ (off : Nat) (data : List Byte), off < 0x100 ∨ 0x800 < off + data.length ∨ data = [] → Gives (.mailboxApertureWrite t g src off data) s a) ∧
       (boundToOther (ringAt a h) src = true → Gives (.mailboxDoorbell t g src) s a) ∧
       (boundToOther (ringAt a h) src = false → 8 ≤ (ringAt a h).cmds.length → Gives (.mailboxDoorbell t g src) s (modRing h (fun r => { r with dbRefused := true }) a)) ∧
       (boundToOther (ringAt a h) src = false → (ringAt a h).cmds.length < 8 → Gives (.mailboxDoorbell t g src) s (modRing h (fun r => { r with aperture := [], bound := none })
         (ringHardware (modRing h (fun r =>
           { r with cmds := r.cmds ++ [{ bytes := apertureFrame r, at_ := a.now, src, gallery := some g, arrival := n }], tail := r.tail + 1#8 }) a)))) ∧
       (∀ x l, responsesFor (ringAt a h) src = x :: l → Gives (.mailboxRspAck t g src) s (modRing h (fun r => { r with rsps := r.rsps.erase x }) a)) ∧
       (responsesFor (ringAt a h) src = [] → Gives (.mailboxRspAck t g src) s a) ∧
       Gives (.mailboxDbRefusedClear t g) s (modRing h (fun r => { r with dbRefused := false }) a) ∧
       (∀ b : Byte,
         (b.getLsbD 0 = true → b.getLsbD 1 = false → Gives (.registerWrite t g src 6 b) s (doorbell g src n a)) ∧
         (b.getLsbD 0 = false → b.getLsbD 1 = true → Gives (.registerWrite t g src 6 b) s (modRing h (fun r => { r with dbRefused := false }) a)) ∧
         (b.getLsbD 0 = true → b.getLsbD 1 = true → Gives (.registerWrite t g src 6 b) s (doorbell g src n (modRing h (fun r => { r with dbRefused := false }) a))) ∧
         (b.getLsbD 0 = false → b.getLsbD 1 = false → Gives (.registerWrite t g src 6 b) s a) ∧
         (b.getLsbD 0 = true → Gives (.registerWrite t g src 9 b) s (rspAck h src a)) ∧
         (b.getLsbD 0 = false → Gives (.registerWrite t g src 9 b) s a) ∧
         (∀ off : Nat, off ≠ 6 → off ≠ 9 → Gives (.registerWrite t g src off b) s a))) := by
  generalize ha : begin t s = a
  dsimp only
  intro hr
  refine ⟨fun off data h1 h2 => ⟨fun hb => ?_, fun hb hd hm => ?_, fun hb hd h3 h4 => ?_⟩, fun off data h => ?_, fun hb => ?_, fun hb hl => ?_, fun hb hl => ?_,
    fun x l hx => ?_, fun hx => ?_, ?_, fun b => ⟨fun h0 h1 => ?_, fun h0 h1 => ?_, fun h0 h1 => ?_, fun h0 h1 => ?_, fun h0 => ?_, fun h0 => ?_, fun off h6 h9 => ?_⟩⟩
  · refine gives_at (A := execMailboxApertureWrite t g src off data s) rfl rfl ha hr (ite_eq_right_iff.2 fun h => ?_)
    exact mailWrite_bound h1 h2 h.2.2 hb
  · exact gives_at (A := execMailboxApertureWrite t g src off data s) rfl rfl ha hr (ite_eq_right_iff.2 fun _ => mailWrite_misaligned h1 h2 hd hb hm)
  · exact gives_at (A := execMailboxApertureWrite t g src off data s) rfl rfl ha hr ((if_pos ⟨h1, h2, hd⟩).trans (mailWrite_lands h1 h2 hd hb h3 h4))
  · refine gives_at (A := execMailboxApertureWrite t g src off data s) rfl rfl ha hr (if_neg ?_)
    rintro ⟨h1, h2, hd⟩
    rcases h with h | h | h
    · omega
    · omega
    · exact hd h
  · exact gives_at (A := execMailboxDoorbell t g src s) rfl rfl ha hr (if_pos hb)
  · exact gives_at (A := execMailboxDoorbell t g src s) rfl rfl ha hr (doorbell_full hb hl)
  · exact gives_at (A := execMailboxDoorbell t g src s) rfl rfl ha hr (doorbell_takes hb hl)
  · exact gives_at (A := execMailboxRspAck t g src s) rfl rfl ha hr (rspAck_cons hx)
  · exact gives_at (A := execMailboxRspAck t g src s) rfl rfl ha hr (rspAck_nil hx)
  · exact gives_at (A := execMailboxDbRefusedClear t g s) rfl rfl ha hr rfl
  · exact gives_at (A := execRegisterWrite t g src 6 b s) rfl rfl ha hr (by rw [mailRegWrite_six, h0, h1]; rfl)
  · exact gives_at (A := execRegisterWrite t g src 6 b s) rfl rfl ha hr (by rw [mailRegWrite_six, h0, h1]; rfl)
  · exact gives_at (A := execRegisterWrite t g src 6 b s) rfl rfl ha hr (by rw [mailRegWrite_six, h0, h1]; rfl)
  · exact gives_at (A := execRegisterWrite t g src 6 b s) rfl rfl ha hr (by rw [mailRegWrite_six, h0, h1]; rfl)
  · exact gives_at (A := execRegisterWrite t g src 9 b s) rfl rfl ha hr (mailRegWrite_nine.trans (doIf_of h0 _ _))
  · exact gives_at (A := execRegisterWrite t g src 9 b s) rfl rfl ha hr (mailRegWrite_nine.trans (doIf_of_not h0 _ _))
  · exact gives_at (A := execRegisterWrite t g src off b s) rfl rfl ha hr (mailRegWrite_other h6 h9)

/-- Settles O54. A window's write is taken by where it lies and who is bound; a frame by who serves its ring and the first check that it fails. -/
theorem mailboxesCarryFrames : Obligations.MailboxesCarryFrames := by
  unfold Obligations.MailboxesCarryFrames
  constructor
  · intro t s g src
    refine ⟨windowTakes t s g src, ?_⟩
    generalize ha : begin t s = a
    refine ⟨fun hr off data b => ⟨?_, ?_, ?_, ?_, ?_⟩, fun u m => ⟨rfl, fun h => ?_, fun o i f hn => ⟨fun h => ?_, fun h hm => ?_, fun h hm => ?_⟩⟩⟩
    · exact gives_rests (A := execMailboxApertureWrite t g src off data s) rfl rfl ha hr
    · exact gives_rests (A := execMailboxDoorbell t g src s) rfl rfl ha hr
    · exact gives_rests (A := execMailboxRspAck t g src s) rfl rfl ha hr
    · exact gives_rests (A := execMailboxDbRefusedClear t g s) rfl rfl ha hr
    · exact gives_rests (A := execRegisterWrite t g src off b s) rfl rfl ha hr
    · exact answerFrames_none (h.elim nextOf_hardware_of_fwRuns id) m
    · exact (answerFrames_some m hn).trans (congrArg (answerFrames m) (serveHw_order h))
    · exact (answerFrames_some m hn).trans (congrArg (answerFrames m) (serveHw_recovery h hm))
    · exact (answerFrames_some m hn).trans (congrArg (answerFrames m) (serveHw_refuses h hm))
  · intro t s
    generalize ha : begin t s = a
    dsimp only
    refine ⟨fun hn => ?_, fun h i f hn => ⟨fun hs => ⟨fun hc => ?_, fun hc hf => ?_, fun c hc hf hx => ?_, fun hc hf hx => ⟨fun hw => ?_, fun hw => ?_⟩⟩, fun hs => ?_⟩⟩
    · refine gives_at (A := execDispatchCommand t s) rfl rfl ha rfl ?_
      simp only [hn]
    · exact gives_dispatch ha hn ((takeFrame_soft hs).trans (if_pos (by rw [hc]; rfl)))
    · exact gives_dispatch ha hn ((takeFrame_soft hs).trans ((if_neg (by rw [hc]; decide)).trans (if_pos (by rw [hf]; rfl))))
    · refine gives_dispatch ha hn ((takeFrame_soft hs).trans ((if_neg (by rw [hc]; decide)).trans ((if_neg (by rw [hf]; decide)).trans ?_)))
      simp only [hx]
    · refine gives_dispatch ha hn ((takeFrame_soft hs).trans ((if_neg (by rw [hc]; decide)).trans ((if_neg (by rw [hf]; decide)).trans ?_)))
      simp only [hx]
      exact if_pos hw
    · refine gives_dispatch ha hn ((takeFrame_soft hs).trans ((if_neg (by rw [hc]; decide)).trans ((if_neg (by rw [hf]; decide)).trans ?_)))
      simp only [hx]
      exact if_neg (Bool.eq_false_iff.1 hw)
    · exact gives_dispatch ha hn (if_neg (Bool.eq_false_iff.1 hs))

end Sys2Proof.Machine
end

section
/-! Waits, leases, the log and updates by time (R348 to R356, R466 to R474). -/

open Sys2Proof

namespace Sys2Proof.Machine

section
variable {h : HostId} {u : State}

/-- What each host's walk by time does, by what its ring holds. -/
theorem lapseBinding_some {b : BitVec 16 × Nat} (hb : (ringAt u h).bound = some b) :
    lapseBinding h u = if b.2 + 1000000 ≤ u.now then modRing h (fun r => { r with bound := none, aperture := [] }) u else u := by
  unfold lapseBinding
  rw [hb]

theorem lapseBinding_none (hb : (ringAt u h).bound = none) : lapseBinding h u = u := by
  unfold lapseBinding
  rw [hb]

theorem endWait_some {w : Waiting} (hw : (ringAt u h).wait = some w) :
    endWait h u = if timesOut w.op = true ∧ w.due ≤ u.now then u |> timeoutEffect w |> answerWait h 8 [] else u := by
  unfold endWait
  rw [hw]

theorem endWait_none (hw : (ringAt u h).wait = none) : endWait h u = u := by
  unfold endWait
  rw [hw]

theorem endSync_some {w : Waiting} (hw : (ringAt u h).wait = some w) :
    endSync h u = if w.op = 0x709 ∧ (!writesOut u (syncSource w.req) w.mark) = true then
      answerWait h 0 (syncAnswer (syncSource w.req) u).1 (syncAnswer (syncSource w.req) u).2 else u := by
  unfold endSync
  rw [hw]

theorem endSync_none (hw : (ringAt u h).wait = none) : endSync h u = u := by
  unfold endSync
  rw [hw]

theorem dropOldResponses_none (h0 : ((ringAt u h).rsps.filter fun x => decide (x.at_ + 1000000000 ≤ u.now)) = []) : dropOldResponses h u = u :=
  if_pos (List.isEmpty_iff.2 h0)

theorem dropOldResponses_some (h0 : ((ringAt u h).rsps.filter fun x => decide (x.at_ + 1000000000 ≤ u.now)) ≠ []) : dropOldResponses h u =
    (u |> modRing h (fun r => { r with rsps := r.rsps.filter fun x => decide (u.now < x.at_ + 1000000000) })
      |> countN 0x105 0 0 (rspRing h) ((ringAt u h).rsps.filter fun x => decide (x.at_ + 1000000000 ≤ u.now)).length) :=
  if_neg fun h1 => h0 (List.isEmpty_iff.1 h1)

end

/-- A walk host by host takes them in the order of priority. -/
theorem forAll_allHosts (f : HostId → State → State) (s : State) : forAll allHosts f s = f .debug (f .service (f .second (f .link s))) := rfl

theorem forAll_windowHosts (f : HostId → State → State) (s : State) : forAll [HostId.link, HostId.second] f s = f .second (f .link s) := rfl

/-- The rows on waits and leases, half of O55. -/
theorem waitsEnd (t : Nat) (s : State) : let a := begin t s
     (windowUp a = true → Gives (.apertureBindingLapse t) s (lapseBinding .second (lapseBinding .link a)) ∧
       Gives (.responseExpiry t) s (dropOldResponses .debug (dropOldResponses .service (dropOldResponses .second (dropOldResponses .link a))))) ∧
     (windowUp a = false → Gives (.apertureBindingLapse t) s a ∧ Gives (.responseExpiry t) s a) ∧
     (fwRuns a = true ∨ active a = true ∧ romServes a = true → Gives (.waitingCommandTimeout t) s (endWait .debug (endWait .service (endWait .second (endWait .link a))))) ∧
     (fwRuns a = false → romServes a = false ∨ active a = false → Gives (.waitingCommandTimeout t) s a) ∧
     (fwRuns a = true → Gives (.bridgeSyncDone t) s (endSync .debug (endSync .service (endSync .second (endSync .link a))))) ∧
     (fwRuns a = false → Gives (.bridgeSyncDone t) s a) ∧
     (guarding a = true → Gives (.leaseExpiry t) s (forAll (List.range 15) expireLease a)) ∧ (guarding a = false → Gives (.leaseExpiry t) s a) := by
  generalize ha : begin t s = a
  refine ⟨fun hr => ⟨?_, ?_⟩, fun hr => ⟨?_, ?_⟩, fun hr => ?_, fun hf hr => ?_, fun hr => ?_, fun hr => ?_, fun hr => ?_, fun hr => ?_⟩
  · exact gives_at (A := execApertureBindingLapse t s) rfl rfl ha hr (forAll_windowHosts lapseBinding a)
  · exact gives_at (A := execResponseExpiry t s) rfl rfl ha hr (forAll_allHosts dropOldResponses a)
  · exact gives_rests (A := execApertureBindingLapse t s) rfl rfl ha hr
  · exact gives_rests (A := execResponseExpiry t s) rfl rfl ha hr
  · refine gives_at (A := execWaitingCommandTimeout t s) rfl rfl ha ?_ (forAll_allHosts endWait a)
    rw [Bool.or_eq_true, Bool.and_eq_true]
    exact hr
  · refine gives_rests (A := execWaitingCommandTimeout t s) rfl rfl ha ?_
    rw [hf, Bool.false_or, Bool.and_eq_false_iff]
    exact hr.symm
  · exact gives_at (A := execBridgeSyncDone t s) rfl rfl ha hr (forAll_allHosts endSync a)
  · exact gives_rests (A := execBridgeSyncDone t s) rfl rfl ha hr
  · exact gives_at (A := execLeaseExpiry t s) rfl rfl ha hr rfl
  · exact gives_rests (A := execLeaseExpiry t s) rfl rfl ha hr

section
variable {t : Nat} {s a : State}

/-- A row of the update engine: it acts for a device that serves, where some host waits for it. -/
theorem gives_verify {u : State} (ha : begin t s = a) (hact : active a = true) (hs : (fwRuns a || romServes a) = true) (hw : someWaits 0xC02 a = true)
    (hf : (let b := image a.upd
      if !wholeImage a.upd then answerUpd 0xC02 0x0A [] a
      else if !imageSigned a.otp b then a |> countDev 0xB05 0 |> answerUpd 0xC02 0x0B []
      else if !authentic a.otp b then a |> countDev 0xB05 0 |> answerUpd 0xC02 6 []
      else a |> modUpd (fun u => { u with state := .verified, digest := sha384Num b }) |> answerUpd 0xC02 0 (slice b 8 4)) = u) :
    Gives (.updateVerifyDone t) s u :=
  gives_at (A := execUpdateVerifyDone t s) rfl rfl ha (by rw [hact, hs, hw]; rfl) hf

theorem gives_commit {same : Bool} {u : State} (ha : begin t s = a) (hact : active a = true) (hs : (fwRuns a || romServes a) = true) (hw : someWaits 0xC03 a = true)
    (hb : a.power.brownout = none)
    (hf : (if !committing a then answerUpd 0xC03 0x0A [] a
      else if same then
        let x := trialSlot a
        a |> modFwSlot a.upd.target (fun _ => x) |> modUpd (fun u => { u with state := .committed }) |> answerUpd 0xC03 0 []
          |> raise 0x0C01 (by8 a.upd.target ++ List.replicate 3 0#8 ++ by32 x.level.toNat)
      else a |> failCommit |> answerUpd 0xC03 0x0B []) = u) : Gives (.updateCommitDone t same) s u :=
  gives_at (A := execUpdateCommitDone t same s) rfl rfl ha (by rw [hact, hs, hw, hb]; rfl) hf

/-- The log's writer, while it may write. -/
theorem gives_flush {e : LogEntry} {l : List LogEntry} (ha : begin t s = a) (hg : guarding a = true) (hb : a.power.brownout = none) (hl : a.log.staging = e :: l)
    (hk : ∀ k, a.log.lastWrite = some k → k + 1000000 ≤ a.now) : Gives (.logWriterFlush t) s
      { a with log := { a.log with entries := (a.log.entries ++ [e]).drop (a.log.entries.length + 1 - 16384), staging := l, written := a.log.written + 1#32,
                                   lastWrite := some a.now } } := by
  have hlen : (a.log.entries ++ [e]).length = a.log.entries.length + 1 := List.length_append
  refine gives_at (A := execLogWriterFlush t s) rfl rfl ha (by rw [hg, hb]; rfl) ?_
  simp only [hl, hlen]
  cases hw : a.log.lastWrite with
  | none => rfl
  | some k => exact if_pos (decide_eq_true (hk k hw))

end

/-- Settles O55. Each walk by time asks its host's ring or its domain's lease; the slow work asks who waits and what the image and the slot say. -/
theorem waitsEndByTime : Obligations.WaitsEndByTime := by
  unfold Obligations.WaitsEndByTime
  constructor
  · intro t s
    obtain ⟨h1, h2, h3, h4, h5, h6, h7, h8⟩ := waitsEnd t s
    refine ⟨h1, h2, h3, h4, h5, h6, h7, h8, fun h u => ⟨fun b hb => ⟨fun hn => ?_, fun hn => ?_⟩, lapseBinding_none, ⟨dropOldResponses_some, dropOldResponses_none⟩,
      fun w hw => ⟨fun ho hn => ?_, fun ho => ?_, fun ho hn => ?_, fun ho => ?_⟩, fun hw => ⟨endWait_none hw, endSync_none hw⟩⟩, fun d u => ⟨fun hl hn => ?_, fun hl => ?_⟩⟩
    · exact (lapseBinding_some hb).trans (if_pos hn)
    · exact (lapseBinding_some hb).trans (if_neg (Nat.not_le.2 hn))
    · exact (endWait_some hw).trans (if_pos ⟨ho, hn⟩)
    · refine (endWait_some hw).trans (if_neg fun ⟨h9, h10⟩ => ?_)
      rcases ho with ho | ho
      · exact Bool.eq_false_iff.1 ho h9
      · exact Nat.not_le.2 ho h10
    · exact (endSync_some hw).trans (if_pos ⟨ho, by rw [hn]; rfl⟩)
    · refine (endSync_some hw).trans (if_neg fun ⟨h9, h10⟩ => ?_)
      rcases ho with ho | ho
      · exact ho h9
      · rw [ho] at h10
        exact absurd h10 (by decide)
    · exact if_pos ⟨hl, hn⟩
    · refine if_neg fun ⟨h9, h10⟩ => ?_
      rcases hl with hl | hl
      · rw [hl] at h9
        exact absurd h9 (by decide)
      · exact Nat.not_le.2 hl h10
  · intro t s
    generalize ha : begin t s = a
    dsimp only
    refine ⟨fun hact hs => ⟨fun hw => ⟨fun h1 => ?_, fun h1 h2 => ?_, fun h1 h2 h3 => ?_, fun h1 h2 h3 => ?_⟩, fun hw => ?_,
        fun hw hb => ⟨fun same hc => ?_, fun hc => ?_, fun hc => ?_⟩, fun same hw => ?_⟩,
      fun hg hb => ⟨fun e l hl hk => gives_flush ha hg hb hl hk, fun k hk hn => ?_, fun hl => ?_⟩, fun hb => ?_, fun hact h hh => ⟨fun hn => ?_, fun hn => ?_⟩, fun hh => ?_,
      fun g l eye points => ⟨fun hr hl hf hi => ⟨fun he => ?_, fun h1 h2 => ?_⟩, fun hr => ?_⟩⟩
    · exact gives_verify ha hact hs hw (if_pos (by rw [h1]; rfl))
    · exact gives_verify ha hact hs hw ((if_neg (by rw [h1]; decide)).trans (if_pos (by rw [h2]; rfl)))
    · exact gives_verify ha hact hs hw ((if_neg (by rw [h1]; decide)).trans ((if_neg (by rw [h2]; decide)).trans (if_pos (by rw [h3]; rfl))))
    · exact gives_verify ha hact hs hw ((if_neg (by rw [h1]; decide)).trans ((if_neg (by rw [h2]; decide)).trans (if_neg (by rw [h3]; decide))))
    · exact gives_rests (A := execUpdateVerifyDone t s) rfl rfl ha (by rw [hw, Bool.and_false])
    · exact gives_commit ha hact hs hw hb (if_pos (by rw [hc]; rfl))
    · exact gives_commit ha hact hs hw hb ((if_neg (by rw [hc]; decide)).trans (if_neg (by decide)))
    · exact gives_commit ha hact hs hw hb ((if_neg (by rw [hc]; decide)).trans (if_pos rfl))
    · refine gives_rests (A := execUpdateCommitDone t same s) rfl rfl ha ?_
      rcases hw with hw | hw
      · rw [hw, Bool.and_false]
      · rw [Option.isNone_eq_false_iff.2 hw, Bool.and_false, Bool.false_and]
    · refine gives_same (A := execLogWriterFlush t s) rfl rfl ha fun _ => ?_
      simp only [hk, decide_eq_false (Nat.not_le.2 hn), Bool.false_eq_true, ↓reduceIte]
      cases a.log.staging <;> rfl
    · refine gives_same (A := execLogWriterFlush t s) rfl rfl ha fun _ => ?_
      simp only [hl]
    · exact gives_rests (A := execLogWriterFlush t s) rfl rfl ha (by rw [Option.isNone_eq_false_iff.2 hb, Bool.and_false])
    · refine gives_at (A := execLogStreamHolderExpiry t s) rfl rfl ha hact ?_
      simp only [hh]
      exact if_pos hn
    · refine gives_at (A := execLogStreamHolderExpiry t s) rfl rfl ha hact ?_
      simp only [hh]
      exact if_neg (Nat.not_le.2 hn)
    · refine gives_same (A := execLogStreamHolderExpiry t s) rfl rfl ha fun _ => ?_
      simp only [hh]
    · exact gives_at (A := execEyeScanComplete t g l eye points s) rfl rfl ha (by rw [hr, hl, hf, hi]; rfl) (if_pos (he.imp id decide_eq_true))
    · refine gives_at (A := execEyeScanComplete t g l eye points s) rfl rfl ha (by rw [hr, hl, hf, hi]; rfl) (if_neg fun h => ?_)
      rcases h with h | h
      · exact h1 h
      · exact Nat.not_le.2 h2 (of_decide_eq_true h)
    · refine gives_rests (A := execEyeScanComplete t g l eye points s) rfl rfl ha ?_
      rcases hr with h | h | h | h <;> rw [h]
      · rfl
      · rw [Bool.and_false]
        rfl
      · rw [Bool.not_true, Bool.and_false]
        rfl
      · rw [Bool.not_true, Bool.and_false]

end Sys2Proof.Machine
end

section
/-! Port M's transactions, its bus and its attention (R422 to R438). -/

open Sys2Proof

namespace Sys2Proof.Machine

section
variable {f : State → State} {a : State}

/-- A transaction of the mailbox class, by the level and the power state (R428). -/
theorem onMailbox_off (h : alwaysOn a = false) : onMailbox f a = emit (.portMAck false) a := if_pos (by rw [h]; rfl)

theorem onMailbox_p0 (h : alwaysOn a = true) (hp : a.power.pstate = .p0) : onMailbox f a = f a := by
  refine (if_neg (by rw [h]; decide)).trans ?_
  rw [hp]

theorem onMailbox_p2 (h : alwaysOn a = true) (hp : a.power.pstate = .p2) : onMailbox f a = f (wake a) := by
  refine (if_neg (by rw [h]; decide)).trans ?_
  rw [hp]

theorem onMailbox_p3 (h : alwaysOn a = true) (hp : a.power.pstate = .p3) : onMailbox f a = wake (emit (.portMAck false) a) := by
  refine (if_neg (by rw [h]; decide)).trans ?_
  rw [hp]

/-- One of the status class. -/
theorem onStatus_reset (h : a.power.inReset.isSome = true) : onStatus f a = emit (.portMAck false) a := if_pos h

theorem onStatus_p3 (h : a.power.inReset = none) (hp : a.power.pstate = .p3) (hf : a.frz.on = false) : onStatus f a = wake (emit (.portMAck false) a) :=
  (if_neg (by rw [h]; decide)).trans (if_pos ⟨hp, by rw [hf]; rfl⟩)

theorem onStatus_acts (h : a.power.inReset = none) (hp : a.power.pstate ≠ .p3 ∨ a.frz.on = true) : onStatus f a = f a := by
  refine (if_neg (by rw [h]; decide)).trans (if_neg fun ⟨h1, h2⟩ => ?_)
  rcases hp with hp | hp
  · exact hp h1
  · rw [hp] at h2
    exact absurd h2 (by decide)

end

/-- A command of the mailbox class that does `f`, from a state that the time brings to `a`. -/
def ActsAsMailbox (c : Instr) (s a : State) (f : State → State) : Prop :=
  (alwaysOn a = false → Gives c s (emit (.portMAck false) a)) ∧ (alwaysOn a = true → a.power.pstate = .p0 → Gives c s (f a)) ∧
  (alwaysOn a = true → a.power.pstate = .p2 → Gives c s (f (wake a))) ∧ (alwaysOn a = true → a.power.pstate = .p3 → Gives c s (wake (emit (.portMAck false) a)))

/-- One of the status class. -/
def ActsAsStatus (c : Instr) (s a : State) (f : State → State) : Prop :=
  (a.power.inReset.isSome = true → Gives c s (emit (.portMAck false) a)) ∧
  (a.power.inReset = none → a.power.pstate = .p3 → a.frz.on = false → Gives c s (wake (emit (.portMAck false) a))) ∧
  (a.power.inReset = none → a.power.pstate ≠ .p3 ∨ a.frz.on = true → Gives c s (f a))

theorem actsAsMailbox_of {c : Instr} {A : Answer} {t : Nat} {s a : State} {f : State → State} (hi : exec c s = A)
    (hA : A = effect t (fun _ => true) (onMailbox f) s) (ha : begin t s = a) : ActsAsMailbox c s a f :=
  ⟨fun h => gives_at hi hA ha rfl (onMailbox_off h), fun h hp => gives_at hi hA ha rfl (onMailbox_p0 h hp),
    fun h hp => gives_at hi hA ha rfl (onMailbox_p2 h hp), fun h hp => gives_at hi hA ha rfl (onMailbox_p3 h hp)⟩

theorem actsAsStatus_of {c : Instr} {A : Answer} {t : Nat} {s a : State} {f : State → State} (hi : exec c s = A)
    (hA : A = effect t (fun _ => true) (onStatus f) s) (ha : begin t s = a) : ActsAsStatus c s a f :=
  ⟨fun h => gives_at hi hA ha rfl (onStatus_reset h), fun h hp hf => gives_at hi hA ha rfl (onStatus_p3 h hp hf),
    fun h hp => gives_at hi hA ha rfl (onStatus_acts h hp)⟩

section
variable {t : Nat} {s a : State} (ha : begin t s = a)
include ha

theorem mbxPut_acts (n : Byte) (body : List Byte) (pec : Option Byte) : ActsAsMailbox (.mbxPut t n body pec) s a (putFrag n body pec) :=
  actsAsMailbox_of (A := execMbxPut t n body pec s) rfl rfl ha

theorem mbxGet_one_acts (frag : Byte) :
    ActsAsMailbox (.mbxGet t 1#8 frag) s a (fun b => sendBlock [writeByte b, 0x21#8, 1#8, frag] (getFrag frag.toNat b) b) := by
  have hf : (fun b => if (1#8 : Byte) ≠ 1#8 then badProtocol b else sendBlock [writeByte b, 0x21#8, 1#8, frag] (getFrag frag.toNat b) b) =
      fun b => sendBlock [writeByte b, 0x21#8, 1#8, frag] (getFrag frag.toNat b) b := funext fun _ => if_neg (by decide)
  rw [← hf]
  exact actsAsMailbox_of (A := execMbxGet t 1#8 frag s) rfl rfl ha

theorem mbxGet_other_acts {n : Byte} (frag : Byte) (hn : n ≠ 1#8) : ActsAsMailbox (.mbxGet t n frag) s a badProtocol := by
  have hf : (fun b => if n ≠ 1#8 then badProtocol b else sendBlock [writeByte b, 0x21#8, n, frag] (getFrag frag.toNat b) b) = badProtocol :=
    funext fun _ => if_pos hn
  rw [← hf]
  exact actsAsMailbox_of (A := execMbxGet t n frag s) rfl rfl ha

theorem mbxStatus_acts : ActsAsMailbox (.mbxStatus t) s a (fun b => sendBlock [writeByte b, 0x22#8] (mbxStatus b) b) :=
  actsAsMailbox_of (A := execMbxStatus t s) rfl rfl ha

theorem mbxRing_acts (pec : Option Byte) :
    ActsAsMailbox (.mbxRing t pec) s a (fun b => if pecOk b [writeByte b, 0x23#8] pec then emit (.portMAck true) (ringFrame b) else badPec b) :=
  actsAsMailbox_of (A := execMbxRing t pec s) rfl rfl ha

theorem mbxAbortDiscard_acts (tag : Byte) (pec : Option Byte) : ActsAsMailbox (.mbxAbortDiscard t tag pec) s a (abort 1#8 tag pec discardAssembly) :=
  actsAsMailbox_of (A := execMbxAbortDiscard t tag pec s) rfl rfl ha

theorem mbxAbortRelease_acts (tag : Byte) (pec : Option Byte) : ActsAsMailbox (.mbxAbortRelease t tag pec) s a (abort 2#8 tag pec (releaseTag tag)) :=
  actsAsMailbox_of (A := execMbxAbortRelease t tag pec s) rfl rfl ha

theorem mbxAbortBoth_acts (tag : Byte) (pec : Option Byte) :
    ActsAsMailbox (.mbxAbortBoth t tag pec) s a (abort 3#8 tag pec fun b => b |> discardAssembly |> releaseTag tag) :=
  actsAsMailbox_of (A := execMbxAbortBoth t tag pec s) rfl rfl ha

theorem statusPointerWrite_acts (bytes : List Byte) : ActsAsStatus (.statusPointerWrite t bytes) s a (statusWrite bytes) :=
  actsAsStatus_of (A := execStatusPointerWrite t bytes s) rfl rfl ha

theorem snapSelectWrite_acts (r : Fin 3) (data : List Byte) :
    ActsAsStatus (.snapSelectWrite t r data) s a (statusWrite (BitVec.ofNat 8 (0x40 + r.val) :: data)) :=
  actsAsStatus_of (A := execSnapSelectWrite t r data s) rfl rfl ha

theorem statusClassRead_acts (n : Nat) :
    ActsAsStatus (.statusClassRead t n) s a (fun b => emit (.portM (statusRead (quick b) n b).1) (statusRead (quick b) n b).2) :=
  actsAsStatus_of (A := execStatusClassRead t n s) rfl rfl ha

end

section
variable {b : State} {n c : Byte} {body data : List Byte} {pec : Option Byte}

/-- The rules that a fragment may break, in their order (R431). -/
theorem putFrag_count (h : n.toNat < 2 ∨ 241 < n.toNat) : putFrag n body pec b = badProtocol b := if_pos h

theorem putFrag_empty (h1 : 2 ≤ n.toNat) (h2 : n.toNat ≤ 241) (h3 : body = []) : putFrag n body pec b = rejectFrag false (badProtocol b) := by
  refine (if_neg (by omega)).trans (if_pos ?_)
  rw [h3, List.take_nil]
  rfl

/-- A fragment with its control byte `c`, past the checks of its count. -/
theorem putFrag_cons (h1 : 2 ≤ n.toNat) (h2 : n.toNat ≤ 241) (h3 : body.take n.toNat = c :: data) : putFrag n body pec b =
    if !fragOrder b.portM c then b |> badProtocol |> rejectFrag true
    else if (if c.getLsbD 0 then 0 else (b.portM.asm_.getD []).length) + data.length > 1028 then b |> badProtocol |> rejectFrag true
    else if body.length < n.toNat then b |> badProtocol |> rejectFrag false
    else if !pecOk b ([writeByte b, 0x20#8, n, c] ++ data) pec then b |> badPec |> rejectFrag false
    else b |> modPortM (joinFrag c data) |> emit (.portMAck true) := by
  have hl : (c :: data).length < n.toNat ↔ body.length < n.toNat := by
    rw [← h3, List.length_take]
    omega
  refine (if_neg (by omega)).trans ?_
  simp only [h3, List.isEmpty_cons, Bool.false_eq_true, ↓reduceIte, List.headD_cons, List.drop_succ_cons, List.drop_zero, hl]
  rfl

end

/-- What the far master may send in the mailbox class: fragment by fragment, half of O56's first half. -/
theorem putFrag_breaks (b : State) (n : Byte) (body : List Byte) (pec : Option Byte) (c : Byte) (data : List Byte) (h1 : 2 ≤ n.toNat) (h2 : n.toNat ≤ 241)
    (h3 : body.take n.toNat = c :: data) : let held := if c.getLsbD 0 then 0 else (b.portM.asm_.getD []).length
    (fragOrder b.portM c = false → putFrag n body pec b = rejectFrag true (badProtocol b)) ∧
    (fragOrder b.portM c = true → 1028 < held + data.length → putFrag n body pec b = rejectFrag true (badProtocol b)) ∧
    (fragOrder b.portM c = true → held + data.length ≤ 1028 → body.length < n.toNat → putFrag n body pec b = rejectFrag false (badProtocol b)) ∧
    (fragOrder b.portM c = true → held + data.length ≤ 1028 → n.toNat ≤ body.length →
      (pecOk b ([writeByte b, 0x20#8, n, c] ++ data) pec = false → putFrag n body pec b = (b |> countDev 0x902 0 |> emit (.portMAck false) |> rejectFrag false)) ∧
      (pecOk b ([writeByte b, 0x20#8, n, c] ++ data) pec = true → putFrag n body pec b = (b |> modPortM (joinFrag c data) |> emit (.portMAck true)))) := by
  rw [putFrag_cons h1 h2 h3]
  refine ⟨fun ho => ?_, fun ho hl => ?_, fun ho hl hb => ?_, fun ho hl hb => ⟨fun hp => ?_, fun hp => ?_⟩⟩
  · rw [ho]
    rfl
  · exact (if_neg (by rw [ho]; decide)).trans (if_pos hl)
  · exact (if_neg (by rw [ho]; decide)).trans ((if_neg (Nat.not_lt.2 hl)).trans (if_pos hb))
  · refine (if_neg (by rw [ho]; decide)).trans ((if_neg (Nat.not_lt.2 hl)).trans ((if_neg (Nat.not_lt.2 hb)).trans (if_pos ?_)))
    rw [hp]
    rfl
  · refine (if_neg (by rw [ho]; decide)).trans ((if_neg (Nat.not_lt.2 hl)).trans ((if_neg (Nat.not_lt.2 hb)).trans (if_neg ?_)))
    rw [hp]
    decide

section
variable {t idle : Nat} {s a : State} {won acked : Bool}

/-- Who may notify, and who may not. -/
theorem mayNotify_of {kind : Nat} (hi : 50000 ≤ idle) (ha : active a = true) (hc : a.portM.causes ≠ 0#5) (hk : a.live.twAttn = kind) : mayNotify kind idle a = true := by
  unfold mayNotify
  rw [ha, hk, decide_eq_true hi, bne_iff_ne.2 hc, beq_self_eq_true]
  rfl

theorem mayNotify_not {kind : Nat} (h : idle < 50000 ∨ active a = false ∨ a.portM.causes = 0#5) : mayNotify kind idle a = false := by
  unfold mayNotify
  rcases h with h | h | h
  · rw [decide_eq_false (Nat.not_le.2 h), Bool.and_false]
  · rw [h]
    rfl
  · rw [h, bne_self_eq_false, Bool.and_false, Bool.false_and]

theorem mayNotify_other {kind : Nat} (h : a.live.twAttn ≠ kind) : mayNotify kind idle a = false := by
  unfold mayNotify
  rw [beq_false_of_ne h, Bool.and_false, Bool.false_and, Bool.false_and]

/-- A retry of the Host Notify, by when the last one went out. -/
theorem gives_retry_none (ha : begin t s = a) (hn : a.portM.notifyAt = none) : Gives (.hostNotifyRetry t won acked) s a := by
  refine gives_same (A := execHostNotifyRetry t won acked s) rfl rfl ha fun _ => ?_
  simp only [hn]

theorem gives_retry_early {e : Nat} (ha : begin t s = a) (hn : a.portM.notifyAt = some e) (he : a.now < e + 10000000) : Gives (.hostNotifyRetry t won acked) s a := by
  refine gives_same (A := execHostNotifyRetry t won acked s) rfl rfl ha fun _ => ?_
  simp only [hn]
  exact if_neg (Nat.not_le.2 he)

theorem gives_retry_due {e : Nat} (ha : begin t s = a) (hm : mayNotify 2 50000 a = true) (hn : a.portM.notifyAt = some e) (he : e + 10000000 ≤ a.now) :
    Gives (.hostNotifyRetry t won acked) s (hostNotify won acked a) := by
  refine gives_at (A := execHostNotifyRetry t won acked s) rfl rfl ha hm ?_
  simp only [hn]
  exact if_pos he

end

/-- Port M's bus and its attention, half of O56. -/
theorem portMBus (t : Nat) (s : State) : let a := begin t s
     (guarding a = true → ∀ put : Bool, let b := a |> countDev 0x901 0 |> emit (.portMAck false)
       Gives (.portmSclTimeout t put) s (if put then rejectFrag false b else b) ∧ Gives (.portmBusError t put) s (if put then rejectFrag false b else b)) ∧
     (guarding a = false → (∀ put : Bool, Gives (.portmSclTimeout t put) s a ∧ Gives (.portmBusError t put) s a) ∧ Gives (.attentionRelatch t) s a) ∧
     (alwaysOn a = true → a.power.pstate = .p2 → Gives (.portmP2WakeMatch t) s (wake (emit (.portMAck true) a)) ∧ Gives (.portmP3WakeMatch t) s a) ∧
     (alwaysOn a = true → a.power.pstate = .p3 → Gives (.portmP3WakeMatch t) s (wake (emit (.portMAck false) a)) ∧ Gives (.portmP2WakeMatch t) s a) ∧
     (alwaysOn a = false ∨ a.power.pstate = .p0 → Gives (.portmP2WakeMatch t) s a ∧ Gives (.portmP3WakeMatch t) s a) ∧
     (guarding a = true →
       (elapsed a.now 100000000 a.portM.relatchAt = true → Gives (.attentionRelatch t) s { a with portM := { a.portM with
         relatchAt := some a.now,
         causes := a.portM.causes ||| BitVec.ofNat 5 ((if (svc a).rsps = [] then 0 else 1) + 2 * (if (svc a).evts = [] then 0 else 1)) } }) ∧
       (elapsed a.now 100000000 a.portM.relatchAt = false → Gives (.attentionRelatch t) s a)) := by
  generalize ha : begin t s = a
  refine ⟨fun hg put => ?_, fun hg => ⟨fun put => ⟨?_, ?_⟩, ?_⟩, fun ho hp => ⟨?_, ?_⟩, fun ho hp => ⟨?_, ?_⟩, fun h => ⟨?_, ?_⟩, fun hg => ⟨fun he => ?_, fun he => ?_⟩⟩
  · cases put with
    | true => exact ⟨gives_at (A := execPortmSclTimeout t true s) rfl rfl ha hg rfl, gives_at (A := execPortmBusError t true s) rfl rfl ha hg rfl⟩
    | false => exact ⟨gives_at (A := execPortmSclTimeout t false s) rfl rfl ha hg rfl, gives_at (A := execPortmBusError t false s) rfl rfl ha hg rfl⟩
  · exact gives_rests (A := execPortmSclTimeout t put s) rfl rfl ha hg
  · exact gives_rests (A := execPortmBusError t put s) rfl rfl ha hg
  · exact gives_rests (A := execAttentionRelatch t s) rfl rfl ha hg
  · exact gives_at (A := execPortmP2WakeMatch t s) rfl rfl ha (by rw [ho, hp]; rfl) rfl
  · exact gives_rests (A := execPortmP3WakeMatch t s) rfl rfl ha (by rw [ho, hp]; rfl)
  · exact gives_at (A := execPortmP3WakeMatch t s) rfl rfl ha (by rw [ho, hp]; rfl) rfl
  · exact gives_rests (A := execPortmP2WakeMatch t s) rfl rfl ha (by rw [ho, hp]; rfl)
  · exact gives_rests (A := execPortmP2WakeMatch t s) rfl rfl ha (Bool.and_eq_false_iff.2 (h.imp id fun hp => by rw [hp]; rfl))
  · exact gives_rests (A := execPortmP3WakeMatch t s) rfl rfl ha (Bool.and_eq_false_iff.2 (h.imp id fun hp => by rw [hp]; rfl))
  · refine gives_at (A := execAttentionRelatch t s) rfl rfl ha hg ((doIf_of he _ _).trans ?_)
    cases (svc a).rsps <;> cases (svc a).evts <;> rfl
  · exact gives_at (A := execAttentionRelatch t s) rfl rfl ha hg (doIf_of_not he _ _)

/-- Settles O56. A transaction acts by its class and the power state, a fragment by the first rule it breaks, a notification by who may send and when. -/
theorem portMCarriesTransactions : Obligations.PortMCarriesTransactions := by
  unfold Obligations.PortMCarriesTransactions
  constructor
  · intro t s
    generalize ha : begin t s = a
    dsimp only
    exact ⟨mbxPut_acts ha, fun b n body pec => ⟨putFrag_count, putFrag_empty, fun c data => putFrag_breaks b n body pec c data⟩,
      mbxGet_one_acts ha, fun n frag hn => mbxGet_other_acts ha frag hn, mbxStatus_acts ha, mbxRing_acts ha, mbxAbortDiscard_acts ha, mbxAbortRelease_acts ha, mbxAbortBoth_acts ha,
      fun ptr data => statusPointerWrite_acts ha (ptr :: data), statusPointerWrite_acts ha [], snapSelectWrite_acts ha, statusClassRead_acts ha⟩
  · intro t s
    obtain ⟨h1, h2, h3, h4, h5, h6⟩ := portMBus t s
    refine ⟨h1, h2, h3, h4, h5, h6, ?_⟩
    generalize ha : begin t s = a
    refine ⟨fun idle hi hact hc => ⟨fun hk => ⟨?_, ?_⟩, fun acked hk => ⟨fun hn => ⟨?_, ?_⟩, fun hn won => ?_, fun e hn he => ⟨?_, ?_⟩, fun e won => gives_retry_early ha,
        fun won => gives_retry_none ha⟩⟩, fun idle won acked h => ⟨?_, ?_⟩, fun idle won acked => ⟨fun hk => ?_, fun hk => ⟨?_, ?_⟩⟩, fun won acked h => ?_⟩
    · exact gives_at (A := execAttentionSdaLowSend t idle true s) rfl rfl ha (mayNotify_of hi hact hc hk) rfl
    · exact gives_at (A := execAttentionSdaLowSend t idle false s) rfl rfl ha (mayNotify_of hi hact hc hk) rfl
    · exact gives_at (A := execAttentionHostNotifySend t idle true acked s) rfl rfl ha (by rw [mayNotify_of hi hact hc hk, hn]; rfl) rfl
    · exact gives_at (A := execAttentionHostNotifySend t idle false acked s) rfl rfl ha (by rw [mayNotify_of hi hact hc hk, hn]; rfl) rfl
    · exact gives_rests (A := execAttentionHostNotifySend t idle won acked s) rfl rfl ha (by rw [Option.isNone_eq_false_iff.2 hn, Bool.and_false])
    · exact gives_retry_due ha (mayNotify_of (by decide) hact hc hk) hn he
    · exact gives_retry_due ha (mayNotify_of (by decide) hact hc hk) hn he
    · exact gives_rests (A := execAttentionSdaLowSend t idle won s) rfl rfl ha (mayNotify_not h)
    · exact gives_rests (A := execAttentionHostNotifySend t idle won acked s) rfl rfl ha (by rw [mayNotify_not h]; rfl)
    · exact gives_rests (A := execAttentionSdaLowSend t idle won s) rfl rfl ha (mayNotify_other hk)
    · exact gives_rests (A := execAttentionHostNotifySend t idle won acked s) rfl rfl ha (by rw [mayNotify_other hk]; rfl)
    · exact gives_rests (A := execHostNotifyRetry t won acked s) rfl rfl ha (mayNotify_other hk)
    · exact gives_rests (A := execHostNotifyRetry t won acked s) rfl rfl ha (mayNotify_not (.inr h))

end Sys2Proof.Machine
end

section
/-! The test access port (R446, R488 to R496). -/

open Sys2Proof

namespace Sys2Proof.Machine

/-- An instruction of the test access port with the code `code` that does `f`, from a state that the time brings to `a`. -/
def RunsOnTap (c : Instr) (s a : State) (code : Nat) (f : State → State) : Prop :=
  (a.power.inReset = some .por → Gives c s a) ∧
  (a.power.inReset ≠ some .por → a.dbg.level < tapLevel code → Gives c s (a |> modDbg (fun d => { d with ir := 0xFF }) |> countDev 0xB02 0 |> shiftOut 1 0)) ∧
  (a.power.inReset ≠ some .por → tapLevel code ≤ a.dbg.level → tapWorks code a = false → Gives c s (a |> modDbg (fun d => { d with ir := 0xFF }) |> shiftOut 1 0)) ∧
  (a.power.inReset ≠ some .por → tapLevel code ≤ a.dbg.level → tapWorks code a = true → Gives c s (f (modDbg (fun d => { d with ir := code }) a)))

theorem runsOnTap_of {c : Instr} {A : Answer} {t code : Nat} {s a : State} {f f' : State → State} (hi : exec c s = A) (hA : A = tap t code f s) (ha : begin t s = a)
    (hf : f (modDbg (fun d => { d with ir := code }) a) = f' (modDbg (fun d => { d with ir := code }) a)) : RunsOnTap c s a code f' := by
  refine ⟨fun hr => gives_rests hi hA ha (by rw [hr]; rfl), fun hr hl => gives_at hi hA ha (bne_iff_ne.2 hr) (if_pos hl),
    fun hr hl hw => gives_at hi hA ha (bne_iff_ne.2 hr) ((if_neg (Nat.not_lt.2 hl)).trans (if_pos ?_)),
    fun hr hl hw => gives_at hi hA ha (bne_iff_ne.2 hr) ((if_neg (Nat.not_lt.2 hl)).trans ((if_neg ?_).trans hf))⟩
  · rw [hw]
    rfl
  · rw [hw]
    decide

/-- What a scan of the mailbox register does past its capture. -/
def scanMbx (f : State → State) (b : State) : State := if active (shiftOut 40 (mbxCapture b) b) = true then f (shiftOut 40 (mbxCapture b) b) else shiftOut 40 (mbxCapture b) b

@[simp] theorem active_shiftOut (n v : Nat) (b : State) : active (shiftOut n v b) = active b := by
  unfold shiftOut
  split <;> rfl

theorem runsOnTap_scan {c : Instr} {A : Answer} {t : Nat} {s a : State} {f f' : State → State} (hi : exec c s = A) (hA : A = mbxScan t f s) (ha : begin t s = a)
    (hf : ∀ b, f b = f' b) : RunsOnTap c s a 0x20 (scanMbx f') := by
  refine runsOnTap_of hi hA ha ?_
  unfold scanMbx doIf
  simp only [active_shiftOut, hf]

section
variable {t : Nat} {s a : State} (ha : begin t s = a)
include ha

theorem tapReset_runs : let b := modDbg (fun d => { d with ir := 0x01, extest := false }) a
    (a.power.inReset = some .por → Gives (.tapReset t) s a) ∧
    (a.power.inReset ≠ some .por → a.power.inReset ≠ some .extest → Gives (.tapReset t) s b) ∧
    (a.power.inReset = some .extest → a.pins.resetNLow = none → Gives (.tapReset t) s (releaseReset b)) ∧
    (a.power.inReset = some .extest → a.pins.resetNLow.isSome = true → Gives (.tapReset t) s (modPower (fun p => { p with inReset := some .pin }) b)) := by
  refine ⟨fun hr => ?_, fun hr hx => ?_, fun hx hl => ?_, fun hx hl => ?_⟩
  · exact gives_rests (A := execTapReset t s) rfl rfl ha (by rw [hr]; rfl)
  · exact gives_at (A := execTapReset t s) rfl rfl ha (bne_iff_ne.2 hr) (if_neg hx)
  · exact gives_at (A := execTapReset t s) rfl rfl ha (by rw [hx]; rfl) ((if_pos hx).trans (if_neg (by rw [modDbg, hl]; decide)))
  · exact gives_at (A := execTapReset t s) rfl rfl ha (by rw [hx]; rfl) ((if_pos hx).trans (if_pos hl))

theorem tapBypass_runs (code : Byte) : (a.power.inReset = some .por → Gives (.tapBypass t code) s a) ∧ (a.power.inReset ≠ some .por → Gives (.tapBypass t code) s
    ((if a.dbg.level < tapLevel code.toNat then countDev 0xB02 0 a else a) |> modDbg (fun d => { d with ir := 0xFF }) |> shiftOut 1 0)) := by
  refine ⟨fun hr => gives_rests (A := execTapBypass t code s) rfl rfl ha (by rw [hr]; rfl), fun hr => gives_at (A := execTapBypass t code s) rfl rfl ha (bne_iff_ne.2 hr) ?_⟩
  by_cases hl : a.dbg.level < tapLevel code.toNat
  · rw [if_pos hl, doIf_of (decide_eq_true hl)]
  · rw [if_neg hl, doIf_of_not (decide_eq_false hl)]

theorem tapSamplePreload_runs (n pins new : Nat) :
    RunsOnTap (.tapSamplePreload t n pins new) s a 0x02 (fun b => b |> shiftOut n pins |> modDbg (fun d => { d with boundary := new % 2 ^ n })) :=
  runsOnTap_of (A := execTapSamplePreload t n pins new s) rfl rfl ha rfl

theorem tapExtest_runs (n pins new : Nat) : RunsOnTap (.tapExtest t n pins new) s a 0x03 (extest n pins new) ∧
    RunsOnTap (.tapExtestPulse t n pins new) s a 0x04 (extest n pins new) ∧ RunsOnTap (.tapExtestTrain t n pins new) s a 0x05 (extest n pins new) :=
  ⟨runsOnTap_of (A := execTapExtest t n pins new s) rfl rfl ha rfl, runsOnTap_of (A := execTapExtestPulse t n pins new s) rfl rfl ha rfl,
    runsOnTap_of (A := execTapExtestTrain t n pins new s) rfl rfl ha rfl⟩

/-- The registers that an instruction reads or acts by alone. -/
theorem tapIdcode_runs : RunsOnTap (.tapIdcode t) s a 0x01 (shiftOut 32 idcode) := runsOnTap_of (A := execTapIdcode t s) rfl rfl ha rfl

theorem tapDbgStatus_runs : RunsOnTap (.tapDbgStatus t) s a 0x10 (fun b => shiftOut 32 (dbgStatus b) b) := runsOnTap_of (A := execTapDbgStatus t s) rfl rfl ha rfl

theorem tapDbgNonce_runs : RunsOnTap (.tapDbgNonce t) s a 0x11 (fun b => shiftOut 320 (leNat (nonceBytes (newNonce b))) (newNonce b)) :=
  runsOnTap_of (A := execTapDbgNonce t s) rfl rfl ha rfl

theorem tapFreeze_runs : RunsOnTap (.tapFreeze t) s a 0x21 (fun b => if canFreeze b then freezeNow 4 b else b) := runsOnTap_of (A := execTapFreeze t s) rfl rfl ha rfl

theorem tapSnapPublic_runs : RunsOnTap (.tapSnapPublic t) s a 0x22 (fun b => shiftOut (2048 * publicBlocks) (if b.frz.on then leNat (snapshot false b) else 0) b) :=
  runsOnTap_of (A := execTapSnapPublic t s) rfl rfl ha rfl

theorem tapSnapFull_runs : RunsOnTap (.tapSnapFull t) s a 0x30 (fun b =>
    if b.frz.on then { (shiftOut (2048 * fullBlocks) (leNat (snapshot true b)) b) with free := b.free + 1 } else shiftOut (2048 * fullBlocks) 0 b) :=
  runsOnTap_of (A := execTapSnapFull t s) rfl rfl ha rfl

theorem tapSramRead_runs (addr : BitVec 64) : RunsOnTap (.tapSramRead t addr) s a 0x31 (fun b =>
    { (shiftOut 64 (leNat ((List.range 8).map fun k => Config.memory b.free 512 (addr.toNat + k))) b) with free := b.free + 1 }) :=
  runsOnTap_of (A := execTapSramRead t addr s) rfl rfl ha rfl

theorem tapMezHalt_runs :
    RunsOnTap (.tapMezHalt t) s a 0x32 (fun b => if active b ∧ b.mez.run ≠ .off then ringHardware (modMez (fun m => { m with halted := true }) b) else b) :=
  runsOnTap_of (A := execTapMezHalt t s) rfl rfl ha rfl

theorem tapMezStep_runs : RunsOnTap (.tapMezStep t) s a 0x32 (fun b => if active b ∧ b.mez.halted then modMez (fun m => { m with steps := m.steps + 1 }) b else b) :=
  runsOnTap_of (A := execTapMezStep t s) rfl rfl ha rfl

theorem tapMezResume_runs : RunsOnTap (.tapMezResume t) s a 0x32 (fun b => if active b then modMez (fun m => { m with halted := false }) b else b) :=
  runsOnTap_of (A := execTapMezResume t s) rfl rfl ha rfl

/-- The debug token, by the first thing that keeps it from its check (R494). -/
theorem tapDbgToken_ill {level key : Byte} (sig : List Byte) (h : level ≠ 1#8 ∧ level ≠ 2#8 ∨ 1 < key.toNat) : RunsOnTap (.tapDbgToken t level key sig) s a 0x12 id := by
  refine runsOnTap_of (A := execTapDbgToken t level key sig s) rfl rfl ha (if_pos (h.imp (fun ⟨h1, h2⟩ => ?_) id))
  rw [beq_false_of_ne h1, beq_false_of_ne h2]
  rfl

theorem tapDbgToken_past {level key : Byte} {f : State → State} (sig : List Byte) (h1 : level = 1#8 ∨ level = 2#8) (h2 : key.toNat ≤ 1)
    (hf : (if !mayCheck a then modDbg (fun d => { d with last := 3 }) (modDbg (fun d => { d with ir := 0x12 }) a)
      else if lifecycle a.otp = 0 then modDbg (fun d => { d with last := 1 }) (modDbg (fun d => { d with ir := 0x12 }) a)
      else match a.dbg.nonce with
        | none => modDbg (fun d => { d with last := 3 }) (modDbg (fun d => { d with ir := 0x12 }) a)
        | some n => (useToken n level.toNat key.toNat (fit 96 sig) (modDbg (fun d => { d with ir := 0x12 }) a)).2) = f (modDbg (fun d => { d with ir := 0x12 }) a)) :
    RunsOnTap (.tapDbgToken t level key sig) s a 0x12 f := by
  refine runsOnTap_of (A := execTapDbgToken t level key sig s) rfl rfl ha ((if_neg ?_).trans hf)
  rintro (h | h)
  · rcases h1 with h1 | h1 <;> rw [h1] at h <;> exact absurd h (by decide)
  · omega

/-- The mailbox register's scans, by the command that the scan carries (R495). -/
theorem tapMbxNop_runs :
    RunsOnTap (.tapMbxNop t) s a 0x20 (scanMbx fun b => setCapture ((dbgRing b).rsps.length % 256 + 256 * ((oldest b).length % 65536)) b) :=
  runsOnTap_scan (A := execTapMbxNop t s) rfl rfl ha fun _ => rfl

theorem tapMbxResetPtr_runs : RunsOnTap (.tapMbxResetPtr t) s a 0x20 (scanMbx fun b => b |> modDbg (fun d => { d with cmd := [], rd := 0 }) |> setCapture 0) :=
  runsOnTap_scan (A := execTapMbxResetPtr t s) rfl rfl ha fun _ => rfl

theorem tapMbxPut_runs (data : BitVec 32) : RunsOnTap (.tapMbxPut t data) s a 0x20 (scanMbx fun b => setCapture 0 (if b.dbg.cmd.length + 4 ≤ 1028
    then modDbg (fun d => { d with cmd := d.cmd ++ leBytes 4 data.toNat }) b else modDbg (fun d => { d with refused := true }) b)) := by
  refine runsOnTap_scan (A := execTapMbxPut t data s) rfl rfl ha fun b => congrArg (setCapture 0) ?_
  by_cases h : b.dbg.cmd.length + 4 ≤ 1028
  · simp only [modDbg, h, ↓reduceIte]
  · simp only [modDbg, h, ↓reduceIte]

theorem tapMbxRing_runs : RunsOnTap (.tapMbxRing t) s a 0x20 (scanMbx fun b => setCapture 0 (if 8 ≤ (dbgRing b).cmds.length then modDbg (fun d => { d with refused := true }) b
    else b |> modRing .debug (fun r => { r with cmds := r.cmds ++ [{ bytes := b.dbg.cmd, at_ := b.now, src := 0#16, gallery := none, arrival := b.hall.arrivalSeq }],
                                                tail := r.tail + 1#8 })
           |> ringHardware |> modDbg (fun d => { d with refused := false, cmd := [] }))) := by
  refine runsOnTap_scan (A := execTapMbxRing t s) rfl rfl ha fun b => congrArg (setCapture 0) ?_
  by_cases h : 8 ≤ (dbgRing b).cmds.length
  · rw [if_pos h, show submit .debug b.dbg.cmd 0#16 none b.hall.arrivalSeq b = (b, false) from if_pos h]
    rfl
  · rw [if_neg h, show submit .debug b.dbg.cmd 0#16 none b.hall.arrivalSeq b = _ from if_neg h]
    rfl

theorem tapMbxGet_runs :
    RunsOnTap (.tapMbxGet t) s a 0x20 (scanMbx fun b => b |> setCapture (field (oldest b) b.dbg.rd 4) |> modDbg (fun d => { d with rd := min 2047 (d.rd + 4) })) :=
  runsOnTap_scan (A := execTapMbxGet t s) rfl rfl ha fun _ => rfl

theorem tapMbxAck_runs : RunsOnTap (.tapMbxAck t) s a 0x20 (scanMbx fun b =>
    b |> modRing .debug (fun r => { r with rsps := r.rsps.drop 1 }) |> modDbg (fun d => { d with rd := 0 }) |> setCapture 0) :=
  runsOnTap_scan (A := execTapMbxAck t s) rfl rfl ha fun _ => rfl

end

/-- Settles O57. Each instruction of the port acts by the one rule of its level and the power state, with what its own row does past it. -/
theorem theTapScansItsRegisters : Obligations.TheTapScansItsRegisters := by
  unfold Obligations.TheTapScansItsRegisters
  intro t s
  generalize ha : begin t s = a
  refine ⟨tapReset_runs ha, tapIdcode_runs ha, tapBypass_runs ha, tapSamplePreload_runs ha, tapExtest_runs ha, tapDbgStatus_runs ha, tapDbgNonce_runs ha,
    fun level key sig => ⟨tapDbgToken_ill ha sig, fun h1 h2 => ⟨fun h => ?_, fun hm hl => ?_, fun n hm hl hn => ?_⟩⟩,
    tapMbxNop_runs ha, tapMbxResetPtr_runs ha, tapMbxPut_runs ha, tapMbxRing_runs ha, tapMbxGet_runs ha, tapMbxAck_runs ha, tapFreeze_runs ha, tapSnapPublic_runs ha,
    tapSnapFull_runs ha, tapSramRead_runs ha, tapMezHalt_runs ha, tapMezStep_runs ha, tapMezResume_runs ha⟩
  · refine tapDbgToken_past ha sig h1 h2 ?_
    cases hm : mayCheck a with
    | false => rfl
    | true =>
      obtain ⟨hl, hn⟩ := h.resolve_left (by rw [hm]; decide)
      rw [if_neg hl, hn]
      rfl
  · exact tapDbgToken_past ha sig h1 h2 ((if_neg (by rw [hm]; decide)).trans (if_pos hl))
  · refine tapDbgToken_past (f := fun b => (useToken n level.toNat key.toNat (fit 96 sig) b).2) ha sig h1 h2
      ((if_neg (by rw [hm]; decide)).trans ((if_neg hl).trans ?_))
    rw [hn]

end Sys2Proof.Machine
end
